-- ==== Sys2Proof/Word.lean ====
section
/-! DEFINITION. Word.lean: the word types of the KX9400's registers and host-memory formats.
Registers are 32 bits wide (R10); stamps, descriptor words and record words are 64 bits (R6, R47, R51);
every multi-byte value is little-endian (R9). -/
namespace Sys2Proof

/-- One byte of a host-memory format or of a memory of the block. -/
abbrev Byte := BitVec 8

/-- One 32-bit register word (R10). -/
abbrev Word := BitVec 32

/-- One 64-bit word: a stamp (R6), a descriptor word (R47), a record word (R51). -/
abbrev DWord := BitVec 64

/-- A run of bytes at ascending addresses. -/
abbrev Bytes := List Byte

end Sys2Proof
end

