-- ==== Sys2Proof/Syntax.lean ====
section
/-! DEFINITION. Syntax.lean: the commands of the block.
One constructor for each row of spec/opcode_table.json. An operand is what the command brings from outside the block:
a written word, bytes read from host memory, a voltage, a measured value, an error indication. -/
namespace Sys2Proof

/-- What another device of the Ernos array answers during an alignment (R396, R398): its upstream port, its hops from the
head, whether it failed to answer, its measured time error, head delay, ERNOS_ALIGN_TOL, the residual error after the
hold and the trigger reach as it sees it, in ticks. -/
structure AlignEntry where
  upstream : Fin 2
  hops : Fin 32
  failed : Bool
  offset : Int
  headDelay : Nat
  tol : Nat
  residual : Nat
  reach : Nat
deriving DecidableEq, Repr


/-- The commands the block takes, one constructor for each row of the spec's table of operations and events. -/
inductive Instr where
  /-- BAD_WIDTH_ACCESS (R10): a BAR0 access of `len` bytes at `addr` that is not one aligned 32-bit word. -/
  | badWidthAccess (write : Bool) (addr len : Nat)
  /-- PAIR_LO_READ (R12): a read of the LO register at `addr`. -/
  | pairLoRead (addr : Nat)
  /-- PAIR_LO_WRITE (R12): a write of `v` to the LO register at `addr`. -/
  | pairLoWrite (addr : Nat) (v : Word)
  /-- PAIR_HI_WRITE (R12): a write of `v` to the HI register at `addr`. -/
  | pairHiWrite (addr : Nat) (v : Word)
  /-- REGISTER_WRITE (R13): a write of `v` to the register at `addr`. -/
  | registerWrite (addr : Nat) (v : Word)
  /-- HOST_NUDGE (R42): a write of `v` to HOST_NUDGE. -/
  | hostNudge (v : Word)
  /-- HOST_ENABLE (R74): a write of HOST_CTRL that sets ENABLE to `on`. -/
  | hostEnable (on : Bool)
  /-- EVQ_ENABLE (R73): a write of HOST_CTRL that sets EVQ_EN to `on`. -/
  | evqEnable (on : Bool)
  /-- SQ_ENABLE (R74): a write of `v` to HOST_SQ_CTRL of the selected ring. -/
  | sqEnable (v : Word)
  /-- CQ_ENABLE (R74): a write of `v` to HOST_CQ_CTRL of the selected ring. -/
  | cqEnable (v : Word)
  /-- DOORBELL_POLL (R41): the interval of poll class `cls` expires. -/
  | doorbellPoll (cls : Fin 4)
  /-- DOORBELL_READ_DONE (R41): the page read of class `cls` returns the page's words, by word index (R39). -/
  | doorbellReadDone (cls : Fin 4) (words : List DWord)
  /-- DOORBELL_READ_FAILED (R480): the page read of class `cls` is answered with an error. -/
  | doorbellReadFailed (cls : Fin 4)
  /-- DESCRIPTOR_FETCH (R43). -/
  | descriptorFetch
  /-- DESCRIPTOR_PICKUP (R43): the outstanding descriptor read returns the slot's 64 bytes. -/
  | descriptorPickup (slot : Bytes)
  /-- DESCRIPTOR_READ_FAILED (R480). -/
  | descriptorReadFailed
  /-- POSTED_CREDIT_GRANT (R67): the link's posted-write credit is granted, or (`granted` false) runs out. -/
  | postedCreditGrant (granted : Bool)
  /-- COALESCE_TIMEOUT (R72) of completion ring `m`. -/
  | coalesceTimeout (m : Fin 64)
  /-- LINK_RETRAIN (R37): the primary or secondary link retrains to a generation, a width and a mode. -/
  | linkRetrain (secondary : Bool) (speed width : Nat) (flit : Bool)
  /-- LINK_CORRECTED_ERROR (R37). -/
  | linkCorrectedError
  /-- LINK_UNCORRECTABLE_ERROR (R37). -/
  | linkUncorrectableError
  /-- LINK_RESET (R468). -/
  | linkReset
  /-- COLD_RESET (R468). -/
  | coldReset
  /-- WARM_RESET (R469): a write of `v` to GLOBAL_RESET. -/
  | warmReset (v : Word)
  /-- CAPTURE_ARM (R164): the decision of a CAPTURE_ARM descriptor. -/
  | captureArm
  /-- SEGMENT_READ (R168): the decision of a SEGMENT_READ descriptor. -/
  | segmentRead
  /-- STREAM_OPEN (R166): the decision of a STREAM_OPEN descriptor. -/
  | streamOpen
  /-- STREAM_CLOSE (R167): the decision of a STREAM_CLOSE descriptor. -/
  | streamClose
  /-- AFTERGLOW_READ (R185): the decision of an AFTERGLOW_READ descriptor. -/
  | afterglowRead
  /-- AFTERGLOW_CLEAR (R182): the decision of an AFTERGLOW_CLEAR descriptor. -/
  | afterglowClear
  /-- FIBRE_VIB_RUN (R227): the admission decision of the next descriptor, a FIBRE_VIB_RUN; `setup` is its run block as the host's memory answers, none where the read fails. -/
  | fibreVibRun (setup : Option Bytes)
  /-- FIBRE_TEMP_RUN (R247): the admission decision of the next descriptor, a FIBRE_TEMP_RUN; `setup` is its run block as the host's memory answers, none where the read fails. -/
  | fibreTempRun (setup : Option Bytes)
  /-- BEACON_LOAD (R201): the admission decision of the next descriptor, a BEACON_LOAD. -/
  | beaconLoad
  /-- GLINT_MEASURE (R274): the admission decision of the next descriptor, a GLINT_MEASURE; `setup` is its setup block as the host's memory answers, none where the read fails. -/
  | glintMeasure (setup : Option Bytes)
  /-- TILE_LOAD (R313): the decision of a TILE_LOAD descriptor. -/
  | tileLoad
  /-- TILE_RUN (R316): the decision of a TILE_RUN descriptor; its setup block, or none where the read failed. -/
  | tileRun (setup : Option Bytes)
  /-- MOVE (R354): the decision of a MOVE descriptor after its list is read; none where the read failed. -/
  | move (list : Option Bytes)
  /-- AMU_SEQUENCE (R418): the decision of an AMU_SEQUENCE descriptor; its table of entries, or none where the read failed. -/
  | amuSequence (table : Option Bytes)
  /-- AMU_INJECT (R417): the decision of an AMU_INJECT descriptor. -/
  | amuInject
  /-- CALIBRATE (R99): the decision of a CALIBRATE descriptor. -/
  | calibrate
  /-- ARRAY_ALIGN (R395): the decision of an ARRAY_ALIGN descriptor; `devs` devices form the array. -/
  | arrayAlign (devs : Fin 33)
  /-- IMAGE_OFFER (R430): the decision of an IMAGE_OFFER descriptor; the image's header, or none where its read failed. -/
  | imageOffer (header : Option Bytes)
  /-- LEDGER_READ (R448): the decision of a LEDGER_READ descriptor. -/
  | ledgerRead
  /-- ABORT (R69): the decision of an ABORT descriptor. -/
  | abort
  /-- PRISM_COMMIT (R79): a write of `v` to PRISM_CHn_COMMIT of channel `n`. -/
  | prismCommit (n : Fin 4) (v : Word)
  /-- PRISM_CONFIG_APPLY (R79) on channel `n`. -/
  | prismConfigApply (n : Fin 4)
  /-- RANGE_CHANGE_APPLY (R87) on channel `n`. -/
  | rangeChangeApply (n : Fin 4)
  /-- PRISM_WORD (R21): the next word of channel `n`: the differential input in nV at its 64 sampling instants; the changes of the channel's own overdrive detector and of its same-side neighbour's within the word, each as an offset in ticks from the word's start and the new state; whether Penumbra finds a parity error in it (R147); and the histogram columns in which a parity error is found (R181). -/
  | prismWord (n : Fin 4) (volts : List Int) (own nbr : List (Nat × Bool)) (par : Bool) (cols : List (Fin 4096))
  /-- CAL_UPDATE (R93) on channel `n`: the residuals of the new set, by CAL_RESID's fields; `ready` is false where the management core could not finish the set in time. -/
  | calUpdate (n : Fin 4) (offset gain bw skew : Fin 256) (ready : Bool)
  /-- CAL_STALE_TIMEOUT (R92) on channel `n`. -/
  | calStaleTimeout (n : Fin 4)
  /-- CALIBRATE_CHANNEL_DONE (R99): the channel in progress of the oldest calibration ends: whether it passed, the chiplet's temperature in 1/64 °C, the residuals of its report entry, and its largest offset and skew trims. -/
  | calibrateChannelDone (pass : Bool) (temp : Int) (offset gain skew bw : Fin 65536) (offTrim skewTrim : Int)
  /-- LANTERN_COMMIT (R129): a write of `v` to LANTERN_COMMIT. -/
  | lanternCommit (v : Word)
  /-- LANTERN_COMMIT_APPLY (R129). -/
  | lanternCommitApply
  /-- TRIGIN_EDGE (R108): TRIGIN `p` has an edge; `t` is its stamp, as a full device time. -/
  | triginEdge (p : Fin 2) (rise : Bool) (t : Nat)
  /-- LANTERN_TIMEOUT (R112): the timeout or pattern duration of condition `c` expires. -/
  | lanternTimeout (c : Fin 16)
  /-- SEQUENCE_TIMEOUT (R118): SEQ_TMAX of unit `u` passes. -/
  | sequenceTimeout (u : Fin 8)
  /-- MARK_QUEUE_DRAIN (R121): unit `u`'s oldest mark leaves its queue. -/
  | markQueueDrain (u : Fin 8)
  /-- LINE_EVENT (R128): a line event of time `t`, as a full device time, arrives on line `i`. -/
  | lineEvent (i : Fin 8) (t : Nat)
  /-- CLOCK_HOLD_END (R125): the clock hold ends. -/
  | clockHoldEnd
  /-- CAPTURE_ARMING (R137) of the capture `sq`, `tag`. -/
  | captureArming (sq : Fin 64) (tag : BitVec 16)
  /-- CAPTURE_MARK (R141): the capture `sq`, `tag` judges the next mark that has reached it. -/
  | captureMark (sq : Fin 64) (tag : BitVec 16)
  /-- WINDOW_CLOSE (R145): the last sample of the oldest window of the capture `sq`, `tag` has passed Penumbra. -/
  | windowClose (sq : Fin 64) (tag : BitVec 16)
  /-- ARM_TIME_EXPIRY (R149) of the capture `sq`, `tag`. -/
  | armTimeExpiry (sq : Fin 64) (tag : BitVec 16)
  /-- GATE_LIMIT (R151) of the capture `sq`, `tag`. -/
  | gateLimit (sq : Fin 64) (tag : BitVec 16)
  /-- STREAM_START (R166) of the stream `sq`, `tag`. -/
  | streamStart (sq : Fin 64) (tag : BitVec 16)
  /-- STREAM_STOP (R167) of the stream or capture `sq`, `tag`. -/
  | streamStop (sq : Fin 64) (tag : BitVec 16)
  /-- RECORD_SYNC_GO (R158): a write of `v` to RECORD_SYNC_GO. -/
  | recordSyncGo (v : Word)
  /-- SYNC_APPLY (R158). -/
  | syncApply
  /-- AFTERGLOW_COMMIT (R172): a write of `v` to AFTERGLOW_COMMIT. -/
  | afterglowCommit (v : Word)
  /-- AFTERGLOW_COMMIT_APPLY (R172). -/
  | afterglowCommitApply
  /-- SUM_SEGMENT_READ (R179) of input `n`: the sum engine takes the next closed segment; `bad` says that the read of an area failed its CRC-16. -/
  | sumSegmentRead (n : Fin 4) (bad : Bool)
  /-- AFTERGLOW_RECOMPUTE (R181) of input `n`. -/
  | afterglowRecompute (n : Fin 4)
  /-- AFTERGLOW_CLEAR_POINT (R183) of input `n`. -/
  | afterglowClearPoint (n : Fin 4)
  /-- HISTOGRAM_COLUMN_TAKE (R186) of input `n`. -/
  | histogramColumnTake (n : Fin 4)
  /-- SUM_DRAIN_DELIVER (R186): the drained sum area of input `n`, or with `env` its envelope area, is complete. -/
  | sumDrainDeliver (n : Fin 4) (env : Bool)
  /-- BEACON_COMMIT (R198): a write of `v` to BEACON_Bb_COMMIT of output `b`. -/
  | beaconCommit (b : Fin 2) (v : Word)
  /-- BEACON_PLAY_START (R196): output `b`'s play reaches T_start. -/
  | beaconPlayStart (b : Fin 2)
  /-- PROBE_EMISSION (R196): the next probe of output `b`'s play begins. -/
  | probeEmission (b : Fin 2)
  /-- MARKER_EDGE (R197): the window of slot `slot` of cycle `c` rises or falls on marker `mk`. -/
  | markerEdge (mk : Fin 4) (c : Nat) (slot : Fin 16) (rise : Bool)
  /-- BEACON_BANK_SWITCH (R198): output `b`'s bank change reaches its cycle boundary. -/
  | beaconBankSwitch (b : Fin 2)
  /-- BEACON_PLAY_STOP (R198): the probe in progress of a play that is to stop has ended. -/
  | beaconPlayStop (b : Fin 2)
  /-- GLIMMER_TRACE (R204, R207): tone `tone`'s channeliser trace of fibre `f` from the even and odd inputs, by position from POS_FIRST, as real and imaginary parts; `late`: it could not be processed in time (R222); `stateErr`: positions whose state area failed its CRC-16 (R223). -/
  | glimmerTrace (f : Fin 2) (tone : Fin 16) (even odd : List (Int × Int)) (late : Bool) (stateErr : List Nat)
  /-- GLIMMER_RECOMPUTE (R223): a trace spoiled by a path error, recomputed; `damaged`: the retained words were damaged. -/
  | glimmerRecompute (f : Fin 2) (tone : Fin 16) (even odd : List (Int × Int)) (damaged : Bool)
  /-- GLIMMER_FRAME_WRITE (R218): fibre `f`'s oldest complete frame is written to the host ring. -/
  | glimmerFrameWrite (f : Fin 2)
  /-- FTEMP_TRACE (R233): instance `i`'s oldest awaited trace is complete; `late`: it could not be summed in time (R242). -/
  | ftempTrace (i : Fin 2) (late : Bool)
  /-- FTEMP_RECOMPUTE (R243): a trace spoiled by a parity error is recomputed; `damaged`: the retained words were damaged. -/
  | ftempRecompute (i : Fin 2) (damaged : Bool)
  /-- FTEMP_ACCUMULATION_END (R235): the accumulation's last emission has been taken; `bad`, `badKept`: a sum area, or the means kept from the other direction, failed its CRC-16 (R244). -/
  | ftempAccumulationEnd (i : Fin 2) (bad badKept : Bool)
  /-- DIRECTION_CHANGE (R239): the direction line of instance `i` changes after an accumulation's last emission. -/
  | directionChange (i : Fin 2)
  /-- GLINT_EDGE (R252): input `n` (256 to 259 are GATE0 to GATE3) crosses its switching level; `t` is the first tick at or after the crossing, as a full device time; `full`: the stamp finds its FIFO full (R255). -/
  | glintEdge (n : Fin 260) (rise full : Bool) (t : Nat)
  /-- GLINT_INTERP_CAL (R256): input `n`'s periodic calibration completes. -/
  | glintInterpCal (n : Fin 256)
  /-- GLINT_ARM (R258): the measurement job of group `g` arms. -/
  | glintArm (g : Fin 32)
  /-- GLINT_WINDOW_END (R259): the timed window of group `g` ends. -/
  | glintWindowEnd (g : Fin 32)
  /-- CLASS_I_CYCLE_CLOSE (R260): the oldest open cycle of group `g` closes. -/
  | classICycleClose (g : Fin 32)
  /-- GLINT_RESULT (R265): group `g`'s oldest ended measurement gives its result; `spoiled`: entries that a parity error spoiled; `crc`: a retained stamp entry failed its CRC-16; `damaged`: a delivered one did (R271). -/
  | glintResult (g : Fin 32) (spoiled : List (Fin 64)) (crc damaged : Bool)
  /-- GLINT_LIMIT (R270): LIMIT_US after group `g`'s job armed. -/
  | glintLimit (g : Fin 32)
  /-- GLINT_COMMIT (R276): a write of `v` to GLINT_COMMIT. -/
  | glintCommit (v : Word)
  /-- GLINT_COMMIT_APPLY (R276); `high` lists the inputs that it enables whose comparator output is high (R112). -/
  | glintCommitApply (high : List (Fin 256))
  /-- RES_HDR_READ (R269): a read of GLINT_Gg_RES_HDR of group `g`. -/
  | resHdrRead (g : Fin 32)
  /-- RES_DATA_READ (R269): a read of GLINT_Gg_RES_DATA of group `g`. -/
  | resDataRead (g : Fin 32)
  /-- NOP (R283): the unit that tile `t` leads issues its next bundle, which is this operation. -/
  | nop (t : Fin 256)
  /-- MAC4 (R283): the unit that tile `t` leads issues its next bundle, which is this operation. -/
  | mac4 (t : Fin 256)
  /-- MACP (R283): the unit that tile `t` leads issues its next bundle, which is this operation. -/
  | macp (t : Fin 256)
  /-- ACCLD (R283): the unit that tile `t` leads issues its next bundle, which is this operation. -/
  | accld (t : Fin 256)
  /-- ACCST (R283): the unit that tile `t` leads issues its next bundle, which is this operation. -/
  | accst (t : Fin 256)
  /-- EXT (R283): the unit that tile `t` leads issues its next bundle, which is this operation. -/
  | ext (t : Fin 256)
  /-- MOVS (R283): the unit that tile `t` leads issues its next bundle, which is this operation. -/
  | movs (t : Fin 256)
  /-- SHA (R283): the unit that tile `t` leads issues its next bundle, which is this operation. -/
  | sha (t : Fin 256)
  /-- MOV (R283): the unit that tile `t` leads issues its next bundle, which is this operation. -/
  | mov (t : Fin 256)
  /-- ADD (R283): the unit that tile `t` leads issues its next bundle, which is this operation. -/
  | add (t : Fin 256)
  /-- SUB (R283): the unit that tile `t` leads issues its next bundle, which is this operation. -/
  | sub (t : Fin 256)
  /-- AND (R283): the unit that tile `t` leads issues its next bundle, which is this operation. -/
  | and (t : Fin 256)
  /-- OR (R283): the unit that tile `t` leads issues its next bundle, which is this operation. -/
  | or (t : Fin 256)
  /-- XOR (R283): the unit that tile `t` leads issues its next bundle, which is this operation. -/
  | xor (t : Fin 256)
  /-- ADD4 (R283): the unit that tile `t` leads issues its next bundle, which is this operation. -/
  | add4 (t : Fin 256)
  /-- SUB4 (R283): the unit that tile `t` leads issues its next bundle, which is this operation. -/
  | sub4 (t : Fin 256)
  /-- CMP (R283): the unit that tile `t` leads issues its next bundle, which is this operation. -/
  | cmp (t : Fin 256)
  /-- FCVT (R283): the unit that tile `t` leads issues its next bundle, which is this operation. -/
  | fcvt (t : Fin 256)
  /-- ICVT (R283): the unit that tile `t` leads issues its next bundle, which is this operation. -/
  | icvt (t : Fin 256)
  /-- GETA (R283): the unit that tile `t` leads issues its next bundle, which is this operation. -/
  | geta (t : Fin 256)
  /-- GETS (R283): the unit that tile `t` leads issues its next bundle, which is this operation. -/
  | gets (t : Fin 256)
  /-- PUTS (R283): the unit that tile `t` leads issues its next bundle, which is this operation. -/
  | puts (t : Fin 256)
  /-- LDE (R283): the unit that tile `t` leads issues its next bundle, which is this operation. -/
  | lde (t : Fin 256)
  /-- STE (R283): the unit that tile `t` leads issues its next bundle, which is this operation. -/
  | ste (t : Fin 256)
  /-- MOVI (R283): the unit that tile `t` leads issues its next bundle, which is this operation. -/
  | movi (t : Fin 256)
  /-- MOVIH (R283): the unit that tile `t` leads issues its next bundle, which is this operation. -/
  | movih (t : Fin 256)
  /-- SETA (R283): the unit that tile `t` leads issues its next bundle, which is this operation. -/
  | seta (t : Fin 256)
  /-- ADDA (R283): the unit that tile `t` leads issues its next bundle, which is this operation. -/
  | adda (t : Fin 256)
  /-- B (R283): the unit that tile `t` leads issues its next bundle, which is this operation. -/
  | b (t : Fin 256)
  /-- CALL (R283): the unit that tile `t` leads issues its next bundle, which is this operation. -/
  | call (t : Fin 256)
  /-- RET (R283): the unit that tile `t` leads issues its next bundle, which is this operation. -/
  | ret (t : Fin 256)
  /-- RETI (R283): the unit that tile `t` leads issues its next bundle, which is this operation. -/
  | reti (t : Fin 256)
  /-- LOOP (R283): the unit that tile `t` leads issues its next bundle, which is this operation. -/
  | loop (t : Fin 256)
  /-- REP (R283): the unit that tile `t` leads issues its next bundle, which is this operation. -/
  | rep (t : Fin 256)
  /-- BRK (R283): the unit that tile `t` leads issues its next bundle, which is this operation. -/
  | brk (t : Fin 256)
  /-- WAITIN (R283): the unit that tile `t` leads issues its next bundle, which is this operation. -/
  | waitin (t : Fin 256)
  /-- NEXTIN (R283): the unit that tile `t` leads issues its next bundle, which is this operation. -/
  | nextin (t : Fin 256)
  /-- PUTOUT (R283): the unit that tile `t` leads issues its next bundle, which is this operation. -/
  | putout (t : Fin 256)
  /-- WAITOUT (R283): the unit that tile `t` leads issues its next bundle, which is this operation. -/
  | waitout (t : Fin 256)
  /-- PLD (R283): the unit that tile `t` leads issues its next bundle, which is this operation. -/
  | pld (t : Fin 256)
  /-- PST (R283): the unit that tile `t` leads issues its next bundle, which is this operation. -/
  | pst (t : Fin 256)
  /-- PWAIT (R283): the unit that tile `t` leads issues its next bundle, which is this operation. -/
  | pwait (t : Fin 256)
  /-- EI (R283): the unit that tile `t` leads issues its next bundle, which is this operation. -/
  | ei (t : Fin 256)
  /-- DI (R283): the unit that tile `t` leads issues its next bundle, which is this operation. -/
  | di (t : Fin 256)
  /-- HALT (R283): the unit that tile `t` leads issues its next bundle, which is this operation. -/
  | halt (t : Fin 256)
  /-- TILE_STALL_RELEASE (R306): a stalled unit goes on after `n` cycles. -/
  | tileStallRelease (t : Fin 256) (n : Nat)
  /-- TILE_INTERRUPT (R300). -/
  | tileInterrupt (t : Fin 256)
  /-- TILE_TIMER (R298). -/
  | tileTimer (t : Fin 256)
  /-- TILE_MAIL_WRITE (R298): a host write of `v` to LUMEN_Tt_MAIL. -/
  | tileMailWrite (t : Fin 256) (v : Word)
  /-- TILE_OVERRUN (R306). -/
  | tileOverrun (t : Fin 256)
  /-- ITEM_DELIVERY (R306): the feeder's next item for tile `t`. -/
  | itemDelivery (t : Fin 256)
  /-- TILE_PARITY_RECOVERY (R310): a read of a memory of tile `t` fails its parity; `fetch` says that every held item can be fetched again. -/
  | tileParityRecovery (t : Fin 256) (fetch : Bool)
  /-- POOL_ACCESS_COMPLETE (R326): the oldest access of tile `t` completes after `cycles`; `bad` says that a byte it read failed its parity. -/
  | poolAccessComplete (t : Fin 256) (cycles : Nat) (bad : Bool)
  /-- POOL_MARCH_GO (R333): a write of `v` to POOL_MARCH_CTRL. -/
  | poolMarchGo (v : Word)
  /-- MARCH_TEST_DONE (R330): the test ends; the failing rows, as pool byte addresses in the order found, each with its background. -/
  | marchTestDone (rows : List (Nat × Nat))
  /-- MOVER_ELEMENT_READY (R339) of channel `c`. -/
  | moverElementReady (c : Fin 64)
  /-- PRODUCER_FLUSH_TIMEOUT (R346) of the producer behind channel `c`. -/
  | producerFlushTimeout (c : Fin 64)
  /-- MOVER_GRANT (R338) of mover `m`. -/
  | moverGrant (m : Fin 8)
  /-- MOVER_ELEMENT_END (R347): the element in progress on mover `m` ends; `moved` counts its bytes where it is cut short, `data` is what was read from host memory, `retries` counts bursts read again (R350), and `damaged` lists the offsets within the element at which its source data failed. -/
  | moverElementEnd (m : Fin 8) (moved : Nat) (data : Bytes) (retries : Nat) (damaged : List Nat)
  /-- HOST_READ_ERROR (R50): a read request of the job on mover channel `c` is answered with an error; `data` is what the requests of the element that completed before it returned. -/
  | hostReadError (c : Fin 64) (data : Bytes)
  /-- HBM_TRAINING_DONE (R363): stack `k` ends its training after `us` µs; for each of its 128 byte lanes, the pins that failed and the taps that passed (bit `tap`) for reads and for writes. -/
  | hbmTrainingDone (k : Fin 2) (us : Nat) (lanes : List (Nat × BitVec 128 × BitVec 128))
  /-- HBM_TRACKING (R364): lane `lane` of stack `k` reads the training pattern 8 taps below and above its centre; whether each passed. -/
  | hbmTracking (k : Fin 2) (lane : Fin 128) (write : Bool) (below above : Bool)
  /-- HBM_REFRESH (R366): the refresh of a bank of a pseudo-channel is due; `must` says that it can no longer be postponed. -/
  | hbmRefresh (pc : Fin 64) (bank : Fin 48) (must : Bool)
  /-- HBM_REQUEST (R369): port `port` of stack `k` asks for one burst, by store address: a write with its byte enables and data, or a read; `crc` is the integrity type CRC16, else PACK10. -/
  | hbmRequest (k : Fin 2) (port : Fin 8) (write : Bool) (addr : Nat) (mask : BitVec 64) (data : Bytes) (crc : Bool)
  /-- HBM_READ_COMPLETE (R375): the last beat of a pseudo-channel's oldest issued read returns; `flip` marks bits that the stack or the interface upset. -/
  | hbmReadComplete (pc : Fin 64) (flip : Bytes)
  /-- HBMC_COMMIT (R377): a write of `v` to HBMC_Ss_COMMIT of stack `k`. -/
  | hbmcCommit (k : Fin 2) (v : Word)
  /-- HBMC_COMMIT_APPLY (R377). -/
  | hbmcCommitApply (k : Fin 2)
  /-- MPLL_RELOCK_RESUME (R376): what the tracking pass found: stack, byte lane, whether it is the write direction, and whether the pattern passed 8 taps below and above the centre. -/
  | mpllRelockResume (found : List (Fin 2 × Fin 128 × Bool × Bool × Bool))
  /-- CLOCK_COMMIT (R380): a write of `v` to CLOCK_COMMIT. -/
  | clockCommit (v : Word)
  /-- CLOCK_COMMIT_APPLY (R380): the always-on edge at which an accepted commit applies. -/
  | clockCommitApply
  /-- PRESENCE_WINDOW (R382): a presence window ends with these counts of XIN, REFIN and Ernos reference edges. -/
  | presenceWindow (xin refin ern : Nat)
  /-- MISSING_EDGE (R382): reference `r` (0 XIN, 1 REFIN, 2 Ernos) had no edge for two phase-detector periods. -/
  | missingEdge (r : Fin 3)
  /-- LOCK_WINDOW (R383): a lock-counter window of a loop (0 SSYN, 1 CPLL, 2 MPLL) ends; its counts differ by `diff`. -/
  | lockWindow (loop : Fin 3) (diff : Nat)
  /-- SSYN_PHASE_ERROR (R383): the phase errors, in ps, at two consecutive reference edges. -/
  | ssynPhaseError (e1 e2 : Nat)
  /-- REFERENCE_RETURN (R385): the measured step of the returned reference, in ticks. -/
  | referenceReturn (step : Int)
  /-- BUILD_OUT (R385): a write of `v` to CLOCK_REFRET_CMD. -/
  | buildOut (v : Word)
  /-- COAST_LIMIT_EXPIRY (R386). -/
  | coastLimitExpiry
  /-- CPLL_FALLBACK (R387): CPLL loses lock. -/
  | cpllFallback
  /-- CPLL_FALLBACK_RETURN (R387). -/
  | cpllFallbackReturn
  /-- MPLL_LOCK_LOST (R387). -/
  | mpllLockLost
  /-- CORE_CLOCK_LOSS (R387): CPLL loses lock while XIN is absent. -/
  | coreClockLoss
  /-- CLOCK_TIME_READ (R388): a read of CLOCK_TIME_LO. -/
  | clockTimeRead
  /-- EPOCH_WRAP (R7): device time reaches the wrap of the stamp. -/
  | epochWrap
  /-- TIME_STEP (R389): the instant of an ARRAY_ALIGN's step. -/
  | timeStep
  /-- ERN_LINK_DOWN (R390): the link of a port (0 ERN_UP, 1 ERN_DN) fails. -/
  | ernLinkDown (port : Fin 2)
  /-- ERN_LINK_UP (R390): the link of a port trains; `toHead` says that it leads toward the head. -/
  | ernLinkUp (port : Fin 2) (toHead : Bool)
  /-- ERNOS_PROBE (R392): a round trip on a port gives the link's one-way delay, the head delay, the time error against the head and the trigger reach, in ticks; `errors` counts frames discarded since the last one. -/
  | ernosProbe (port : Fin 2) (delay headDelay : Nat) (offset : Int) (reach errors : Nat)
  /-- ARRAY_ALIGN_DONE (R396): the other devices' report entries, in discovery order, and the trigger reach. -/
  | arrayAlignDone (others : List AlignEntry) (reach : Nat)
  /-- AMU_COMMIT (R425): a write of `v` to AMU_COMMIT. -/
  | amuCommit (v : Word)
  /-- AMU_COMMIT_APPLY (R425). -/
  | amuCommitApply
  /-- AMU_PASS_START (R418). -/
  | amuPassStart
  /-- AMU_OUTPUT (R411): the sinc filter's output, the differential input voltage in nV, with the REF_IN voltage in nV. -/
  | amuOutput (v : Int) (vref : Nat)
  /-- AMU_SWAP (R412): a write of `v` to AMU_SWAP. -/
  | amuSwap (v : Word)
  /-- INJECT_START (R415). -/
  | injectStart
  /-- INJECT_DONE (R415): the injected conversion's settled output: the differential input voltage and the REF_IN voltage in nV. -/
  | injectDone (v : Int) (vref : Nat)
  /-- AMU_RESULT_HDR_READ (R413): a read of the HDR of AMU_RESULTn, or of AMU_INJ_RES (16). -/
  | amuResultHdrRead (n : Fin 17)
  /-- AMU_CJC_READ (R409): the cold-junction temperature in 1/64 °C. -/
  | amuCjcRead (t : Int)
  /-- LOOP_SET (R423): a write of `v` to LOOPk_SET. -/
  | loopSet (k : Fin 2) (v : Word)
  /-- LOOP_READBACK (R424): the measured loop current in µA. -/
  | loopReadback (k : Fin 2) (ua : Nat)
  /-- LOOP_WDOG (R424). -/
  | loopWdog (k : Fin 2)
  /-- BOOT_IMAGE_ARRIVAL (R427): from the mailbox (source 0) by a write of `v` to GLOBAL_BOOT_CMD, or `image` from ERN_UP (1) or ERN_DN (2). -/
  | bootImageArrival (src : Fin 3) (v : Word) (image : Bytes)
  /-- BOOT_IMAGE_REQUEST (R427): the neighbour on an Ernos port asks for the running image. -/
  | bootImageRequest (port : Fin 2)
  /-- IMAGE_VERIFY_DONE (R429): the boot ROM has verified an image. -/
  | imageVerifyDone
  /-- OFFER_STAGED (R432): the open offer's last byte is staged; `image` is a forwarded offer's. -/
  | offerStaged (image : Bytes)
  /-- FORWARDED_OFFER_ARRIVAL (R433): an offer's header arrives on an Ernos port. -/
  | forwardedOfferArrival (port : Fin 2) (header : Bytes)
  /-- OFFER_OUTCOME_REPORT (R433): devices beyond a port report: how many received the offer, how many installed it, and whether none is left to report. -/
  | offerOutcomeReport (port : Fin 2) (reached installed : Nat) (last : Bool)
  /-- HANDOVER (R436). -/
  | handover
  /-- ADMISSION_RESUME (R435): `crcBad`: the handover record failed its CRC; `parity`: the scan of the previous slot found an error. -/
  | admissionResume (crcBad parity : Bool)
  /-- PROBATION_EXPIRY (R438). -/
  | probationExpiry
  /-- CORE_EXCEPTION (R438). -/
  | coreException
  /-- IMAGE_CONFIRMED (R438). -/
  | imageConfirmed
  /-- COMPAT_WRITE (R449): a write of `v` to GLOBAL_COMPAT. -/
  | compatWrite (v : Word)
  /-- OWNER_LOCK (R431): a write of `v` to GLOBAL_OWNER_LOCK. -/
  | ownerLock (v : Word)
  /-- LEDGER_SECOND (R444). -/
  | ledgerSecond
  /-- LEDGER_BURN_START (R446). -/
  | ledgerBurnStart
  /-- LEDGER_BURN_DONE (R446): `ok` says that the bit verified. -/
  | ledgerBurnDone (ok : Bool)
  /-- THERMAL_SAMPLE (R462): the 36 sensors' readings in 1/64 °C and both stacks' temperatures in °C. -/
  | thermalSample (temps : List Int) (hbm0 hbm1 : Int)
  /-- THERMAL_EMERGENCY (R463): the comparators read junction temperature `tj` in 1/64 °C at sensor `sensor`, and the stacks' temperatures in °C. -/
  | thermalEmergency (tj : Int) (sensor : Fin 36) (hbm0 hbm1 : Int)
  /-- SUPPLY_WARNING (R465): from the pin (source 0), which stays low for `x` ticks, or from rail `source - 1`, whose monitor reads `x` mV. -/
  | supplyWarning (source : Fin 12) (x : Nat)
  /-- SUPPLY_MARGIN (R464): the monitor of rail `rail` reads `mv` mV. -/
  | supplyMargin (rail : Fin 11) (mv : Nat)
  /-- SUPPLY_WARN_RELEASE (R466). -/
  | supplyWarnRelease
  /-- POWER_MEASURE (R459): a 1 ms average of module power in 0.1 W, and the rails' voltages in mV and currents in mA. -/
  | powerMeasure (p : Nat) (rails : List (Nat × Nat))
  /-- WARMUP_END (R470). -/
  | warmupEnd
  /-- READY_SET (R470). -/
  | readySet
  /-- INVALID_KIND (R49): the decision of a descriptor whose KIND is not in the table. -/
  | invalidKind
  /-- TIME_WRAP (R259): group `g`'s measurement reaches t_g + 2^47 ticks. -/
  | timeWrap (g : Fin 32)
  /-- COMMAND_SLOT (R369): a slot of a pseudo-channel; the banks whose timing allows no command, and the random draw of R367. -/
  | commandSlot (pc : Fin 64) (blocked : List (Fin 48)) (draw : Fin 65536)
  /-- SNAPSHOT_INSTANT (R186): T_s of the AFTERGLOW_READ `sq`, `tag`. -/
  | snapshotInstant (sq : Fin 64) (tag : BitVec 16)
  /-- REPORT_DEADLINE (R441): `silent` devices received the offer and have not reported. -/
  | reportDeadline (silent : Nat)
  /-- SIDEBAND_MESSAGE (R396): a member receives the head's discovery (its index and hops), time (its head delay and measured error) or step message (instant in its own device time, offset). -/
  | sidebandMessage (kind : Fin 3) (index : Fin 32) (hops : Fin 32) (headDelay t : Nat) (delta : Int)
  /-- ZERO_LENGTH_READ_DONE (R33): the zero-length read of the job `sq`, `tag` completes. -/
  | zeroLengthReadDone (sq : Fin 64) (tag : BitVec 16)
  /-- LINK_TRAINING_DONE (R35): the link trains after reset, bifurcated or not. -/
  | linkTrainingDone (bifurcated secondaryUp : Bool) (speed width : Nat) (flit : Bool)
deriving DecidableEq, Repr

end Sys2Proof
end

