-- ==== Sys2Proof/Decode.lean ====
section
/-! DEFINITION. Decode.lean: the command that a word spells by the bits of spec/opcode_table.json.
Every row's list of fields is empty: the commands are events of the block, and none has an encoding (DEDUCED,
assumption 2). -/
namespace Sys2Proof

/-- The command that an `nbits`-bit word `w` spells: none, as the table gives no row any bits. -/
def decodeTableWord (nbits w : Nat) : Option Instr :=
  match nbits, w with
  | _, _ => none

end Sys2Proof
end

