-- ==== Sys2Proof/Config.lean ====
section
/-! DEFINITION. Config.lean: the free values. Each is a constant without a body, so nothing can be proved of what it
holds: a statement that meets one holds for every value. An index is the state's count of free values taken
(`State.freeCtr`) or the place that the value stands at. -/
namespace Sys2Proof

/-- A number that the spec leaves undefined or does not state; the reader cuts it to the width it needs. -/
opaque Config.freeNat : Nat → Nat

/-- The byte at an address of a memory whose contents the spec calls undefined: the fill's number, and the address. -/
opaque Config.freeByte : Nat → Nat → BitVec 8

/-- A floating-point or fixed-point result that the spec does not fix to the bit, as a function of the operands' bits
and of a number that names the operation. -/
opaque Config.arith : Nat → List Nat → Nat

/-- The factory region of the life ledger, by byte (R443): the spec does not give its contents. -/
opaque Config.factory : Nat → BitVec 8

/-- Whether a digest and a pair r, s form a valid ECDSA P-384 signature under the key in the boot ROM (R429), which the
spec does not print. -/
opaque Config.signature : List (BitVec 8) → List (BitVec 8) → Bool

end Sys2Proof
end

