-- ==== Sys2Proof/Machine/Num.lean ====
section
/-! DEFINITION. Machine/Num.lean: byte order, saturating counts, non-negative fractions and the time units.
Multi-byte values are little-endian (R9); event counters are 32 bits and saturate (R16); one tick is 2^-16 ns (R5). -/
namespace Sys2Proof.Machine

/-- The `n` little-endian bytes of `v` (R9). -/
def leBytes : Nat → Nat → Bytes
  | 0, _ => []
  | n + 1, v => BitVec.ofNat 8 v :: leBytes n (v / 256)

/-- The little-endian value of a run of bytes (R9). -/
def leNat : Bytes → Nat
  | [] => 0
  | b :: bs => b.toNat + 256 * leNat bs

/-- The little-endian value of the `n` bytes at offset `o` of a host-memory block; bytes beyond its end read as 0. -/
def fieldAt (bs : Bytes) (o n : Nat) : Nat := leNat ((bs.drop o).take n)

/-- Bits `hi` to `lo` of the `n`-byte field at offset `o`. -/
def bitsAt (bs : Bytes) (o n hi lo : Nat) : Nat := fieldAt bs o n / 2 ^ lo % 2 ^ (hi + 1 - lo)

/-- `n` zero bytes. -/
def zeros (n : Nat) : Bytes := List.replicate n 0

/-- Whether every byte of the run is zero. -/
def allZero (bs : Bytes) : Bool := bs.all (fun b => b == 0)

/-- Bits `hi` to `lo` of a number. -/
def bits (v hi lo : Nat) : Nat := v / 2 ^ lo % 2 ^ (hi + 1 - lo)

/-- Bit `i` of a number. -/
def bit (v i : Nat) : Bool := v / 2 ^ i % 2 = 1

/-- A condition as the number 0 or 1. -/
def b2n (b : Bool) : Nat := if b then 1 else 0

/-- The sum `v + n`, held at `2^w - 1` (R16). -/
def satAdd (w v n : Nat) : Nat := min (v + n) (2 ^ w - 1)

/-- The two's-complement value of the low `w` bits of `v`. -/
def sgn (w v : Nat) : Int := if v % 2 ^ w < 2 ^ (w - 1) then (v % 2 ^ w : Nat) else (v % 2 ^ w : Nat) - (2 ^ w : Nat)

/-- The low `w` bits of an integer in two's complement. -/
def unsg (w : Nat) (v : Int) : Nat := (v % (2 ^ w : Nat)).toNat

/-- The integer `v`, held within `lo` to `hi`. -/
def clampI (lo hi v : Int) : Int := if v < lo then lo else if hi < v then hi else v

/-- The quotient rounded up; 0 for a zero divisor. -/
def ceilDiv (a b : Nat) : Nat := if b = 0 then 0 else (a + b - 1) / b

/-- The next multiple of `m` at or above `a`. -/
def roundUp (a m : Nat) : Nat := ceilDiv a m * m

/-- The sum of a list of numbers. -/
def sumL (l : List Nat) : Nat := l.foldl (· + ·) 0

/-- The largest of a list of numbers, 0 where it is empty. -/
def maxL (l : List Nat) : Nat := l.foldl max 0

/-- How many members of a list satisfy a test. -/
def countP {α : Type} (p : α → Bool) (l : List α) : Nat := (l.filter p).length

/-- A non-negative fraction `num / den`, with `den > 0`. -/
structure Q where
  num : Nat
  den : Nat
deriving DecidableEq, Repr

/-- A whole number as a fraction. -/
def Q.of (n : Nat) : Q := ⟨n, 1⟩

/-- The sum of two fractions. -/
def Q.add (a b : Q) : Q := ⟨a.num * b.den + b.num * a.den, a.den * b.den⟩

/-- The product of two fractions. -/
def Q.mul (a b : Q) : Q := ⟨a.num * b.num, a.den * b.den⟩

/-- A fraction rounded up to a whole number. -/
def Q.ceil (a : Q) : Nat := ceilDiv a.num a.den

/-- A fraction rounded down to a whole number. -/
def Q.floor (a : Q) : Nat := a.num / a.den

/-- Whether `a ≤ b`. -/
def Q.le (a b : Q) : Bool := decide (a.num * b.den ≤ b.num * a.den)

/-- The larger of two fractions. -/
def Q.max (a b : Q) : Q := if a.le b then b else a

/-- Ticks of one nanosecond (R5). -/
def tickNs : Nat := 65536

/-- Ticks of one microsecond. -/
def tickUs : Nat := 65536000

/-- Ticks of one millisecond. -/
def tickMs : Nat := 65536000000

/-- Ticks of one second. -/
def tickS : Nat := 65536000000000

/-- Ticks of one SCLK or TCLK cycle, 500 ps (R5, R27). -/
def cycle : Nat := 32768

/-- An instant moved by whole cycles. -/
def byCycles (d : Int) (t : Nat) : Nat := ((t : Int) + d).toNat

end Sys2Proof.Machine
end

