-- ==== Sys2Proof/Machine/Float.lean ====
section
/-! DEFINITION. Machine/Float.lean: IEEE 754 binary32 and binary64 as bit patterns: exact values and rounding to nearest
even, for the results that the rules compute in floating point. -/
namespace Sys2Proof.Machine

/-- `n / d` rounded to the nearest whole number, ties to even; `d` is positive. -/
def roundEven (n d : Nat) : Nat :=
  let q := n / d
  let r := n % d
  if 2 * r < d then q else if d < 2 * r then q + 1 else q + q % 2

/-- `n / d` rounded to the nearest whole number, ties to even, for an integer. -/
def roundEvenI (n : Int) (d : Nat) : Int :=
  if 0 ≤ n then (roundEven n.toNat d : Nat) else -((roundEven (-n).toNat d : Nat) : Int)

/-- The floor of the base-2 logarithm of `n / d`, both positive. -/
def logRatio (n d : Nat) : Int :=
  let k : Int := (n.log2 : Int) - (d.log2 : Int)
  let ge := if 0 ≤ k then decide (d * 2 ^ k.toNat ≤ n) else decide (d ≤ n * 2 ^ (-k).toNat)
  if ge then k else k - 1

/-- The magnitude `n / d` as a binary floating-point pattern of `p` significand bits and `w` exponent bits, rounded to
nearest even; overflow gives infinity. -/
def roundMag (p w n d : Nat) : Nat :=
  if n = 0 then 0 else
  let emin : Int := 2 - (2 ^ (w - 1) : Nat)
  let k := logRatio n d
  let e := if k < emin then emin else k
  let s : Int := e - ((p : Int) - 1)
  let q := if 0 ≤ s then roundEven n (d * 2 ^ s.toNat) else roundEven (n * 2 ^ (-s).toNat) d
  let b := (e - emin).toNat * 2 ^ (p - 1) + q
  min b ((2 ^ w - 1) * 2 ^ (p - 1))

/-- A rational number as a floating-point pattern with its sign bit. -/
def roundBin (p w : Nat) (n : Int) (d : Nat) : Nat :=
  if 0 ≤ n then roundMag p w n.toNat d else 2 ^ (p + w - 1) + roundMag p w (-n).toNat d

/-- A rational number as binary32, and as binary64. -/
def toBin32 (n : Int) (d : Nat) : Nat := roundBin 24 8 n d
def toBin64 (n : Int) (d : Nat) : Nat := roundBin 53 11 n d

/-- The quiet NaN 0x7FC0_0000. -/
def nan32 : Nat := 0x7FC00000

/-- The exact value of a finite pattern as a numerator and a positive denominator; none for an infinity or a NaN. -/
def binVal (p w v : Nat) : Option (Int × Nat) :=
  let m := v % 2 ^ (p - 1)
  let e := v / 2 ^ (p - 1) % 2 ^ w
  if e = 2 ^ w - 1 then none else
  let mag := if e = 0 then m else m + 2 ^ (p - 1)
  let x : Int := (max e 1 : Nat) - (2 ^ (w - 1) : Nat) - (p : Int) + 2
  let sg : Int := if v / 2 ^ (p + w - 1) % 2 = 1 then -1 else 1
  some (if 0 ≤ x then (sg * ((mag * 2 ^ x.toNat : Nat) : Int), 1) else (sg * (mag : Int), 2 ^ (-x).toNat))

/-- The exact value of a finite binary32. -/
def val32 (v : Nat) : Option (Int × Nat) := binVal 24 8 v

/-- Whether a binary32 pattern is a NaN. -/
def isNan32 (v : Nat) : Bool := decide (v / 2 ^ 23 % 256 = 255 ∧ v % 2 ^ 23 ≠ 0)

end Sys2Proof.Machine
end

