-- ==== Sys2Proof/Machine/Recon.lean ====
section
/-! DEFINITION. Machine/Recon.lean: thresholds in codes (R109, R110) and the placement of an analogue crossing: the
16-sample reconstruction under a Kaiser window in fixed point (R114), and linear placement (R115). -/
namespace Sys2Proof.Machine

/-- A fraction of integers rounded to the nearest whole number, ties away from zero; `d` is positive. -/
def roundAway (n d : Int) : Int :=
  if 0 ≤ n then (2 * n + d) / (2 * d) else -((2 * (-n) + d) / (2 * d))

/-- RANGE in µV (R75, R104). -/
def rangeUv (r : Nat) : Int := [250000, 400000, 600000, 800000].getD r 800000

/-- A level in µV as a threshold in 1/16 code, before clamping (R109). `fine` and `off` are the raw register fields. -/
def levelRaw (lvl : Int) (range fine off : Nat) : Int :=
  let g := 204800 + 6 * sgn 12 fine
  let d := 204800 * rangeUv range
  roundAway (lvl * 1024 * g * 16 + sgn 14 off * d) d

/-- The threshold, clamped to -511 to +510 (R110). -/
def levelCode (lvl : Int) (range fine off : Nat) : Int := clampI (-511 * 16) (510 * 16) (levelRaw lvl range fine off)

/-- Whether R110 clamps the threshold. -/
def levelClamped (lvl : Int) (range fine off : Nat) : Bool :=
  levelCode lvl range fine off != levelRaw lvl range fine off

/-- A hysteresis in µV in 1/16 code (R109). -/
def hystCode (h : Nat) (range fine : Nat) : Int :=
  roundAway ((h : Int) * 1024 * (204800 + 6 * sgn 12 fine) * 16) (204800 * rangeUv range)

/-- The unit of the fixed-point numbers, 2^48. -/
def fixOne : Int := 281474976710656

/-- π in units of 2^-48. -/
def fixPi : Int := 884279719003555

/-- The sum of `n` further terms of the sine series: `term` is the present term, `y2` the square of the angle. -/
def sinTerms (y2 : Int) : Nat → Nat → Int → Int
  | 0, _, _ => 0
  | n + 1, k, term => term + sinTerms y2 n (k + 1) (-(term * y2 / fixOne) / ((2 * k + 2) * (2 * k + 3) : Nat))

/-- sin(π m / T) for 0 ≤ m ≤ T, in units of 2^-48. -/
def fixSin (m T : Nat) : Int :=
  let m' := if 2 * m ≤ T then m else T - m
  let y := fixPi * (m' : Int) / (T : Int)
  sinTerms (y * y / fixOne) 14 0 y

/-- The sum of `n` further terms of the series of I0 in q = z²/4: `term` is q^k / (k!)². -/
def i0Terms (q : Int) : Nat → Nat → Int → Int
  | 0, _, _ => 0
  | n + 1, k, term => term + i0Terms q n (k + 1) (term * q / fixOne / ((k + 1) * (k + 1) : Nat))

/-- I0(z) for q = z²/4, in units of 2^-48. -/
def fixI0 (q : Int) : Int := i0Terms q 22 0 fixOne

/-- The Kaiser window's numerator I0(β √(1 - (u/8)²)) with β = 5 at a distance of `d` ticks for sample spacing `T`. -/
def kaiser (d : Int) (T : Nat) : Int :=
  let t2 := 64 * (T : Int) * (T : Int)
  fixI0 (25 * fixOne * (t2 - d * d) / (4 * t2))

/-- The reconstruction at `m` ticks after sample k - 1, times I0(5), in units of 2^-96 code: the sum over the 16 codes
from sample k - 8 (`j` = 0) to k + 7 (R114). -/
def reconSum (m T : Nat) (s : Int) : Nat → List Int → Int
  | _, [] => 0
  | j, x :: xs =>
    let d : Int := (m : Int) + (7 - (j : Int)) * (T : Int)
    let sinc : Int := if d = 0 then fixOne
      else (if j % 2 = 1 then s else -s) * (T : Int) * fixOne / (fixPi * d)
    x * (sinc * kaiser d T) + reconSum m T s (j + 1) xs

/-- Whether the reconstruction has reached threshold `c16` (1/16 code) at tick `m`. -/
def reached (codes : List Int) (c16 : Int) (rise : Bool) (T m : Nat) : Bool :=
  let x := 16 * reconSum m T (fixSin m T) 0 codes
  let c := c16 * fixOne * fixI0 (25 * fixOne / 4)
  if rise then decide (c ≤ x) else decide (x ≤ c)

/-- The earliest tick from `m` on, at most `n` later, at which the threshold is reached. -/
def firstReach (codes : List Int) (c16 : Int) (rise : Bool) (T : Nat) : Nat → Nat → Nat
  | 0, m => m
  | n + 1, m => if reached codes c16 rise T m then m else firstReach codes c16 rise T n (m + 1)

/-- Sinc placement: ticks after sample k - 1, from the 16 codes k - 8 to k + 7 (R114). -/
def sincPlace (codes : List Int) (c16 : Int) (rise : Bool) (T : Nat) : Nat := firstReach codes c16 rise T T 0

/-- Linear placement: ticks after sample k - 1, the fraction held within 0 to 1, rounded to the nearest tick with ties to
the later one (R115). -/
def linearPlace (x0 x1 : Int) (c16 : Int) (T : Nat) : Nat :=
  let n := (c16 - 16 * x0) * (if x1 < x0 then -1 else 1)
  let d := 16 * (if x1 < x0 then x0 - x1 else x1 - x0)
  if n ≤ 0 then 0 else if d ≤ n then T
  else ((2 * n * (T : Int) + d) / (2 * d)).toNat

end Sys2Proof.Machine
end

