-- ==== Sys2Proof/Machine/KMap.lean ====
section
/-! DEFINITION. Machine/KMap.lean: sparse data by key, in one canonical form.
A `KMap α` is a list of (key, value) pairs with strictly rising keys; a key that is not listed reads as a default.
The operation `kset` keeps the form: writing the default removes the entry, so equal contents are equal lists. -/
namespace Sys2Proof.Machine

/-- Sparse data by key. `KMap Byte` is a list of `Host.Cell`. -/
abbrev KMap (α : Type) := List (Nat × α)

/-- The value at key `k`, or `d` where `k` is not listed. -/
def kget {α : Type} : KMap α → Nat → α → α
  | [], _, d => d
  | (k', v) :: r, k, d => if k' = k then v else kget r k d

/-- The value at key `k`, if listed. -/
def kfind {α : Type} : KMap α → Nat → Option α
  | [], _ => none
  | (k', v) :: r, k => if k' = k then some v else kfind r k

/-- Lists `v` at key `k`, keeping the keys rising. -/
def kput {α : Type} : KMap α → Nat → α → KMap α
  | [], k, v => [(k, v)]
  | (k', v') :: r, k, v =>
    if k < k' then (k, v) :: (k', v') :: r
    else if k = k' then (k, v) :: r
    else (k', v') :: kput r k v

/-- Removes every entry of key `k`. -/
def kerase {α : Type} : KMap α → Nat → KMap α
  | [], _ => []
  | (k', v') :: r, k => if k = k' then kerase r k else (k', v') :: kerase r k

/-- Writes `v` at key `k`, where an unlisted `k` reads as `d`: the canonical write. -/
def kset {α : Type} [DecidableEq α] (m : KMap α) (k : Nat) (v d : α) : KMap α :=
  if v = d then kerase m k else kput m k v

/-- Every key of `m` is above `lo`, keys rise strictly, and no entry equals the default of its key. -/
def kwfFrom {α : Type} [DecidableEq α] (d : Nat → α) : Nat → KMap α → Bool
  | _, [] => true
  | lo, (k, v) :: r => decide (lo ≤ k) && decide (v ≠ d k) && kwfFrom d (k + 1) r

/-- The canonical form: strictly rising keys and no entry equal to what its key reads as unlisted. -/
def kwf {α : Type} [DecidableEq α] (d : Nat → α) (m : KMap α) : Bool := kwfFrom d 0 m

/-- Removes every entry with a key from `lo` up to but not including `hi`. -/
def kclear {α : Type} : KMap α → Nat → Nat → KMap α
  | [], _, _ => []
  | (k, v) :: r, lo, hi => if lo ≤ k ∧ k < hi then kclear r lo hi else (k, v) :: kclear r lo hi

/-- `n` values read at consecutive keys from `k`. -/
def kread {α : Type} (m : KMap α) (d : α) : Nat → Nat → List α
  | _, 0 => []
  | k, n + 1 => kget m k d :: kread m d (k + 1) n

/-- The values of `vs` written at consecutive keys from `k`. -/
def kwrite {α : Type} [DecidableEq α] (d : α) : KMap α → Nat → List α → KMap α
  | m, _, [] => m
  | m, k, v :: vs => kwrite d (kset m k v d) (k + 1) vs

/-- An addressed memory of the block: `Host.Cell`s in one canonical form. What an unlisted address reads as stands beside
each memory (`State.poolFill`, `State.hbmFill`; 0 for the mailbox and the mask). -/
abbrev Memory := KMap Byte

/-- The canonical form of a memory whose unlisted addresses read as `dflt` says. -/
def Memory.wf (dflt : Nat → Byte) (m : Memory) : Bool := kwf dflt m

end Sys2Proof.Machine
end

