-- ==== Sys2Proof/Machine/StHost.lean ====
section
/-! DEFINITION. Machine/StHost.lean: the state of the host link, the rings, the job table and the mover channels, as
plain data ("Jobs, rings and the delivery promise", "Data movers"). -/
namespace Sys2Proof.Machine

/-- What the block does that its surroundings can see, oldest first in `State.out`. -/
inductive Output where
  /-- A posted write to host memory: the address and the bytes (R52, R45, R343). -/
  | hostWrite (addr : Nat) (data : Bytes)
  /-- A read request to host memory (R41, R43, R343). -/
  | hostRead (addr : Nat) (len : Nat)
  /-- The zero-length read on the secondary link (R33). -/
  | zeroRead
  /-- An MSI-X message: the vector, its message address and its data (R71, R72). -/
  | msix (vector : Nat) (addr : Nat) (data : Nat)
  /-- The word that a register read returns. -/
  | readData (addr : Nat) (w : Word)
  /-- A trigger-line event sent on an Ernos line, with its stamp (R127). -/
  | trigLine (line : Nat) (stamp : Nat)
  /-- A probe emission on a Beacon output: output, slot, emission stamp (R196). -/
  | probe (b : Nat) (slot : Nat) (stamp : Nat)
  /-- A marker edge: marker, level, stamp (R197). -/
  | marker (mk : Nat) (level : Bool) (stamp : Nat)
  /-- A block of bytes sent on an Ernos port: port (0 up, 1 down), tag, bytes. -/
  | ernos (port : Nat) (tag : String) (data : List Nat)
  /-- A new level of a named pin. -/
  | pin (name : String) (level : Int)
deriving DecidableEq, Repr

/-- A submission ring (R39-R46, R74). -/
structure SqRing where
  /-- HOST_SQ_BASE. -/
  base : Nat := 0
  /-- HOST_SQ_CTRL.CQ. -/
  cq : Nat := 0
  /-- HOST_SQ_CTRL.POLL_CLASS. -/
  pollClass : Nat := 0
  /-- HOST_SQ_CTRL.SIZE_LOG2 as written. -/
  sizeLog2 : Nat := 4
  /-- HOST_SQ_CTRL.ENABLE. -/
  enable : Bool := false
  /-- HOST_SQ_HEAD, a free-running 32-bit count. -/
  head : Nat := 0
  /-- The tail count last read from the doorbell page (R41). -/
  tail : Nat := 0
  /-- The ring waits at a slot with OWN = 0 until its next poll (R44). -/
  waiting : Bool := false
  /-- A non-ABORT slot was met with only ABORT entries free (R46). -/
  blocked : Bool := false
  /-- HOST_SQ_STAT.DISABLED. -/
  disabled : Bool := false
  /-- HOST_SQ_STAT.OWN_WAIT. -/
  ownWait : Bool := false
  /-- HOST_SQ_STAT.BAD_TAIL. -/
  badTail : Bool := false
deriving DecidableEq, Repr

/-- A completion record that is to be written (R51): its job, phase and the fields fixed before its issue. -/
structure Rec where
  jid : Nat
  /-- PHASE: false for the admission record, true for the final record. -/
  final : Bool
  status : Nat
  detail : Nat
  boundUs : Nat
  /-- Signal the ring's vector at once (R72, R348). -/
  irq : Bool
deriving DecidableEq, Repr

/-- A completion ring (R51, R52, R67, R72, R74, R481). The write phase is the parity of the pass, `tail / size`. -/
structure CqRing where
  base : Nat := 0
  vector : Nat := 0
  sizeLog2 : Nat := 4
  enable : Bool := false
  /-- HOST_CQ_COAL.TIME. -/
  coalTime : Nat := 0
  /-- HOST_CQ_COAL.COUNT. -/
  coalCount : Nat := 1
  /-- HOST_CQ_TAIL, records written. -/
  tail : Nat := 0
  /-- The last valid head word (R481). -/
  head : Nat := 0
  /-- The last head word read was not valid (R481). -/
  headBad : Bool := false
  /-- HOST_CQ_STAT.BAD_HEAD. -/
  badHead : Bool := false
  /-- HOST_CQ_STAT.FULL_STALL. -/
  fullStall : Bool := false
  /-- Records written since the last signal (R72). -/
  since : Nat := 0
  /-- When the oldest record not yet signalled was written (R72). -/
  oldest : Option Nat := none
  /-- Records held back by the host, oldest first (R67). -/
  held : List Rec := []
deriving DecidableEq, Repr

/-- The event ring (R73, R481). -/
structure EvRing where
  tail : Nat := 0
  head : Nat := 0
  headBad : Bool := false
  /-- Events lost since the last EVQ_OVERFLOW event. -/
  lostSince : Nat := 0
deriving DecidableEq, Repr

/-- The three uses of an analogue input (R23). -/
inductive Use where
  | record | glimmer | ftemp
deriving DecidableEq, Repr

/-- What a job owns beside its accounts (R58, account 0x02). -/
inductive Claim where
  /-- Analogue input `n` for one use (R23). -/
  | input (n : Nat) (u : Use)
  /-- Beacon output `b` (R198). -/
  | beacon (b : Nat)
  /-- Glint group `g` (R257). -/
  | group (g : Nat)
  /-- Glint input `n`, borrowed or owned (R257). -/
  | glint (n : Nat)
  /-- Lumen tile `t`. -/
  | tile (t : Nat)
  /-- The AMU sequence (R418). -/
  | amuSeq
  /-- The stream that a MOVE follows, by its job (R354). -/
  | follow (jid : Nat)
deriving DecidableEq, Repr

/-- What a job reserves in the accounts of R58. Bandwidths are in 10 MB/s, space in MiB and pages, power in 0.1 W. -/
structure Demand where
  claims : List Claim := []
  store0 : Nat := 0
  store1 : Nat := 0
  /-- Pool pages. -/
  pool : Nat := 0
  hbm0 : Nat := 0
  hbm1 : Nat := 0
  xab : Nat := 0
  xba : Nat := 0
  /-- Device-to-host share on the primary link. -/
  d2h : Nat := 0
  /-- Device-to-host share on the secondary link (R36). -/
  d2hSec : Nat := 0
  h2d : Nat := 0
  h2dSec : Nat := 0
  /-- Mover channels held, each with its charge (R336, account 0x0B). -/
  movers : List (Nat × Nat) := []
  power : Nat := 0
deriving DecidableEq, Repr

/-- One element of a job's transfer (R338). -/
inductive Elem where
  /-- On-die bytes to host memory at `addr`. -/
  | toHost (addr : Nat) (data : Bytes)
  /-- `len` bytes of host memory at `addr` into the owning block. -/
  | fromHost (addr : Nat) (len : Nat)
  /-- Element `idx` of a MOVE list (R352). -/
  | move (idx : Nat) (src dst len : Nat)
  /-- Up to `len` bytes of the job's producer to host memory at `addr` (R346). -/
  | produced (addr : Nat) (len : Nat)
  /-- A slot of a host frame ring at `addr`, written in the order of R218; `note` names what its end releases. -/
  | frame (addr : Nat) (data : Bytes) (note : Nat)
  /-- `len` bytes from offset `off` of one part of a SEGMENT_READ's entry `ent`: its data (0), its table entry (1) or its
  word map (2), to host memory at `addr` (R168). -/
  | seg (addr len ent part off : Nat)
deriving DecidableEq, Repr

/-- One job of the job table (R46, R54). Times are in ticks of `State.phys`. -/
structure Job where
  jid : Nat
  sq : Nat
  /-- The completion ring selected at pickup (R54). -/
  cq : Nat
  /-- The 64 descriptor bytes (R47). -/
  desc : Bytes
  /-- Whether the job sits in one of the 16 ABORT-only entries (R46). -/
  abortEntry : Bool := false
  /-- Whether the admission decision has been made; an undecided job is in the fetch window (R43). -/
  decided : Bool := false
  admitted : Bool := false
  /-- When it was picked up (R43). -/
  pickup : Nat := 0
  /-- When it was admitted (R61). -/
  admitAt : Nat := 0
  demand : Demand := {}
  /-- The shares granted, both links together (R53, R59). -/
  grantD2h : Nat := 0
  grantH2d : Nat := 0
  /-- The delivery bound in µs (R64). -/
  bound : Nat := 0
  /-- The declared duration D in ticks; none is infinite (R58, R61). -/
  dur : Option Nat := none
  /-- The anchor (R65), once it has passed. -/
  anchor : Option Nat := none
  /-- The stretches since pickup in which the host held its ring's records back, newest first: start and end (R67). -/
  stalls : List (Nat × Nat) := []
  /-- DELIVERED (R51). -/
  delivered : Nat := 0
  /-- RESIDUE (R51). -/
  residue : Nat := 0
  /-- Reasons for the final STATUS, in the order of R56. -/
  fStopped : Bool := false
  fAddress : Bool := false
  fIntegrity : Bool := false
  fClock : Bool := false
  fAborted : Bool := false
  fPartial : Bool := false
  fFlagged : Bool := false
  /-- A final status that the KIND's chapter names in place of R56's (R479). -/
  special : Option Nat := none
  /-- The final DETAIL word. -/
  detail : Nat := 0
  /-- The work is complete and the final record is due (R55). -/
  ending : Bool := false
  /-- Data moved over the secondary link (R33). -/
  secondary : Bool := false
  /-- A zero-length read is outstanding (R33). -/
  zeroRead : Bool := false
  /-- The final record has been handed to its ring. -/
  finalSent : Bool := false
  /-- Elements not yet started, by mover channel, oldest first (R338). -/
  elems : List (Nat × Elem) := []
  /-- Elements cut so far, ended so far. -/
  elemsDone : Nat := 0
  /-- Bytes that the job's producer holds (R346), whether it has closed, its last addition and its flush mark. -/
  produced : Bytes := []
  prodClosed : Bool := false
  prodFlush : Bool := false
  /-- When the producer last added bytes. -/
  prodAt : Nat := 0
  /-- Stored bytes among `produced` that follow a break (R353, R356): offsets from its start. -/
  prodBreaks : List Nat := []
  /-- Following a stream starts at the first stored sample at or after this full device time (R351). -/
  followT : Nat := 0
  /-- The job's work is complete when its last element has ended. -/
  autoEnd : Bool := false
  /-- The CODE that elements in progress end with: 0 none, 3 ABORTED, 5 STOPPED (R348, R349). -/
  cut : Nat := 0
  /-- Data taken from host memory for the owning block, in order. -/
  taken : Bytes := []
  /-- A MOVE's flags: padded, damaged, break, short (R356). -/
  mvPad : Bool := false
  mvDamaged : Bool := false
  mvBreak : Bool := false
  mvShort : Bool := false
  /-- The jobs that an ABORT ended, whose final records come before its own (R70). -/
  waits : List Nat := []
deriving DecidableEq, Repr

/-- The states of a mover channel (R337). -/
inductive ChState where
  | free | held | ready | active
deriving DecidableEq, Repr

/-- One mover channel (R337, R339). -/
structure Chan where
  st : ChState := .free
  jid : Nat := 0
  /-- The reserved mover rate R, in 10 MB/s (R339). -/
  rate : Nat := 0
  /-- The credit in units of 1/6,553,600 byte, as of `creditAt` (R339). -/
  credit : Int := 0
  creditAt : Nat := 0
  /-- The byte count fixed when the element became READY (R346). -/
  count : Nat := 0
  readyAt : Nat := 0
  /-- The element that is READY or ACTIVE. -/
  cur : Option Elem := none
deriving DecidableEq, Repr

/-- The host interface: link, polling, fetching, rings and jobs. -/
structure HostSt where
  /-- READY has set since the last reset, so fetching may start (R74). -/
  started : Bool := false
  /-- Posted-write credit is granted on the primary link (R67). -/
  credit : Bool := true
  /-- Per poll class: a poll is in progress (bit c). -/
  pollBusy : KMap Bool := []
  /-- Per poll class: one further poll follows the current one (R42). -/
  pollAgain : KMap Bool := []
  /-- The last doorbell page read failed (R480). -/
  pageBad : Bool := false
  /-- The class served last, and the ring served last in each class (R43). -/
  lastClass : Nat := 3
  lastRing : KMap Nat := []
  /-- The ring whose turn it is and how many descriptors it may still take (R43). -/
  turn : Option (Nat × Nat) := none
  /-- The ring of the outstanding descriptor read (R43). -/
  fetch : Option Nat := none
  sqs : KMap SqRing := []
  cqs : KMap CqRing := []
  evq : EvRing := {}
  /-- Every job from pickup to its final record, in pickup order (R46). -/
  jobs : List Job := []
  nextJid : Nat := 1
  chans : KMap Chan := []
  /-- Reservations that outlive their job: held captures and streams (R136) and retained tile images (R313), each under
  the identifier of the job that made it. -/
  kept : List (Nat × Demand) := []
  /-- The Glare bucket in 0.1 W ticks (R60). -/
  bucket : Nat := 15000 * tickS
  /-- P_res when the thermal warning began (R62). -/
  thermLimit : Option Nat := none
  /-- An Eclipse handover freezes admission (R57, R435). -/
  frozen : Bool := false
deriving DecidableEq, Repr

end Sys2Proof.Machine
end

