-- ==== Sys2Proof/Machine/RegMap.lean ====
section
/-! DEFINITION. Machine/RegMap.lean: the register map of BAR0, row by row from the register tables of the spec's
chapters (R1, R74, R104, R131, R170, R189, R229, R249, R277, R318, R334, R357, R378, R400, R425, R451, R452, R477,
R478), at the block bases of R30. A repeated register is one row with its strides.
`R.<NAME>` is a register's row; `F.<NAME>_<FIELD>` is one field of it, for the operations that read and write fields. -/
namespace Sys2Proof.Machine

/-- The access types of R13. -/
inductive Acc where
  | rw | ro | wo | w1c | w1s | rws
deriving DecidableEq, Repr

/-- One field of a register row: bits `hi` to `lo` and its access type (R13). -/
structure FieldDef where
  name : String
  hi : Nat
  lo : Nat
  acc : Acc
deriving DecidableEq, Repr

/-- One register row: address `base + i * s1 + j * s2` for `i < n1`, `j < n2`; `rsts` lists the reset word by `j`. -/
structure RegDef where
  name : String
  base : Nat
  n1 : Nat
  s1 : Nat
  n2 : Nat
  s2 : Nat
  rsts : List Nat
  fields : List FieldDef
deriving DecidableEq, Repr

/-- A field as the operations use it: its register's address form and reset words, and its bits. -/
structure Fld where
  base : Nat
  s1 : Nat
  s2 : Nat
  rsts : List Nat
  hi : Nat
  lo : Nat
deriving DecidableEq, Repr


/-- GLOBAL_ID, R1. -/
def R.GLOBAL_ID : RegDef :=
  ⟨"GLOBAL_ID", 0, 1, 0, 1, 0, [0x940000A0],
   [⟨"PART", 31, 16, .ro⟩, ⟨"VARIANT", 15, 8, .ro⟩, ⟨"STEP_LETTER", 7, 4, .ro⟩, ⟨"STEP_NUMBER", 3, 0, .ro⟩]⟩

/-- GLOBAL_COMPAT, R451. -/
def R.GLOBAL_COMPAT : RegDef :=
  ⟨"GLOBAL_COMPAT", 0x10, 1, 0, 1, 0, [0x1000100],
   [⟨"NATIVE", 31, 16, .ro⟩, ⟨"LEVEL", 15, 0, .rw⟩]⟩

/-- GLOBAL_COMPAT_STAT, R451. -/
def R.GLOBAL_COMPAT_STAT : RegDef :=
  ⟨"GLOBAL_COMPAT_STAT", 0x14, 1, 0, 1, 0, [0],
   [⟨"REJ", 0, 0, .w1c⟩]⟩

/-- GLOBAL_OWNER_LOCK, R451. -/
def R.GLOBAL_OWNER_LOCK : RegDef :=
  ⟨"GLOBAL_OWNER_LOCK", 0x18, 1, 0, 1, 0, [0],
   [⟨"LOCK", 0, 0, .w1s⟩]⟩

/-- GLOBAL_LIFE, R451. -/
def R.GLOBAL_LIFE : RegDef :=
  ⟨"GLOBAL_LIFE", 0x1C, 1, 0, 1, 0, [0],
   [⟨"LIFE", 15, 0, .ro⟩]⟩

/-- GLOBAL_BOOT_CTRL, R451. -/
def R.GLOBAL_BOOT_CTRL : RegDef :=
  ⟨"GLOBAL_BOOT_CTRL", 0x40, 1, 0, 1, 0, [7],
   [⟨"SERVE", 2, 2, .rw⟩, ⟨"SRC_MASK", 1, 0, .rw⟩]⟩

/-- GLOBAL_BOOT_CMD, R451. -/
def R.GLOBAL_BOOT_CMD : RegDef :=
  ⟨"GLOBAL_BOOT_CMD", 0x44, 1, 0, 1, 0, [0],
   [⟨"GO", 31, 31, .wo⟩, ⟨"LEN", 20, 0, .wo⟩]⟩

/-- GLOBAL_BOOT_STAT, R451. -/
def R.GLOBAL_BOOT_STAT : RegDef :=
  ⟨"GLOBAL_BOOT_STAT", 0x48, 1, 0, 1, 0, [0],
   [⟨"REASON", 7, 4, .ro⟩, ⟨"STATE", 3, 0, .ro⟩]⟩

/-- GLOBAL_BOOT_SRC, R451. -/
def R.GLOBAL_BOOT_SRC : RegDef :=
  ⟨"GLOBAL_BOOT_SRC", 0x4C, 1, 0, 1, 0, [0],
   [⟨"SRC", 1, 0, .ro⟩]⟩

/-- GLOBAL_STATUS, R477. -/
def R.GLOBAL_STATUS : RegDef :=
  ⟨"GLOBAL_STATUS", 4, 1, 0, 1, 0, [0],
   [⟨"STAGE", 11, 8, .ro⟩, ⟨"STOPPED", 3, 3, .ro⟩, ⟨"IMAGE", 2, 2, .ro⟩, ⟨"DEGRADED", 1, 1, .ro⟩, ⟨"READY", 0, 0, .ro⟩]⟩

/-- GLOBAL_RESET, R477. -/
def R.GLOBAL_RESET : RegDef :=
  ⟨"GLOBAL_RESET", 8, 1, 0, 1, 0, [0],
   [⟨"KEY", 15, 8, .wo⟩, ⟨"WARM", 0, 0, .wo⟩]⟩

/-- GLOBAL_RESET_CAUSE, R477. -/
def R.GLOBAL_RESET_CAUSE : RegDef :=
  ⟨"GLOBAL_RESET_CAUSE", 0xC, 1, 0, 1, 0, [1],
   [⟨"REJ", 8, 8, .w1c⟩, ⟨"CAUSE", 3, 0, .ro⟩]⟩

/-- GLOBAL_READY_TIME, R477. -/
def R.GLOBAL_READY_TIME : RegDef :=
  ⟨"GLOBAL_READY_TIME", 0x20, 1, 0, 1, 0, [0],
   [⟨"US", 31, 0, .ro⟩]⟩

/-- HOST_CTRL, R74. -/
def R.HOST_CTRL : RegDef :=
  ⟨"HOST_CTRL", 0x100000, 1, 0, 1, 0, [2],
   [⟨"EVQ_EN", 2, 2, .rw⟩, ⟨"GLARE_EN", 1, 1, .rw⟩, ⟨"ENABLE", 0, 0, .rw⟩]⟩

/-- HOST_STATUS, R74. -/
def R.HOST_STATUS : RegDef :=
  ⟨"HOST_STATUS", 0x100004, 1, 0, 1, 0, [0],
   [⟨"INFLIGHT", 26, 16, .ro⟩, ⟨"THERM_HOLD", 2, 2, .ro⟩, ⟨"HANDOVER", 1, 1, .ro⟩, ⟨"FETCHING", 0, 0, .ro⟩]⟩

/-- HOST_LINK, R74. -/
def R.HOST_LINK : RegDef :=
  ⟨"HOST_LINK", 0x100008, 1, 0, 1, 0, [0],
   [⟨"SECONDARY_UP", 11, 11, .ro⟩, ⟨"BIFURCATED", 10, 10, .ro⟩, ⟨"FLIT", 9, 9, .ro⟩, ⟨"WIDTH", 8, 4, .ro⟩, ⟨"SPEED", 3, 0, .ro⟩]⟩

/-- HOST_D2H_CAP, R74. -/
def R.HOST_D2H_CAP : RegDef :=
  ⟨"HOST_D2H_CAP", 0x10000C, 1, 0, 1, 0, [0],
   [⟨"CAP_SEC", 31, 16, .ro⟩, ⟨"CAP", 15, 0, .ro⟩]⟩

/-- HOST_H2D_CAP, R74. -/
def R.HOST_H2D_CAP : RegDef :=
  ⟨"HOST_H2D_CAP", 0x100010, 1, 0, 1, 0, [0],
   [⟨"CAP_SEC", 31, 16, .ro⟩, ⟨"CAP", 15, 0, .ro⟩]⟩

/-- HOST_BADACC_CNT, R74. -/
def R.HOST_BADACC_CNT : RegDef :=
  ⟨"HOST_BADACC_CNT", 0x100014, 1, 0, 1, 0, [0],
   [⟨"COUNT", 31, 0, .w1c⟩]⟩

/-- HOST_LINK_CE_CNT, R74. -/
def R.HOST_LINK_CE_CNT : RegDef :=
  ⟨"HOST_LINK_CE_CNT", 0x100018, 1, 0, 1, 0, [0],
   [⟨"COUNT", 31, 0, .w1c⟩]⟩

/-- HOST_LINK_UE_CNT, R74. -/
def R.HOST_LINK_UE_CNT : RegDef :=
  ⟨"HOST_LINK_UE_CNT", 0x10001C, 1, 0, 1, 0, [0],
   [⟨"COUNT", 31, 0, .w1c⟩]⟩

/-- HOST_DB_BASE_LO, R74. -/
def R.HOST_DB_BASE_LO : RegDef :=
  ⟨"HOST_DB_BASE_LO", 0x100020, 1, 0, 1, 0, [0],
   [⟨"ADDR", 31, 12, .rw⟩]⟩

/-- HOST_DB_BASE_HI, R74. -/
def R.HOST_DB_BASE_HI : RegDef :=
  ⟨"HOST_DB_BASE_HI", 0x100024, 1, 0, 1, 0, [0],
   [⟨"ADDR", 31, 0, .rw⟩]⟩

/-- HOST_POLL_CLASSc, R74. -/
def R.HOST_POLL_CLASSc : RegDef :=
  ⟨"HOST_POLL_CLASSc", 0x100030, 1, 0, 4, 4, [1, 4, 0x190, 0xFA0],
   [⟨"INTERVAL", 11, 0, .rw⟩]⟩

/-- HOST_ADM_POLICY, R74. -/
def R.HOST_ADM_POLICY : RegDef :=
  ⟨"HOST_ADM_POLICY", 0x100040, 1, 0, 1, 0, [0],
   [⟨"H2D_LIMIT", 31, 16, .rw⟩, ⟨"D2H_LIMIT", 15, 0, .rw⟩]⟩

/-- HOST_RSV_D2H, R74. -/
def R.HOST_RSV_D2H : RegDef :=
  ⟨"HOST_RSV_D2H", 0x100050, 1, 0, 1, 0, [0],
   [⟨"RSV_SEC", 31, 16, .ro⟩, ⟨"RSV", 15, 0, .ro⟩]⟩

/-- HOST_RSV_H2D, R74. -/
def R.HOST_RSV_H2D : RegDef :=
  ⟨"HOST_RSV_H2D", 0x100054, 1, 0, 1, 0, [0],
   [⟨"RSV_SEC", 31, 16, .ro⟩, ⟨"RSV", 15, 0, .ro⟩]⟩

/-- HOST_RSV_HBM0, R74. -/
def R.HOST_RSV_HBM0 : RegDef :=
  ⟨"HOST_RSV_HBM0", 0x100058, 1, 0, 1, 0, [0],
   [⟨"RSV", 31, 0, .ro⟩]⟩

/-- HOST_RSV_HBM1, R74. -/
def R.HOST_RSV_HBM1 : RegDef :=
  ⟨"HOST_RSV_HBM1", 0x10005C, 1, 0, 1, 0, [0],
   [⟨"RSV", 31, 0, .ro⟩]⟩

/-- HOST_RSV_XAB, R74. -/
def R.HOST_RSV_XAB : RegDef :=
  ⟨"HOST_RSV_XAB", 0x100060, 1, 0, 1, 0, [0],
   [⟨"RSV", 31, 0, .ro⟩]⟩

/-- HOST_RSV_XBA, R74. -/
def R.HOST_RSV_XBA : RegDef :=
  ⟨"HOST_RSV_XBA", 0x100064, 1, 0, 1, 0, [0],
   [⟨"RSV", 31, 0, .ro⟩]⟩

/-- HOST_RSV_POWER, R74. -/
def R.HOST_RSV_POWER : RegDef :=
  ⟨"HOST_RSV_POWER", 0x100068, 1, 0, 1, 0, [0],
   [⟨"P", 31, 0, .ro⟩]⟩

/-- HOST_BUCKET, R74. -/
def R.HOST_BUCKET : RegDef :=
  ⟨"HOST_BUCKET", 0x10006C, 1, 0, 1, 0, [0x3A98],
   [⟨"E", 31, 0, .ro⟩]⟩

/-- HOST_RSV_POOL, R74. -/
def R.HOST_RSV_POOL : RegDef :=
  ⟨"HOST_RSV_POOL", 0x100070, 1, 0, 1, 0, [0],
   [⟨"MGMT", 31, 16, .ro⟩, ⟨"JOBS", 15, 0, .ro⟩]⟩

/-- HOST_RSV_STORE, R74. -/
def R.HOST_RSV_STORE : RegDef :=
  ⟨"HOST_RSV_STORE", 0x100074, 1, 0, 1, 0, [0],
   [⟨"STACK1", 31, 16, .ro⟩, ⟨"STACK0", 15, 0, .ro⟩]⟩

/-- HOST_REFUSE_BW_CNT, R74. -/
def R.HOST_REFUSE_BW_CNT : RegDef :=
  ⟨"HOST_REFUSE_BW_CNT", 0x100080, 1, 0, 1, 0, [0],
   [⟨"COUNT", 31, 0, .w1c⟩]⟩

/-- HOST_REFUSE_SPACE_CNT, R74. -/
def R.HOST_REFUSE_SPACE_CNT : RegDef :=
  ⟨"HOST_REFUSE_SPACE_CNT", 0x100084, 1, 0, 1, 0, [0],
   [⟨"COUNT", 31, 0, .w1c⟩]⟩

/-- HOST_REFUSE_POWER_CNT, R74. -/
def R.HOST_REFUSE_POWER_CNT : RegDef :=
  ⟨"HOST_REFUSE_POWER_CNT", 0x100088, 1, 0, 1, 0, [0],
   [⟨"COUNT", 31, 0, .w1c⟩]⟩

/-- HOST_REFUSE_STATE_CNT, R74. -/
def R.HOST_REFUSE_STATE_CNT : RegDef :=
  ⟨"HOST_REFUSE_STATE_CNT", 0x10008C, 1, 0, 1, 0, [0],
   [⟨"COUNT", 31, 0, .w1c⟩]⟩

/-- HOST_REFUSE_CONFLICT_CNT, R74. -/
def R.HOST_REFUSE_CONFLICT_CNT : RegDef :=
  ⟨"HOST_REFUSE_CONFLICT_CNT", 0x100090, 1, 0, 1, 0, [0],
   [⟨"COUNT", 31, 0, .w1c⟩]⟩

/-- HOST_DESC_ERR_CNT, R74. -/
def R.HOST_DESC_ERR_CNT : RegDef :=
  ⟨"HOST_DESC_ERR_CNT", 0x100094, 1, 0, 1, 0, [0],
   [⟨"COUNT", 31, 0, .w1c⟩]⟩

/-- HOST_DEADLINE_MISS_CNT, R74. -/
def R.HOST_DEADLINE_MISS_CNT : RegDef :=
  ⟨"HOST_DEADLINE_MISS_CNT", 0x100098, 1, 0, 1, 0, [0],
   [⟨"COUNT", 31, 0, .w1c⟩]⟩

/-- HOST_EVQ_BASE_LO, R74. -/
def R.HOST_EVQ_BASE_LO : RegDef :=
  ⟨"HOST_EVQ_BASE_LO", 0x1000A0, 1, 0, 1, 0, [0],
   [⟨"ADDR", 31, 5, .rw⟩]⟩

/-- HOST_EVQ_BASE_HI, R74. -/
def R.HOST_EVQ_BASE_HI : RegDef :=
  ⟨"HOST_EVQ_BASE_HI", 0x1000A4, 1, 0, 1, 0, [0],
   [⟨"ADDR", 31, 0, .rw⟩]⟩

/-- HOST_EVQ_CTRL, R74. -/
def R.HOST_EVQ_CTRL : RegDef :=
  ⟨"HOST_EVQ_CTRL", 0x1000A8, 1, 0, 1, 0, [4],
   [⟨"VECTOR", 26, 16, .rw⟩, ⟨"SIZE_LOG2", 3, 0, .rw⟩]⟩

/-- HOST_EVQ_LOST, R74. -/
def R.HOST_EVQ_LOST : RegDef :=
  ⟨"HOST_EVQ_LOST", 0x1000AC, 1, 0, 1, 0, [0],
   [⟨"COUNT", 31, 0, .w1c⟩]⟩

/-- HOST_SQ_SEL, R74. -/
def R.HOST_SQ_SEL : RegDef :=
  ⟨"HOST_SQ_SEL", 0x100100, 1, 0, 1, 0, [0],
   [⟨"RING", 5, 0, .rw⟩]⟩

/-- HOST_SQ_BASE_LO, R74. -/
def R.HOST_SQ_BASE_LO : RegDef :=
  ⟨"HOST_SQ_BASE_LO", 0x100104, 1, 0, 1, 0, [0],
   [⟨"ADDR", 31, 6, .rw⟩]⟩

/-- HOST_SQ_BASE_HI, R74. -/
def R.HOST_SQ_BASE_HI : RegDef :=
  ⟨"HOST_SQ_BASE_HI", 0x100108, 1, 0, 1, 0, [0],
   [⟨"ADDR", 31, 0, .rw⟩]⟩

/-- HOST_SQ_CTRL, R74. -/
def R.HOST_SQ_CTRL : RegDef :=
  ⟨"HOST_SQ_CTRL", 0x10010C, 1, 0, 1, 0, [0x40],
   [⟨"CQ", 21, 16, .rw⟩, ⟨"POLL_CLASS", 9, 8, .rw⟩, ⟨"SIZE_LOG2", 7, 4, .rw⟩, ⟨"ENABLE", 0, 0, .rw⟩]⟩

/-- HOST_SQ_HEAD, R74. -/
def R.HOST_SQ_HEAD : RegDef :=
  ⟨"HOST_SQ_HEAD", 0x100110, 1, 0, 1, 0, [0],
   [⟨"HEAD", 31, 0, .ro⟩]⟩

/-- HOST_SQ_STAT, R74. -/
def R.HOST_SQ_STAT : RegDef :=
  ⟨"HOST_SQ_STAT", 0x100114, 1, 0, 1, 0, [0],
   [⟨"DISABLED", 2, 2, .w1c⟩, ⟨"OWN_WAIT", 1, 1, .w1c⟩, ⟨"BAD_TAIL", 0, 0, .w1c⟩]⟩

/-- HOST_CQ_SEL, R74. -/
def R.HOST_CQ_SEL : RegDef :=
  ⟨"HOST_CQ_SEL", 0x100140, 1, 0, 1, 0, [0],
   [⟨"RING", 5, 0, .rw⟩]⟩

/-- HOST_CQ_BASE_LO, R74. -/
def R.HOST_CQ_BASE_LO : RegDef :=
  ⟨"HOST_CQ_BASE_LO", 0x100144, 1, 0, 1, 0, [0],
   [⟨"ADDR", 31, 5, .rw⟩]⟩

/-- HOST_CQ_BASE_HI, R74. -/
def R.HOST_CQ_BASE_HI : RegDef :=
  ⟨"HOST_CQ_BASE_HI", 0x100148, 1, 0, 1, 0, [0],
   [⟨"ADDR", 31, 0, .rw⟩]⟩

/-- HOST_CQ_CTRL, R74. -/
def R.HOST_CQ_CTRL : RegDef :=
  ⟨"HOST_CQ_CTRL", 0x10014C, 1, 0, 1, 0, [0x40],
   [⟨"VECTOR", 26, 16, .rw⟩, ⟨"SIZE_LOG2", 7, 4, .rw⟩, ⟨"ENABLE", 0, 0, .rw⟩]⟩

/-- HOST_CQ_COAL, R74. -/
def R.HOST_CQ_COAL : RegDef :=
  ⟨"HOST_CQ_COAL", 0x100150, 1, 0, 1, 0, [1],
   [⟨"TIME", 27, 16, .rw⟩, ⟨"COUNT", 7, 0, .rw⟩]⟩

/-- HOST_CQ_TAIL, R74. -/
def R.HOST_CQ_TAIL : RegDef :=
  ⟨"HOST_CQ_TAIL", 0x100154, 1, 0, 1, 0, [0],
   [⟨"TAIL", 31, 0, .ro⟩]⟩

/-- HOST_CQ_STAT, R74. -/
def R.HOST_CQ_STAT : RegDef :=
  ⟨"HOST_CQ_STAT", 0x100158, 1, 0, 1, 0, [0],
   [⟨"BAD_HEAD", 1, 1, .w1c⟩, ⟨"FULL_STALL", 0, 0, .w1c⟩]⟩

/-- MOVER_CTRL, R357. -/
def R.MOVER_CTRL : RegDef :=
  ⟨"MOVER_CTRL", 0x200000, 1, 0, 1, 0, [1],
   [⟨"FLUSH", 7, 0, .rw⟩]⟩

/-- MOVER_FREE_CH, R357. -/
def R.MOVER_FREE_CH : RegDef :=
  ⟨"MOVER_FREE_CH", 0x200004, 1, 0, 1, 0, [0x200020],
   [⟨"SIDE_B", 21, 16, .ro⟩, ⟨"SIDE_A", 5, 0, .ro⟩]⟩

/-- MOVER_RETRY_CNT, R357. -/
def R.MOVER_RETRY_CNT : RegDef :=
  ⟨"MOVER_RETRY_CNT", 0x200008, 1, 0, 1, 0, [0],
   [⟨"COUNT", 31, 0, .w1c⟩]⟩

/-- MOVER_DAMAGED_CNT, R357. -/
def R.MOVER_DAMAGED_CNT : RegDef :=
  ⟨"MOVER_DAMAGED_CNT", 0x20000C, 1, 0, 1, 0, [0],
   [⟨"COUNT", 31, 0, .w1c⟩]⟩

/-- MOVER_PAD_CNT, R357. -/
def R.MOVER_PAD_CNT : RegDef :=
  ⟨"MOVER_PAD_CNT", 0x200010, 1, 0, 1, 0, [0],
   [⟨"COUNT", 31, 0, .w1c⟩]⟩

/-- MOVER_Mm_STAT, R357. -/
def R.MOVER_Mm_STAT : RegDef :=
  ⟨"MOVER_Mm_STAT", 0x201000, 8, 0x100, 1, 0, [0],
   [⟨"ACTIVE", 16, 16, .ro⟩, ⟨"CUR", 10, 8, .ro⟩, ⟨"HELD", 7, 0, .ro⟩]⟩

/-- MOVER_Mm_RSV, R357. -/
def R.MOVER_Mm_RSV : RegDef :=
  ⟨"MOVER_Mm_RSV", 0x201004, 8, 0x100, 1, 0, [0],
   [⟨"RSV", 31, 0, .ro⟩]⟩

/-- MOVER_Mm_ELEM_CNT, R357. -/
def R.MOVER_Mm_ELEM_CNT : RegDef :=
  ⟨"MOVER_Mm_ELEM_CNT", 0x201008, 8, 0x100, 1, 0, [0],
   [⟨"COUNT", 31, 0, .w1c⟩]⟩

/-- MOVER_Mm_WAIT_MAX, R357. -/
def R.MOVER_Mm_WAIT_MAX : RegDef :=
  ⟨"MOVER_Mm_WAIT_MAX", 0x20100C, 8, 0x100, 1, 0, [0],
   [⟨"WAIT", 31, 0, .w1c⟩]⟩

/-- MOVER_CHc, R357. -/
def R.MOVER_CHc : RegDef :=
  ⟨"MOVER_CHc", 0x202000, 64, 4, 1, 0, [0],
   [⟨"STATE", 31, 30, .ro⟩, ⟨"SQ", 21, 16, .ro⟩, ⟨"TAG", 15, 0, .ro⟩]⟩

/-- PRISM_CHn_CTRL, R104. -/
def R.PRISM_CHn_CTRL : RegDef :=
  ⟨"PRISM_CHn_CTRL", 0x400000, 4, 0x10000, 1, 0, [0x30],
   [⟨"PAIR", 11, 11, .rws⟩, ⟨"RATE", 10, 8, .rws⟩, ⟨"RANGE", 5, 4, .rws⟩, ⟨"IMMEDIATE", 1, 1, .rws⟩, ⟨"ENABLE", 0, 0, .rws⟩]⟩

/-- PRISM_CHn_TRIM, R104. -/
def R.PRISM_CHn_TRIM : RegDef :=
  ⟨"PRISM_CHn_TRIM", 0x400004, 4, 0x10000, 1, 0, [0],
   [⟨"OFFSET", 29, 16, .rws⟩, ⟨"FINE_GAIN", 11, 0, .rws⟩]⟩

/-- PRISM_CHn_COMMIT, R104. -/
def R.PRISM_CHn_COMMIT : RegDef :=
  ⟨"PRISM_CHn_COMMIT", 0x400008, 4, 0x10000, 1, 0, [0],
   [⟨"GO", 0, 0, .wo⟩]⟩

/-- PRISM_CHn_COMMIT_STAT, R104. -/
def R.PRISM_CHn_COMMIT_STAT : RegDef :=
  ⟨"PRISM_CHn_COMMIT_STAT", 0x40000C, 4, 0x10000, 1, 0, [0],
   [⟨"REJ_INVALID", 3, 3, .w1c⟩, ⟨"REJ_POWER", 2, 2, .w1c⟩, ⟨"REJ_OWNED", 1, 1, .w1c⟩, ⟨"PENDING", 0, 0, .ro⟩]⟩

/-- PRISM_CHn_STAT, R104. -/
def R.PRISM_CHn_STAT : RegDef :=
  ⟨"PRISM_CHn_STAT", 0x400010, 4, 0x10000, 1, 0, [0],
   [⟨"SETTLING", 11, 11, .ro⟩, ⟨"BG_CONVERGED", 10, 10, .ro⟩, ⟨"PAIRED_ODD", 9, 9, .ro⟩, ⟨"CALIBRATING", 8, 8, .ro⟩, ⟨"ONLINE", 7, 7, .ro⟩, ⟨"CAL_STALE", 6, 6, .ro⟩, ⟨"CAL_FAIL", 5, 5, .ro⟩, ⟨"CAL_VALID", 4, 4, .ro⟩, ⟨"CLK_FAULT", 3, 3, .w1c⟩, ⟨"OVD", 2, 2, .w1c⟩, ⟨"NBR_OVD", 1, 1, .w1c⟩, ⟨"OVR", 0, 0, .w1c⟩]⟩

/-- PRISM_CHn_OVR_CNT, R104. -/
def R.PRISM_CHn_OVR_CNT : RegDef :=
  ⟨"PRISM_CHn_OVR_CNT", 0x400014, 4, 0x10000, 1, 0, [0],
   [⟨"COUNT", 31, 0, .w1c⟩]⟩

/-- PRISM_CHn_NBR_CNT, R104. -/
def R.PRISM_CHn_NBR_CNT : RegDef :=
  ⟨"PRISM_CHn_NBR_CNT", 0x400018, 4, 0x10000, 1, 0, [0],
   [⟨"COUNT", 31, 0, .w1c⟩]⟩

/-- PRISM_CHn_RANGE_CNT, R104. -/
def R.PRISM_CHn_RANGE_CNT : RegDef :=
  ⟨"PRISM_CHn_RANGE_CNT", 0x40001C, 4, 0x10000, 1, 0, [0],
   [⟨"COUNT", 31, 0, .w1c⟩]⟩

/-- PRISM_CHn_RANGE_STAMP_LO, R104. -/
def R.PRISM_CHn_RANGE_STAMP_LO : RegDef :=
  ⟨"PRISM_CHn_RANGE_STAMP_LO", 0x400020, 4, 0x10000, 1, 0, [0],
   [⟨"STAMP", 31, 0, .ro⟩]⟩

/-- PRISM_CHn_RANGE_STAMP_HI, R104. -/
def R.PRISM_CHn_RANGE_STAMP_HI : RegDef :=
  ⟨"PRISM_CHn_RANGE_STAMP_HI", 0x400024, 4, 0x10000, 1, 0, [0],
   [⟨"STAMP", 31, 0, .ro⟩]⟩

/-- PRISM_CHn_CAL_CTRL, R104. -/
def R.PRISM_CHn_CAL_CTRL : RegDef :=
  ⟨"PRISM_CHn_CAL_CTRL", 0x400028, 4, 0x10000, 1, 0, [1],
   [⟨"FREEZE", 1, 1, .rw⟩, ⟨"BG_EN", 0, 0, .rw⟩]⟩

/-- PRISM_CHn_CAL_UPD_CNT, R104. -/
def R.PRISM_CHn_CAL_UPD_CNT : RegDef :=
  ⟨"PRISM_CHn_CAL_UPD_CNT", 0x40002C, 4, 0x10000, 1, 0, [0],
   [⟨"COUNT", 31, 0, .w1c⟩]⟩

/-- PRISM_CHn_CAL_UPD_STAMP_LO, R104. -/
def R.PRISM_CHn_CAL_UPD_STAMP_LO : RegDef :=
  ⟨"PRISM_CHn_CAL_UPD_STAMP_LO", 0x400030, 4, 0x10000, 1, 0, [0],
   [⟨"STAMP", 31, 0, .ro⟩]⟩

/-- PRISM_CHn_CAL_UPD_STAMP_HI, R104. -/
def R.PRISM_CHn_CAL_UPD_STAMP_HI : RegDef :=
  ⟨"PRISM_CHn_CAL_UPD_STAMP_HI", 0x400034, 4, 0x10000, 1, 0, [0],
   [⟨"STAMP", 31, 0, .ro⟩]⟩

/-- PRISM_CHn_CAL_SKIP_CNT, R104. -/
def R.PRISM_CHn_CAL_SKIP_CNT : RegDef :=
  ⟨"PRISM_CHn_CAL_SKIP_CNT", 0x400038, 4, 0x10000, 1, 0, [0],
   [⟨"COUNT", 31, 0, .w1c⟩]⟩

/-- PRISM_CHn_CAL_RESID, R104. -/
def R.PRISM_CHn_CAL_RESID : RegDef :=
  ⟨"PRISM_CHn_CAL_RESID", 0x40003C, 4, 0x10000, 1, 0, [0xFFFFFFFF],
   [⟨"SKEW", 31, 24, .ro⟩, ⟨"BW", 23, 16, .ro⟩, ⟨"GAIN", 15, 8, .ro⟩, ⟨"OFFSET", 7, 0, .ro⟩]⟩

/-- PRISM_CHn_TEMP, R104. -/
def R.PRISM_CHn_TEMP : RegDef :=
  ⟨"PRISM_CHn_TEMP", 0x400040, 4, 0x10000, 1, 0, [0],
   [⟨"AT_FG", 31, 16, .ro⟩, ⟨"NOW", 15, 0, .ro⟩]⟩

/-- PRISM_CHn_FG_STAMP_LO, R104. -/
def R.PRISM_CHn_FG_STAMP_LO : RegDef :=
  ⟨"PRISM_CHn_FG_STAMP_LO", 0x400044, 4, 0x10000, 1, 0, [0],
   [⟨"STAMP", 31, 0, .ro⟩]⟩

/-- PRISM_CHn_FG_STAMP_HI, R104. -/
def R.PRISM_CHn_FG_STAMP_HI : RegDef :=
  ⟨"PRISM_CHn_FG_STAMP_HI", 0x400048, 4, 0x10000, 1, 0, [0],
   [⟨"STAMP", 31, 0, .ro⟩]⟩

/-- PRISM_CHn_SRC_LEVEL, R104. -/
def R.PRISM_CHn_SRC_LEVEL : RegDef :=
  ⟨"PRISM_CHn_SRC_LEVEL", 0x40004C, 4, 0x10000, 1, 0, [0],
   [⟨"LEVEL", 31, 0, .ro⟩]⟩

/-- PRISM_CHn_CLK_CNT, R104. -/
def R.PRISM_CHn_CLK_CNT : RegDef :=
  ⟨"PRISM_CHn_CLK_CNT", 0x400050, 4, 0x10000, 1, 0, [0],
   [⟨"COUNT", 31, 0, .w1c⟩]⟩

/-- LANTERN_COMMIT, R131. -/
def R.LANTERN_COMMIT : RegDef :=
  ⟨"LANTERN_COMMIT", 0x800000, 1, 0, 1, 0, [0],
   [⟨"GO", 0, 0, .wo⟩]⟩

/-- LANTERN_COMMIT_STAT, R131. -/
def R.LANTERN_COMMIT_STAT : RegDef :=
  ⟨"LANTERN_COMMIT_STAT", 0x800004, 1, 0, 1, 0, [0],
   [⟨"REJ_WHERE", 15, 8, .ro⟩, ⟨"REJ_INVALID", 1, 1, .w1c⟩, ⟨"PENDING", 0, 0, .ro⟩]⟩

/-- LANTERN_IMPORT, R131. -/
def R.LANTERN_IMPORT : RegDef :=
  ⟨"LANTERN_IMPORT", 0x800008, 1, 0, 1, 0, [0],
   [⟨"LINE_EN", 7, 0, .rws⟩]⟩

/-- LANTERN_EXPORT_DROP_CNT, R131. -/
def R.LANTERN_EXPORT_DROP_CNT : RegDef :=
  ⟨"LANTERN_EXPORT_DROP_CNT", 0x80000C, 1, 0, 1, 0, [0],
   [⟨"COUNT", 31, 0, .w1c⟩]⟩

/-- LANTERN_LINE_DROP_CNT, R131. -/
def R.LANTERN_LINE_DROP_CNT : RegDef :=
  ⟨"LANTERN_LINE_DROP_CNT", 0x800010, 1, 0, 1, 0, [0],
   [⟨"COUNT", 31, 0, .w1c⟩]⟩

/-- LANTERN_TRIGINp, R131. -/
def R.LANTERN_TRIGINp : RegDef :=
  ⟨"LANTERN_TRIGINp", 0x800014, 2, 4, 1, 0, [0x666],
   [⟨"TERM", 24, 24, .rws⟩, ⟨"HYST", 21, 16, .rws⟩, ⟨"THRESH", 11, 0, .rws⟩]⟩

/-- LANTERN_CONDc_CTRL, R131. -/
def R.LANTERN_CONDc_CTRL : RegDef :=
  ⟨"LANTERN_CONDc_CTRL", 0x801000, 16, 0x40, 1, 0, [0],
   [⟨"TYPE", 31, 28, .rws⟩, ⟨"SLOPE", 27, 26, .rws⟩, ⟨"QUAL", 25, 24, .rws⟩, ⟨"SRC", 9, 0, .rws⟩]⟩

/-- LANTERN_CONDc_LEVEL_A, R131. -/
def R.LANTERN_CONDc_LEVEL_A : RegDef :=
  ⟨"LANTERN_CONDc_LEVEL_A", 0x801004, 16, 0x40, 1, 0, [0],
   [⟨"LEVEL", 31, 0, .rws⟩]⟩

/-- LANTERN_CONDc_LEVEL_B, R131. -/
def R.LANTERN_CONDc_LEVEL_B : RegDef :=
  ⟨"LANTERN_CONDc_LEVEL_B", 0x801008, 16, 0x40, 1, 0, [0],
   [⟨"LEVEL", 31, 0, .rws⟩]⟩

/-- LANTERN_CONDc_HYST, R131. -/
def R.LANTERN_CONDc_HYST : RegDef :=
  ⟨"LANTERN_CONDc_HYST", 0x80100C, 16, 0x40, 1, 0, [0],
   [⟨"HYST", 15, 0, .rws⟩]⟩

/-- LANTERN_CONDc_TMIN, R131. -/
def R.LANTERN_CONDc_TMIN : RegDef :=
  ⟨"LANTERN_CONDc_TMIN", 0x801010, 16, 0x40, 1, 0, [0],
   [⟨"T", 31, 0, .rws⟩]⟩

/-- LANTERN_CONDc_TMAX, R131. -/
def R.LANTERN_CONDc_TMAX : RegDef :=
  ⟨"LANTERN_CONDc_TMAX", 0x801014, 16, 0x40, 1, 0, [0],
   [⟨"T", 31, 0, .rws⟩]⟩

/-- LANTERN_UNITu_CTRL, R131. -/
def R.LANTERN_UNITu_CTRL : RegDef :=
  ⟨"LANTERN_UNITu_CTRL", 0x802000, 8, 0x40, 1, 0, [0],
   [⟨"EXPORT_EN", 15, 15, .rws⟩, ⟨"EXPORT_LINE", 14, 12, .rws⟩, ⟨"HOLD_MODE", 9, 8, .rws⟩, ⟨"N_STAGES", 3, 2, .rws⟩, ⟨"ENABLE", 0, 0, .rws⟩]⟩

/-- LANTERN_UNITu_STAT, R131. -/
def R.LANTERN_UNITu_STAT : RegDef :=
  ⟨"LANTERN_UNITu_STAT", 0x80201C, 8, 0x40, 1, 0, [0],
   [⟨"STAGE", 11, 10, .ro⟩, ⟨"NO_ALIGN", 5, 5, .w1c⟩, ⟨"LVL_CLAMP", 4, 4, .ro⟩, ⟨"LOST", 3, 3, .w1c⟩, ⟨"COINC", 2, 2, .w1c⟩, ⟨"CLK_HOLD", 1, 1, .ro⟩, ⟨"ACTIVE", 0, 0, .ro⟩]⟩

/-- LANTERN_UNITu_STAGES, R131. -/
def R.LANTERN_UNITu_STAGES : RegDef :=
  ⟨"LANTERN_UNITu_STAGES", 0x802004, 8, 0x40, 1, 0, [0],
   [⟨"STAGE4", 15, 12, .rws⟩, ⟨"STAGE3", 11, 8, .rws⟩, ⟨"STAGE2", 7, 4, .rws⟩, ⟨"STAGE1", 3, 0, .rws⟩]⟩

/-- LANTERN_UNITu_SEQ, R131. -/
def R.LANTERN_UNITu_SEQ : RegDef :=
  ⟨"LANTERN_UNITu_SEQ", 0x802008, 8, 0x40, 1, 0, [0],
   [⟨"RESET_EN", 31, 31, .rws⟩, ⟨"RESET_COND", 3, 0, .rws⟩]⟩

/-- LANTERN_UNITu_SEQ_TMAX, R131. -/
def R.LANTERN_UNITu_SEQ_TMAX : RegDef :=
  ⟨"LANTERN_UNITu_SEQ_TMAX", 0x80200C, 8, 0x40, 1, 0, [0],
   [⟨"T", 31, 0, .rws⟩]⟩

/-- LANTERN_UNITu_HOLD_T_LO, R131. -/
def R.LANTERN_UNITu_HOLD_T_LO : RegDef :=
  ⟨"LANTERN_UNITu_HOLD_T_LO", 0x802010, 8, 0x40, 1, 0, [0],
   [⟨"HOLD_T", 31, 0, .rws⟩]⟩

/-- LANTERN_UNITu_HOLD_T_HI, R131. -/
def R.LANTERN_UNITu_HOLD_T_HI : RegDef :=
  ⟨"LANTERN_UNITu_HOLD_T_HI", 0x802014, 8, 0x40, 1, 0, [0],
   [⟨"HOLD_T", 2, 0, .rws⟩]⟩

/-- LANTERN_UNITu_HOLD_N, R131. -/
def R.LANTERN_UNITu_HOLD_N : RegDef :=
  ⟨"LANTERN_UNITu_HOLD_N", 0x802018, 8, 0x40, 1, 0, [0],
   [⟨"N", 31, 0, .rws⟩]⟩

/-- LANTERN_UNITu_MARK_CNT, R131. -/
def R.LANTERN_UNITu_MARK_CNT : RegDef :=
  ⟨"LANTERN_UNITu_MARK_CNT", 0x802020, 8, 0x40, 1, 0, [0],
   [⟨"COUNT", 31, 0, .w1c⟩]⟩

/-- LANTERN_UNITu_SUPP_CNT, R131. -/
def R.LANTERN_UNITu_SUPP_CNT : RegDef :=
  ⟨"LANTERN_UNITu_SUPP_CNT", 0x802024, 8, 0x40, 1, 0, [0],
   [⟨"COUNT", 31, 0, .w1c⟩]⟩

/-- LANTERN_UNITu_COINC_CNT, R131. -/
def R.LANTERN_UNITu_COINC_CNT : RegDef :=
  ⟨"LANTERN_UNITu_COINC_CNT", 0x802028, 8, 0x40, 1, 0, [0],
   [⟨"COUNT", 31, 0, .w1c⟩]⟩

/-- LANTERN_UNITu_LOST_CNT, R131. -/
def R.LANTERN_UNITu_LOST_CNT : RegDef :=
  ⟨"LANTERN_UNITu_LOST_CNT", 0x80202C, 8, 0x40, 1, 0, [0],
   [⟨"COUNT", 31, 0, .w1c⟩]⟩

/-- RECORD_SYNC_CTRL, R170. -/
def R.RECORD_SYNC_CTRL : RegDef :=
  ⟨"RECORD_SYNC_CTRL", 0xA00000, 1, 0, 1, 0, [0],
   [⟨"CH_MASK", 11, 8, .rw⟩, ⟨"SRC", 4, 4, .rw⟩, ⟨"LINE", 2, 0, .rw⟩]⟩

/-- RECORD_SYNC_GO, R170. -/
def R.RECORD_SYNC_GO : RegDef :=
  ⟨"RECORD_SYNC_GO", 0xA00004, 1, 0, 1, 0, [0],
   [⟨"GO", 0, 0, .wo⟩]⟩

/-- RECORD_SYNC_STAT, R170. -/
def R.RECORD_SYNC_STAT : RegDef :=
  ⟨"RECORD_SYNC_STAT", 0xA00008, 1, 0, 1, 0, [0],
   [⟨"NO_ALIGN", 1, 1, .w1c⟩, ⟨"PENDING", 0, 0, .ro⟩]⟩

/-- RECORD_SYNC_STAMP_LO, R170. -/
def R.RECORD_SYNC_STAMP_LO : RegDef :=
  ⟨"RECORD_SYNC_STAMP_LO", 0xA0000C, 1, 0, 1, 0, [0],
   [⟨"T", 31, 0, .ro⟩]⟩

/-- RECORD_SYNC_STAMP_HI, R170. -/
def R.RECORD_SYNC_STAMP_HI : RegDef :=
  ⟨"RECORD_SYNC_STAMP_HI", 0xA00010, 1, 0, 1, 0, [0],
   [⟨"T", 31, 0, .ro⟩]⟩

/-- RECORD_SYNC_CNT, R170. -/
def R.RECORD_SYNC_CNT : RegDef :=
  ⟨"RECORD_SYNC_CNT", 0xA00014, 1, 0, 1, 0, [0],
   [⟨"COUNT", 31, 0, .w1c⟩]⟩

/-- RECORD_HELD, R170. -/
def R.RECORD_HELD : RegDef :=
  ⟨"RECORD_HELD", 0xA00018, 1, 0, 1, 0, [0],
   [⟨"MIB", 31, 16, .ro⟩, ⟨"COUNT", 15, 0, .ro⟩]⟩

/-- RECORD_TABLE_REPAIR_CNT, R170. -/
def R.RECORD_TABLE_REPAIR_CNT : RegDef :=
  ⟨"RECORD_TABLE_REPAIR_CNT", 0xA0001C, 1, 0, 1, 0, [0],
   [⟨"COUNT", 31, 0, .w1c⟩]⟩

/-- RECORD_TABLE_FAIL_CNT, R170. -/
def R.RECORD_TABLE_FAIL_CNT : RegDef :=
  ⟨"RECORD_TABLE_FAIL_CNT", 0xA00020, 1, 0, 1, 0, [0],
   [⟨"COUNT", 31, 0, .w1c⟩]⟩

/-- RECORD_CHn_STAT, R170. -/
def R.RECORD_CHn_STAT : RegDef :=
  ⟨"RECORD_CHn_STAT", 0xA01000, 4, 0x100, 1, 0, [0],
   [⟨"SETTLING", 7, 7, .ro⟩, ⟨"CLOCK_HOLD", 6, 6, .ro⟩, ⟨"STREAM", 5, 5, .ro⟩, ⟨"CAPTURE", 4, 4, .ro⟩, ⟨"STAGE_OVF", 3, 3, .w1c⟩, ⟨"DAMAGED", 2, 2, .w1c⟩, ⟨"DECLINED", 1, 1, .w1c⟩, ⟨"PEN_PAR", 0, 0, .w1c⟩]⟩

/-- RECORD_CHn_WRITER, R170. -/
def R.RECORD_CHn_WRITER : RegDef :=
  ⟨"RECORD_CHn_WRITER", 0xA01004, 4, 0x100, 1, 0, [0],
   [⟨"SQ", 21, 16, .ro⟩, ⟨"TAG", 15, 0, .ro⟩]⟩

/-- RECORD_CHn_DEC, R170. -/
def R.RECORD_CHn_DEC : RegDef :=
  ⟨"RECORD_CHn_DEC", 0xA01008, 4, 0x100, 1, 0, [0],
   [⟨"BITS", 5, 4, .ro⟩, ⟨"MODE", 2, 0, .ro⟩]⟩

/-- RECORD_CHn_DEC_FACTOR, R170. -/
def R.RECORD_CHn_DEC_FACTOR : RegDef :=
  ⟨"RECORD_CHn_DEC_FACTOR", 0xA0100C, 4, 0x100, 1, 0, [1],
   [⟨"N", 31, 0, .ro⟩]⟩

/-- RECORD_CHn_PRE_MAX, R170. -/
def R.RECORD_CHn_PRE_MAX : RegDef :=
  ⟨"RECORD_CHn_PRE_MAX", 0xA01010, 4, 0x100, 1, 0, [0xBF000],
   [⟨"PRE_MAX", 31, 0, .ro⟩]⟩

/-- RECORD_CHn_SEG_CNT, R170. -/
def R.RECORD_CHn_SEG_CNT : RegDef :=
  ⟨"RECORD_CHn_SEG_CNT", 0xA01014, 4, 0x100, 1, 0, [0],
   [⟨"COUNT", 31, 0, .w1c⟩]⟩

/-- RECORD_CHn_DECLINED_CNT, R170. -/
def R.RECORD_CHn_DECLINED_CNT : RegDef :=
  ⟨"RECORD_CHn_DECLINED_CNT", 0xA01018, 4, 0x100, 1, 0, [0],
   [⟨"COUNT", 31, 0, .w1c⟩]⟩

/-- RECORD_CHn_LOST_CNT, R170. -/
def R.RECORD_CHn_LOST_CNT : RegDef :=
  ⟨"RECORD_CHn_LOST_CNT", 0xA0101C, 4, 0x100, 1, 0, [0],
   [⟨"COUNT", 31, 0, .w1c⟩]⟩

/-- RECORD_CHn_TRUNC_CNT, R170. -/
def R.RECORD_CHn_TRUNC_CNT : RegDef :=
  ⟨"RECORD_CHn_TRUNC_CNT", 0xA01020, 4, 0x100, 1, 0, [0],
   [⟨"COUNT", 31, 0, .w1c⟩]⟩

/-- RECORD_CHn_DAMAGED_CNT, R170. -/
def R.RECORD_CHn_DAMAGED_CNT : RegDef :=
  ⟨"RECORD_CHn_DAMAGED_CNT", 0xA01024, 4, 0x100, 1, 0, [0],
   [⟨"COUNT", 31, 0, .w1c⟩]⟩

/-- RECORD_CHn_PEN_PAR_CNT, R170. -/
def R.RECORD_CHn_PEN_PAR_CNT : RegDef :=
  ⟨"RECORD_CHn_PEN_PAR_CNT", 0xA01028, 4, 0x100, 1, 0, [0],
   [⟨"COUNT", 31, 0, .w1c⟩]⟩

/-- RECORD_CHn_STAGE_HWM, R170. -/
def R.RECORD_CHn_STAGE_HWM : RegDef :=
  ⟨"RECORD_CHn_STAGE_HWM", 0xA0102C, 4, 0x100, 1, 0, [0],
   [⟨"SAMPLES", 31, 0, .w1c⟩]⟩

/-- RECORD_CHn_STAGE_OVF_CNT, R170. -/
def R.RECORD_CHn_STAGE_OVF_CNT : RegDef :=
  ⟨"RECORD_CHn_STAGE_OVF_CNT", 0xA01030, 4, 0x100, 1, 0, [0],
   [⟨"COUNT", 31, 0, .w1c⟩]⟩

/-- RECORD_CHn_CREDIT, R170. -/
def R.RECORD_CHn_CREDIT : RegDef :=
  ⟨"RECORD_CHn_CREDIT", 0xA01034, 4, 0x100, 1, 0, [0],
   [⟨"MARKS", 16, 0, .ro⟩]⟩

/-- RECORD_CHn_OLDEST_LO, R170. -/
def R.RECORD_CHn_OLDEST_LO : RegDef :=
  ⟨"RECORD_CHn_OLDEST_LO", 0xA01038, 4, 0x100, 1, 0, [0],
   [⟨"STAMP", 31, 0, .ro⟩]⟩

/-- RECORD_CHn_OLDEST_HI, R170. -/
def R.RECORD_CHn_OLDEST_HI : RegDef :=
  ⟨"RECORD_CHn_OLDEST_HI", 0xA0103C, 4, 0x100, 1, 0, [0],
   [⟨"STAMP", 31, 0, .ro⟩]⟩

/-- RECORD_CHn_WRITTEN_LO, R170. -/
def R.RECORD_CHn_WRITTEN_LO : RegDef :=
  ⟨"RECORD_CHn_WRITTEN_LO", 0xA01040, 4, 0x100, 1, 0, [0],
   [⟨"STAMP", 31, 0, .ro⟩]⟩

/-- RECORD_CHn_WRITTEN_HI, R170. -/
def R.RECORD_CHn_WRITTEN_HI : RegDef :=
  ⟨"RECORD_CHn_WRITTEN_HI", 0xA01044, 4, 0x100, 1, 0, [0],
   [⟨"STAMP", 31, 0, .ro⟩]⟩

/-- RECORD_CHn_STORED_LO, R170. -/
def R.RECORD_CHn_STORED_LO : RegDef :=
  ⟨"RECORD_CHn_STORED_LO", 0xA01048, 4, 0x100, 1, 0, [0],
   [⟨"COUNT", 31, 0, .ro⟩]⟩

/-- RECORD_CHn_STORED_HI, R170. -/
def R.RECORD_CHn_STORED_HI : RegDef :=
  ⟨"RECORD_CHn_STORED_HI", 0xA0104C, 4, 0x100, 1, 0, [0],
   [⟨"COUNT", 31, 0, .ro⟩]⟩

/-- RECORD_CHn_CLOCK_CNT, R170. -/
def R.RECORD_CHn_CLOCK_CNT : RegDef :=
  ⟨"RECORD_CHn_CLOCK_CNT", 0xA01050, 4, 0x100, 1, 0, [0],
   [⟨"COUNT", 31, 0, .w1c⟩]⟩

/-- RECORD_CHn_HELD_CNT, R170. -/
def R.RECORD_CHn_HELD_CNT : RegDef :=
  ⟨"RECORD_CHn_HELD_CNT", 0xA01054, 4, 0x100, 1, 0, [0],
   [⟨"COUNT", 8, 0, .ro⟩]⟩

/-- RECORD_CHn_SETTLE_LEFT, R170. -/
def R.RECORD_CHn_SETTLE_LEFT : RegDef :=
  ⟨"RECORD_CHn_SETTLE_LEFT", 0xA01058, 4, 0x100, 1, 0, [0],
   [⟨"SAMPLES", 31, 0, .ro⟩]⟩

/-- AFTERGLOW_COMMIT, R189. -/
def R.AFTERGLOW_COMMIT : RegDef :=
  ⟨"AFTERGLOW_COMMIT", 0xC00000, 1, 0, 1, 0, [0],
   [⟨"GO", 0, 0, .wo⟩]⟩

/-- AFTERGLOW_COMMIT_STAT, R189. -/
def R.AFTERGLOW_COMMIT_STAT : RegDef :=
  ⟨"AFTERGLOW_COMMIT_STAT", 0xC00004, 1, 0, 1, 0, [0],
   [⟨"REJ_OWNED", 1, 1, .w1c⟩, ⟨"PENDING", 0, 0, .ro⟩]⟩

/-- AFTERGLOW_CHn_CTRL, R189. -/
def R.AFTERGLOW_CHn_CTRL : RegDef :=
  ⟨"AFTERGLOW_CHn_CTRL", 0xC01000, 4, 0x100, 1, 0, [0],
   [⟨"HSHIFT", 20, 16, .rws⟩, ⟨"EXCL10", 9, 9, .rws⟩, ⟨"EXCL01", 8, 8, .rws⟩, ⟨"MASK_EN", 3, 3, .rws⟩, ⟨"ENV_EN", 2, 2, .rws⟩, ⟨"SUM_EN", 1, 1, .rws⟩, ⟨"HIST_EN", 0, 0, .rws⟩]⟩

/-- AFTERGLOW_CHn_STAT, R189. -/
def R.AFTERGLOW_CHn_STAT : RegDef :=
  ⟨"AFTERGLOW_CHn_STAT", 0xC01004, 4, 0x100, 1, 0, [0],
   [⟨"READING", 6, 6, .ro⟩, ⟨"CLEAR_PENDING", 5, 5, .ro⟩, ⟨"MASK_FAIL", 4, 4, .w1c⟩, ⟨"POISON", 3, 3, .w1c⟩, ⟨"SAT", 2, 2, .w1c⟩, ⟨"RECOMPUTED", 1, 1, .w1c⟩, ⟨"ACTIVE", 0, 0, .ro⟩]⟩

/-- AFTERGLOW_CHn_WINDOWS_CNT, R189. -/
def R.AFTERGLOW_CHn_WINDOWS_CNT : RegDef :=
  ⟨"AFTERGLOW_CHn_WINDOWS_CNT", 0xC01008, 4, 0x100, 1, 0, [0],
   [⟨"COUNT", 31, 0, .w1c⟩]⟩

/-- AFTERGLOW_CHn_WIDE_CNT, R189. -/
def R.AFTERGLOW_CHn_WIDE_CNT : RegDef :=
  ⟨"AFTERGLOW_CHn_WIDE_CNT", 0xC0100C, 4, 0x100, 1, 0, [0],
   [⟨"COUNT", 31, 0, .w1c⟩]⟩

/-- AFTERGLOW_CHn_EXCL_CNT, R189. -/
def R.AFTERGLOW_CHn_EXCL_CNT : RegDef :=
  ⟨"AFTERGLOW_CHn_EXCL_CNT", 0xC01010, 4, 0x100, 1, 0, [0],
   [⟨"COUNT", 31, 0, .w1c⟩]⟩

/-- AFTERGLOW_CHn_SAT_CNT, R189. -/
def R.AFTERGLOW_CHn_SAT_CNT : RegDef :=
  ⟨"AFTERGLOW_CHn_SAT_CNT", 0xC01014, 4, 0x100, 1, 0, [0],
   [⟨"COUNT", 31, 0, .w1c⟩]⟩

/-- AFTERGLOW_CHn_POISON_CNT, R189. -/
def R.AFTERGLOW_CHn_POISON_CNT : RegDef :=
  ⟨"AFTERGLOW_CHn_POISON_CNT", 0xC01018, 4, 0x100, 1, 0, [0],
   [⟨"COUNT", 31, 0, .w1c⟩]⟩

/-- AFTERGLOW_CHn_RECOMP_CNT, R189. -/
def R.AFTERGLOW_CHn_RECOMP_CNT : RegDef :=
  ⟨"AFTERGLOW_CHn_RECOMP_CNT", 0xC0101C, 4, 0x100, 1, 0, [0],
   [⟨"COUNT", 31, 0, .w1c⟩]⟩

/-- AFTERGLOW_CHn_SUM_RECORDS_LO, R189. -/
def R.AFTERGLOW_CHn_SUM_RECORDS_LO : RegDef :=
  ⟨"AFTERGLOW_CHn_SUM_RECORDS_LO", 0xC01020, 4, 0x100, 1, 0, [0],
   [⟨"COUNT", 31, 0, .ro⟩]⟩

/-- AFTERGLOW_CHn_SUM_RECORDS_HI, R189. -/
def R.AFTERGLOW_CHn_SUM_RECORDS_HI : RegDef :=
  ⟨"AFTERGLOW_CHn_SUM_RECORDS_HI", 0xC01024, 4, 0x100, 1, 0, [0],
   [⟨"COUNT", 7, 0, .ro⟩]⟩

/-- AFTERGLOW_CHn_SUM_SKIP_CNT, R189. -/
def R.AFTERGLOW_CHn_SUM_SKIP_CNT : RegDef :=
  ⟨"AFTERGLOW_CHn_SUM_SKIP_CNT", 0xC01028, 4, 0x100, 1, 0, [0],
   [⟨"COUNT", 31, 0, .w1c⟩]⟩

/-- AFTERGLOW_CHn_MASK_TESTED_CNT, R189. -/
def R.AFTERGLOW_CHn_MASK_TESTED_CNT : RegDef :=
  ⟨"AFTERGLOW_CHn_MASK_TESTED_CNT", 0xC0102C, 4, 0x100, 1, 0, [0],
   [⟨"COUNT", 31, 0, .ro⟩]⟩

/-- AFTERGLOW_CHn_MASK_FAIL_CNT, R189. -/
def R.AFTERGLOW_CHn_MASK_FAIL_CNT : RegDef :=
  ⟨"AFTERGLOW_CHn_MASK_FAIL_CNT", 0xC01030, 4, 0x100, 1, 0, [0],
   [⟨"COUNT", 31, 0, .ro⟩]⟩

/-- AFTERGLOW_CHn_MASK_FIRST_LO, R189. -/
def R.AFTERGLOW_CHn_MASK_FIRST_LO : RegDef :=
  ⟨"AFTERGLOW_CHn_MASK_FIRST_LO", 0xC01034, 4, 0x100, 1, 0, [0],
   [⟨"STAMP", 31, 0, .ro⟩]⟩

/-- AFTERGLOW_CHn_MASK_FIRST_HI, R189. -/
def R.AFTERGLOW_CHn_MASK_FIRST_HI : RegDef :=
  ⟨"AFTERGLOW_CHn_MASK_FIRST_HI", 0xC01038, 4, 0x100, 1, 0, [0],
   [⟨"STAMP", 31, 0, .ro⟩]⟩

/-- AFTERGLOW_CHn_MASK_FIRST_NUM, R189. -/
def R.AFTERGLOW_CHn_MASK_FIRST_NUM : RegDef :=
  ⟨"AFTERGLOW_CHn_MASK_FIRST_NUM", 0xC0103C, 4, 0x100, 1, 0, [0],
   [⟨"NUMBER", 31, 0, .ro⟩]⟩

/-- AFTERGLOW_CHn_MASK_FIRST_BIN, R189. -/
def R.AFTERGLOW_CHn_MASK_FIRST_BIN : RegDef :=
  ⟨"AFTERGLOW_CHn_MASK_FIRST_BIN", 0xC01040, 4, 0x100, 1, 0, [0],
   [⟨"COLUMN", 27, 16, .ro⟩, ⟨"ROW", 9, 0, .ro⟩]⟩

/-- AFTERGLOW_CHn_CLEAR_STAMP_LO, R189. -/
def R.AFTERGLOW_CHn_CLEAR_STAMP_LO : RegDef :=
  ⟨"AFTERGLOW_CHn_CLEAR_STAMP_LO", 0xC01044, 4, 0x100, 1, 0, [0],
   [⟨"T", 31, 0, .ro⟩]⟩

/-- AFTERGLOW_CHn_CLEAR_STAMP_HI, R189. -/
def R.AFTERGLOW_CHn_CLEAR_STAMP_HI : RegDef :=
  ⟨"AFTERGLOW_CHn_CLEAR_STAMP_HI", 0xC01048, 4, 0x100, 1, 0, [0],
   [⟨"T", 31, 0, .ro⟩]⟩

/-- GB_CHF_SEL, R229. -/
def R.GB_CHF_SEL : RegDef :=
  ⟨"GB_CHF_SEL", 0x1000000, 1, 0, 1, 0, [0],
   [⟨"SET", 17, 16, .rw⟩, ⟨"INDEX", 8, 0, .rw⟩]⟩

/-- GB_CHF_DATA, R229. -/
def R.GB_CHF_DATA : RegDef :=
  ⟨"GB_CHF_DATA", 0x1000004, 1, 0, 1, 0, [0],
   [⟨"COEF", 31, 0, .ro⟩]⟩

/-- GB_ZONE_RATE, R229. -/
def R.GB_ZONE_RATE : RegDef :=
  ⟨"GB_ZONE_RATE", 0x1000008, 1, 0, 1, 0, [0],
   [⟨"RATE", 31, 0, .ro⟩]⟩

/-- GLIMMER_Ff_STAT, R229. -/
def R.GLIMMER_Ff_STAT : RegDef :=
  ⟨"GLIMMER_Ff_STAT", 0x1001000, 2, 0x100, 1, 0, [0],
   [⟨"INTEGRITY", 8, 8, .w1c⟩, ⟨"STATE_ERR", 7, 7, .w1c⟩, ⟨"RECOMPUTED", 6, 6, .w1c⟩, ⟨"FLAGGED", 5, 5, .w1c⟩, ⟨"RESYNC", 4, 4, .w1c⟩, ⟨"FADED", 3, 3, .w1c⟩, ⟨"CLK_HOLD", 2, 2, .ro⟩, ⟨"SETTLING", 1, 1, .ro⟩, ⟨"RUNNING", 0, 0, .ro⟩]⟩

/-- GLIMMER_Ff_JOB, R229. -/
def R.GLIMMER_Ff_JOB : RegDef :=
  ⟨"GLIMMER_Ff_JOB", 0x1001004, 2, 0x100, 1, 0, [0],
   [⟨"SQ", 21, 16, .ro⟩, ⟨"TAG", 15, 0, .ro⟩]⟩

/-- GLIMMER_Ff_FRAME_CNT, R229. -/
def R.GLIMMER_Ff_FRAME_CNT : RegDef :=
  ⟨"GLIMMER_Ff_FRAME_CNT", 0x1001008, 2, 0x100, 1, 0, [0],
   [⟨"COUNT", 31, 0, .w1c⟩]⟩

/-- GLIMMER_Ff_FADED_CNT, R229. -/
def R.GLIMMER_Ff_FADED_CNT : RegDef :=
  ⟨"GLIMMER_Ff_FADED_CNT", 0x100100C, 2, 0x100, 1, 0, [0],
   [⟨"COUNT", 31, 0, .w1c⟩]⟩

/-- GLIMMER_Ff_RESYNC_CNT, R229. -/
def R.GLIMMER_Ff_RESYNC_CNT : RegDef :=
  ⟨"GLIMMER_Ff_RESYNC_CNT", 0x1001010, 2, 0x100, 1, 0, [0],
   [⟨"COUNT", 31, 0, .w1c⟩]⟩

/-- GLIMMER_Ff_FLAGGED_CNT, R229. -/
def R.GLIMMER_Ff_FLAGGED_CNT : RegDef :=
  ⟨"GLIMMER_Ff_FLAGGED_CNT", 0x1001014, 2, 0x100, 1, 0, [0],
   [⟨"COUNT", 31, 0, .w1c⟩]⟩

/-- GLIMMER_Ff_RECOMP_CNT, R229. -/
def R.GLIMMER_Ff_RECOMP_CNT : RegDef :=
  ⟨"GLIMMER_Ff_RECOMP_CNT", 0x1001018, 2, 0x100, 1, 0, [0],
   [⟨"COUNT", 31, 0, .w1c⟩]⟩

/-- GLIMMER_Ff_STATE_ERR_CNT, R229. -/
def R.GLIMMER_Ff_STATE_ERR_CNT : RegDef :=
  ⟨"GLIMMER_Ff_STATE_ERR_CNT", 0x100101C, 2, 0x100, 1, 0, [0],
   [⟨"COUNT", 31, 0, .w1c⟩]⟩

/-- GLIMMER_Ff_ANCHOR_LO, R229. -/
def R.GLIMMER_Ff_ANCHOR_LO : RegDef :=
  ⟨"GLIMMER_Ff_ANCHOR_LO", 0x1001020, 2, 0x100, 1, 0, [0],
   [⟨"STAMP", 31, 0, .ro⟩]⟩

/-- GLIMMER_Ff_ANCHOR_HI, R229. -/
def R.GLIMMER_Ff_ANCHOR_HI : RegDef :=
  ⟨"GLIMMER_Ff_ANCHOR_HI", 0x1001024, 2, 0x100, 1, 0, [0],
   [⟨"STAMP", 31, 0, .ro⟩]⟩

/-- GLIMMER_Ff_LAT_MAX, R229. -/
def R.GLIMMER_Ff_LAT_MAX : RegDef :=
  ⟨"GLIMMER_Ff_LAT_MAX", 0x1001028, 2, 0x100, 1, 0, [0],
   [⟨"LAT", 31, 0, .w1c⟩]⟩

/-- GLIMMER_Ff_EMIT_SKIP_CNT, R229. -/
def R.GLIMMER_Ff_EMIT_SKIP_CNT : RegDef :=
  ⟨"GLIMMER_Ff_EMIT_SKIP_CNT", 0x100102C, 2, 0x100, 1, 0, [0],
   [⟨"COUNT", 31, 0, .w1c⟩]⟩

/-- BEACON_Bb_CTRL, R229. -/
def R.BEACON_Bb_CTRL : RegDef :=
  ⟨"BEACON_Bb_CTRL", 0x1002000, 2, 0x100, 1, 0, [0],
   [⟨"MK_INV", 5, 4, .rws⟩, ⟨"BANK", 1, 1, .rws⟩, ⟨"PLAY", 0, 0, .rws⟩]⟩

/-- BEACON_Bb_COMMIT_STAT, R229. -/
def R.BEACON_Bb_COMMIT_STAT : RegDef :=
  ⟨"BEACON_Bb_COMMIT_STAT", 0x1002008, 2, 0x100, 1, 0, [0],
   [⟨"REJ_INVALID", 3, 3, .w1c⟩, ⟨"REJ_POWER", 2, 2, .w1c⟩, ⟨"REJ_OWNED", 1, 1, .w1c⟩, ⟨"PENDING", 0, 0, .ro⟩]⟩

/-- BEACON_Bb_STAT, R229. -/
def R.BEACON_Bb_STAT : RegDef :=
  ⟨"BEACON_Bb_STAT", 0x100200C, 2, 0x100, 1, 0, [0],
   [⟨"TRUNC", 6, 6, .w1c⟩, ⟨"BANK_VALID", 5, 4, .ro⟩, ⟨"CLK_HOLD", 3, 3, .ro⟩, ⟨"OWNED", 2, 2, .ro⟩, ⟨"ACTIVE_BANK", 1, 1, .ro⟩, ⟨"PLAYING", 0, 0, .ro⟩]⟩

/-- BEACON_Bb_COMMIT, R229. -/
def R.BEACON_Bb_COMMIT : RegDef :=
  ⟨"BEACON_Bb_COMMIT", 0x1002004, 2, 0x100, 1, 0, [0],
   [⟨"GO", 0, 0, .wo⟩]⟩

/-- BEACON_Bb_START_LO, R229. -/
def R.BEACON_Bb_START_LO : RegDef :=
  ⟨"BEACON_Bb_START_LO", 0x1002010, 2, 0x100, 1, 0, [0],
   [⟨"T", 31, 0, .rws⟩]⟩

/-- BEACON_Bb_START_HI, R229. -/
def R.BEACON_Bb_START_HI : RegDef :=
  ⟨"BEACON_Bb_START_HI", 0x1002014, 2, 0x100, 1, 0, [0],
   [⟨"T", 31, 0, .rws⟩]⟩

/-- BEACON_Bb_TSTART_LO, R229. -/
def R.BEACON_Bb_TSTART_LO : RegDef :=
  ⟨"BEACON_Bb_TSTART_LO", 0x1002018, 2, 0x100, 1, 0, [0],
   [⟨"T", 31, 0, .ro⟩]⟩

/-- BEACON_Bb_TSTART_HI, R229. -/
def R.BEACON_Bb_TSTART_HI : RegDef :=
  ⟨"BEACON_Bb_TSTART_HI", 0x100201C, 2, 0x100, 1, 0, [0],
   [⟨"T", 31, 0, .ro⟩]⟩

/-- BEACON_Bb_CYCLE_LO, R229. -/
def R.BEACON_Bb_CYCLE_LO : RegDef :=
  ⟨"BEACON_Bb_CYCLE_LO", 0x1002020, 2, 0x100, 1, 0, [0],
   [⟨"COUNT", 31, 0, .ro⟩]⟩

/-- BEACON_Bb_CYCLE_HI, R229. -/
def R.BEACON_Bb_CYCLE_HI : RegDef :=
  ⟨"BEACON_Bb_CYCLE_HI", 0x1002024, 2, 0x100, 1, 0, [0],
   [⟨"COUNT", 31, 0, .ro⟩]⟩

/-- BEACON_Bb_EMIT_CNT, R229. -/
def R.BEACON_Bb_EMIT_CNT : RegDef :=
  ⟨"BEACON_Bb_EMIT_CNT", 0x1002028, 2, 0x100, 1, 0, [0],
   [⟨"COUNT", 31, 0, .w1c⟩]⟩

/-- BEACON_Bb_TRUNC_CNT, R229. -/
def R.BEACON_Bb_TRUNC_CNT : RegDef :=
  ⟨"BEACON_Bb_TRUNC_CNT", 0x100202C, 2, 0x100, 1, 0, [0],
   [⟨"COUNT", 31, 0, .w1c⟩]⟩

/-- FTEMP_In_STAT, R249. -/
def R.FTEMP_In_STAT : RegDef :=
  ⟨"FTEMP_In_STAT", 0x1401000, 2, 0x100, 1, 0, [0],
   [⟨"INVALID", 8, 8, .w1c⟩, ⟨"RECOMPUTED", 7, 7, .w1c⟩, ⟨"INTEGRITY", 6, 6, .w1c⟩, ⟨"SKIPPED", 5, 5, .w1c⟩, ⟨"REF_STALE", 4, 4, .w1c⟩, ⟨"DIR_SETTLE", 3, 3, .ro⟩, ⟨"CLK_HOLD", 2, 2, .ro⟩, ⟨"DIR", 1, 1, .ro⟩, ⟨"RUNNING", 0, 0, .ro⟩]⟩

/-- FTEMP_In_JOB, R249. -/
def R.FTEMP_In_JOB : RegDef :=
  ⟨"FTEMP_In_JOB", 0x1401004, 2, 0x100, 1, 0, [0],
   [⟨"SQ", 21, 16, .ro⟩, ⟨"TAG", 15, 0, .ro⟩]⟩

/-- FTEMP_In_FRAME_CNT, R249. -/
def R.FTEMP_In_FRAME_CNT : RegDef :=
  ⟨"FTEMP_In_FRAME_CNT", 0x1401008, 2, 0x100, 1, 0, [0],
   [⟨"COUNT", 31, 0, .w1c⟩]⟩

/-- FTEMP_In_ACC_N, R249. -/
def R.FTEMP_In_ACC_N : RegDef :=
  ⟨"FTEMP_In_ACC_N", 0x140100C, 2, 0x100, 1, 0, [0],
   [⟨"N", 31, 0, .ro⟩]⟩

/-- FTEMP_In_SKIP_CNT, R249. -/
def R.FTEMP_In_SKIP_CNT : RegDef :=
  ⟨"FTEMP_In_SKIP_CNT", 0x1401010, 2, 0x100, 1, 0, [0],
   [⟨"COUNT", 31, 0, .w1c⟩]⟩

/-- FTEMP_In_OVERLAP_CNT, R249. -/
def R.FTEMP_In_OVERLAP_CNT : RegDef :=
  ⟨"FTEMP_In_OVERLAP_CNT", 0x1401014, 2, 0x100, 1, 0, [0],
   [⟨"COUNT", 31, 0, .w1c⟩]⟩

/-- FTEMP_In_REF_STALE_CNT, R249. -/
def R.FTEMP_In_REF_STALE_CNT : RegDef :=
  ⟨"FTEMP_In_REF_STALE_CNT", 0x1401018, 2, 0x100, 1, 0, [0],
   [⟨"COUNT", 31, 0, .w1c⟩]⟩

/-- FTEMP_In_RECOMP_CNT, R249. -/
def R.FTEMP_In_RECOMP_CNT : RegDef :=
  ⟨"FTEMP_In_RECOMP_CNT", 0x140101C, 2, 0x100, 1, 0, [0],
   [⟨"COUNT", 31, 0, .w1c⟩]⟩

/-- FTEMP_In_INVALID_CNT, R249. -/
def R.FTEMP_In_INVALID_CNT : RegDef :=
  ⟨"FTEMP_In_INVALID_CNT", 0x1401020, 2, 0x100, 1, 0, [0],
   [⟨"COUNT", 31, 0, .w1c⟩]⟩

/-- FTEMP_In_C_NOW, R249. -/
def R.FTEMP_In_C_NOW : RegDef :=
  ⟨"FTEMP_In_C_NOW", 0x1401024, 2, 0x100, 1, 0, [0],
   [⟨"C", 31, 0, .ro⟩]⟩

/-- FTEMP_In_DALPHA_NOW, R249. -/
def R.FTEMP_In_DALPHA_NOW : RegDef :=
  ⟨"FTEMP_In_DALPHA_NOW", 0x1401028, 2, 0x100, 1, 0, [0],
   [⟨"DALPHA", 31, 0, .ro⟩]⟩

/-- FTEMP_In_REF0_T, R249. -/
def R.FTEMP_In_REF0_T : RegDef :=
  ⟨"FTEMP_In_REF0_T", 0x140102C, 2, 0x100, 1, 0, [0],
   [⟨"T", 31, 0, .ro⟩]⟩

/-- FTEMP_In_REF1_T, R249. -/
def R.FTEMP_In_REF1_T : RegDef :=
  ⟨"FTEMP_In_REF1_T", 0x1401030, 2, 0x100, 1, 0, [0],
   [⟨"T", 31, 0, .ro⟩]⟩

/-- FTEMP_In_ANCHOR_LO, R249. -/
def R.FTEMP_In_ANCHOR_LO : RegDef :=
  ⟨"FTEMP_In_ANCHOR_LO", 0x1401034, 2, 0x100, 1, 0, [0],
   [⟨"STAMP", 31, 0, .ro⟩]⟩

/-- FTEMP_In_ANCHOR_HI, R249. -/
def R.FTEMP_In_ANCHOR_HI : RegDef :=
  ⟨"FTEMP_In_ANCHOR_HI", 0x1401038, 2, 0x100, 1, 0, [0],
   [⟨"STAMP", 31, 0, .ro⟩]⟩

/-- FTEMP_In_LAT_MAX, R249. -/
def R.FTEMP_In_LAT_MAX : RegDef :=
  ⟨"FTEMP_In_LAT_MAX", 0x140103C, 2, 0x100, 1, 0, [0],
   [⟨"LAT", 31, 0, .w1c⟩]⟩

/-- GLINT_INn_CTRL, R277. -/
def R.GLINT_INn_CTRL : RegDef :=
  ⟨"GLINT_INn_CTRL", 0x1800000, 256, 0x100, 1, 0, [2],
   [⟨"TERM", 6, 6, .rws⟩, ⟨"SLOPE", 2, 1, .rws⟩, ⟨"ENABLE", 0, 0, .rws⟩]⟩

/-- GLINT_INn_STAT, R277. -/
def R.GLINT_INn_STAT : RegDef :=
  ⟨"GLINT_INn_STAT", 0x180000C, 256, 0x100, 1, 0, [0],
   [⟨"BORROWED", 4, 4, .ro⟩, ⟨"OWNED", 3, 3, .ro⟩, ⟨"FIFO_OVF", 2, 2, .w1c⟩, ⟨"INTERP_LOSS", 1, 1, .w1c⟩, ⟨"ACTIVE", 0, 0, .ro⟩]⟩

/-- GLINT_INn_LEVEL, R277. -/
def R.GLINT_INn_LEVEL : RegDef :=
  ⟨"GLINT_INn_LEVEL", 0x1800004, 256, 0x100, 1, 0, [0x666],
   [⟨"HYST", 21, 16, .rws⟩, ⟨"THRESH", 11, 0, .rws⟩]⟩

/-- GLINT_INn_TERM, R277. -/
def R.GLINT_INn_TERM : RegDef :=
  ⟨"GLINT_INn_TERM", 0x1800008, 256, 0x100, 1, 0, [0x666],
   [⟨"DESKEW", 31, 16, .rws⟩, ⟨"VTERM", 11, 0, .rws⟩]⟩

/-- GLINT_INn_STAMP_CNT, R277. -/
def R.GLINT_INn_STAMP_CNT : RegDef :=
  ⟨"GLINT_INn_STAMP_CNT", 0x1800010, 256, 0x100, 1, 0, [0],
   [⟨"COUNT", 31, 0, .w1c⟩]⟩

/-- GLINT_INn_LOSS_CNT, R277. -/
def R.GLINT_INn_LOSS_CNT : RegDef :=
  ⟨"GLINT_INn_LOSS_CNT", 0x1800014, 256, 0x100, 1, 0, [0],
   [⟨"COUNT", 31, 0, .w1c⟩]⟩

/-- GLINT_Gg_CTRL, R277. -/
def R.GLINT_Gg_CTRL : RegDef :=
  ⟨"GLINT_Gg_CTRL", 0x1880000, 32, 0x10, 1, 0, [0],
   [⟨"RES_SEL", 5, 0, .rw⟩]⟩

/-- GLINT_Gg_STAT, R277. -/
def R.GLINT_Gg_STAT : RegDef :=
  ⟨"GLINT_Gg_STAT", 0x1880004, 32, 0x10, 1, 0, [0],
   [⟨"CLASS", 8, 8, .ro⟩, ⟨"CLK_HOLD", 7, 7, .ro⟩, ⟨"INTEGRITY", 6, 6, .w1c⟩, ⟨"REVERSED", 5, 5, .w1c⟩, ⟨"NEAR", 4, 4, .w1c⟩, ⟨"LOSS", 3, 3, .w1c⟩, ⟨"TIME_WRAP", 2, 2, .w1c⟩, ⟨"WINDOW", 1, 1, .ro⟩, ⟨"RUNNING", 0, 0, .ro⟩]⟩

/-- GLINT_Gg_RES_HDR, R277. -/
def R.GLINT_Gg_RES_HDR : RegDef :=
  ⟨"GLINT_Gg_RES_HDR", 0x1880008, 32, 0x10, 1, 0, [0],
   [⟨"NEW", 31, 31, .ro⟩, ⟨"FLAGS", 30, 26, .ro⟩, ⟨"N_ENTRIES", 23, 16, .ro⟩, ⟨"SEQ", 15, 0, .ro⟩]⟩

/-- GLINT_Gg_RES_DATA, R277. -/
def R.GLINT_Gg_RES_DATA : RegDef :=
  ⟨"GLINT_Gg_RES_DATA", 0x188000C, 32, 0x10, 1, 0, [0],
   [⟨"WORD", 31, 0, .ro⟩]⟩

/-- GLINT_COMMIT, R277. -/
def R.GLINT_COMMIT : RegDef :=
  ⟨"GLINT_COMMIT", 0x1881000, 1, 0, 1, 0, [0],
   [⟨"GO", 0, 0, .wo⟩]⟩

/-- GLINT_COMMIT_STAT, R277. -/
def R.GLINT_COMMIT_STAT : RegDef :=
  ⟨"GLINT_COMMIT_STAT", 0x1881004, 1, 0, 1, 0, [0],
   [⟨"REJ_WHERE", 24, 16, .ro⟩, ⟨"REJ_OWNED", 1, 1, .w1c⟩, ⟨"PENDING", 0, 0, .ro⟩]⟩

/-- GLINT_GATEp, R277. -/
def R.GLINT_GATEp : RegDef :=
  ⟨"GLINT_GATEp", 0x1881010, 4, 4, 1, 0, [0x666],
   [⟨"TERM", 24, 24, .rws⟩, ⟨"HYST", 21, 16, .rws⟩, ⟨"THRESH", 11, 0, .rws⟩]⟩

/-- GLINT_STAMP_RATE, R277. -/
def R.GLINT_STAMP_RATE : RegDef :=
  ⟨"GLINT_STAMP_RATE", 0x1881020, 1, 0, 1, 0, [0],
   [⟨"RATE", 31, 0, .ro⟩]⟩

/-- GLINT_GATE_SKIP_CNT, R277. -/
def R.GLINT_GATE_SKIP_CNT : RegDef :=
  ⟨"GLINT_GATE_SKIP_CNT", 0x1881024, 1, 0, 1, 0, [0],
   [⟨"COUNT", 31, 0, .w1c⟩]⟩

/-- LUMEN_Tt_STAT, R318. -/
def R.LUMEN_Tt_STAT : RegDef :=
  ⟨"LUMEN_Tt_STAT", 0x2000000, 256, 0x1000, 1, 0, [0],
   [⟨"GANG", 12, 11, .ro⟩, ⟨"LEAD", 10, 10, .ro⟩, ⟨"RETAINED", 9, 9, .ro⟩, ⟨"LOADED", 8, 8, .ro⟩, ⟨"NAN", 7, 7, .w1c⟩, ⟨"SAT", 6, 6, .w1c⟩, ⟨"AOV", 5, 5, .w1c⟩, ⟨"PARITY", 4, 4, .w1c⟩, ⟨"FAULT", 3, 3, .ro⟩, ⟨"HALTED", 2, 2, .ro⟩, ⟨"WAITING", 1, 1, .ro⟩, ⟨"RUNNING", 0, 0, .ro⟩]⟩

/-- LUMEN_Tt_FAULT, R318. -/
def R.LUMEN_Tt_FAULT : RegDef :=
  ⟨"LUMEN_Tt_FAULT", 0x2000004, 256, 0x1000, 1, 0, [0],
   [⟨"PC", 26, 16, .ro⟩, ⟨"CODE", 7, 0, .ro⟩]⟩

/-- LUMEN_Tt_PC, R318. -/
def R.LUMEN_Tt_PC : RegDef :=
  ⟨"LUMEN_Tt_PC", 0x2000008, 256, 0x1000, 1, 0, [0],
   [⟨"PC", 10, 0, .ro⟩]⟩

/-- LUMEN_Tt_JOB, R318. -/
def R.LUMEN_Tt_JOB : RegDef :=
  ⟨"LUMEN_Tt_JOB", 0x200000C, 256, 0x1000, 1, 0, [0],
   [⟨"SQ", 21, 16, .ro⟩, ⟨"TAG", 15, 0, .ro⟩]⟩

/-- LUMEN_Tt_MAIL, R318. -/
def R.LUMEN_Tt_MAIL : RegDef :=
  ⟨"LUMEN_Tt_MAIL", 0x2000010, 256, 0x1000, 1, 0, [0],
   [⟨"VALUE", 31, 0, .rw⟩]⟩

/-- LUMEN_Tt_CYCLE_LO, R318. -/
def R.LUMEN_Tt_CYCLE_LO : RegDef :=
  ⟨"LUMEN_Tt_CYCLE_LO", 0x2000014, 256, 0x1000, 1, 0, [0],
   [⟨"COUNT", 31, 0, .ro⟩]⟩

/-- LUMEN_Tt_CYCLE_HI, R318. -/
def R.LUMEN_Tt_CYCLE_HI : RegDef :=
  ⟨"LUMEN_Tt_CYCLE_HI", 0x2000018, 256, 0x1000, 1, 0, [0],
   [⟨"COUNT", 31, 0, .ro⟩]⟩

/-- LUMEN_Tt_ITEM_CNT, R318. -/
def R.LUMEN_Tt_ITEM_CNT : RegDef :=
  ⟨"LUMEN_Tt_ITEM_CNT", 0x200001C, 256, 0x1000, 1, 0, [0],
   [⟨"COUNT", 31, 0, .w1c⟩]⟩

/-- LUMEN_Tt_OUT_CNT, R318. -/
def R.LUMEN_Tt_OUT_CNT : RegDef :=
  ⟨"LUMEN_Tt_OUT_CNT", 0x2000020, 256, 0x1000, 1, 0, [0],
   [⟨"COUNT", 31, 0, .w1c⟩]⟩

/-- LUMEN_Tt_LOST_CNT, R318. -/
def R.LUMEN_Tt_LOST_CNT : RegDef :=
  ⟨"LUMEN_Tt_LOST_CNT", 0x2000024, 256, 0x1000, 1, 0, [0],
   [⟨"COUNT", 31, 0, .w1c⟩]⟩

/-- LUMEN_Tt_PAR_CNT, R318. -/
def R.LUMEN_Tt_PAR_CNT : RegDef :=
  ⟨"LUMEN_Tt_PAR_CNT", 0x2000028, 256, 0x1000, 1, 0, [0],
   [⟨"COUNT", 31, 0, .w1c⟩]⟩

/-- LUMEN_Tt_RECOMP_CNT, R318. -/
def R.LUMEN_Tt_RECOMP_CNT : RegDef :=
  ⟨"LUMEN_Tt_RECOMP_CNT", 0x200002C, 256, 0x1000, 1, 0, [0],
   [⟨"COUNT", 31, 0, .w1c⟩]⟩

/-- LUMEN_Tt_IRQ_CNT, R318. -/
def R.LUMEN_Tt_IRQ_CNT : RegDef :=
  ⟨"LUMEN_Tt_IRQ_CNT", 0x2000030, 256, 0x1000, 1, 0, [0],
   [⟨"COUNT", 31, 0, .w1c⟩]⟩

/-- LUMEN_Tt_MAXITEM, R318. -/
def R.LUMEN_Tt_MAXITEM : RegDef :=
  ⟨"LUMEN_Tt_MAXITEM", 0x2000034, 256, 0x1000, 1, 0, [0],
   [⟨"CYCLES", 31, 0, .w1c⟩]⟩

/-- LUMEN_STAT, R318. -/
def R.LUMEN_STAT : RegDef :=
  ⟨"LUMEN_STAT", 0x2100000, 1, 0, 1, 0, [0],
   [⟨"RUNNING", 8, 0, .ro⟩]⟩

/-- LUMEN_HELD_PAGES, R318. -/
def R.LUMEN_HELD_PAGES : RegDef :=
  ⟨"LUMEN_HELD_PAGES", 0x2100004, 1, 0, 1, 0, [0],
   [⟨"PAGES", 15, 0, .ro⟩]⟩

/-- LUMEN_FAULT_CNT, R318. -/
def R.LUMEN_FAULT_CNT : RegDef :=
  ⟨"LUMEN_FAULT_CNT", 0x2100008, 1, 0, 1, 0, [0],
   [⟨"COUNT", 31, 0, .w1c⟩]⟩

/-- LUMEN_PAR_CNT, R318. -/
def R.LUMEN_PAR_CNT : RegDef :=
  ⟨"LUMEN_PAR_CNT", 0x210000C, 1, 0, 1, 0, [0],
   [⟨"COUNT", 31, 0, .w1c⟩]⟩

/-- POOL_STAT, R334. -/
def R.POOL_STAT : RegDef :=
  ⟨"POOL_STAT", 0x3000000, 1, 0, 1, 0, [0],
   [⟨"DEGRADED", 3, 3, .ro⟩, ⟨"MARCH_HOLD", 2, 2, .ro⟩, ⟨"PAR", 1, 1, .w1c⟩, ⟨"TESTED", 0, 0, .ro⟩]⟩

/-- POOL_MARCH_CTRL, R334. -/
def R.POOL_MARCH_CTRL : RegDef :=
  ⟨"POOL_MARCH_CTRL", 0x3000020, 1, 0, 1, 0, [0xE],
   [⟨"SIDE_MASK", 3, 2, .rw⟩, ⟨"MODE", 1, 1, .rw⟩, ⟨"GO", 0, 0, .wo⟩]⟩

/-- POOL_MARCH_STAT, R334. -/
def R.POOL_MARCH_STAT : RegDef :=
  ⟨"POOL_MARCH_STAT", 0x3000024, 1, 0, 1, 0, [0],
   [⟨"BANK", 21, 16, .ro⟩, ⟨"INCOMPLETE", 4, 4, .w1c⟩, ⟨"REJ_BUSY", 3, 3, .w1c⟩, ⟨"FAIL", 2, 2, .ro⟩, ⟨"DONE", 1, 1, .w1c⟩, ⟨"BUSY", 0, 0, .ro⟩]⟩

/-- POOL_FREE, R334. -/
def R.POOL_FREE : RegDef :=
  ⟨"POOL_FREE", 0x3000004, 1, 0, 1, 0, [0],
   [⟨"SIDE_B", 31, 16, .ro⟩, ⟨"SIDE_A", 15, 0, .ro⟩]⟩

/-- POOL_LONGEST, R334. -/
def R.POOL_LONGEST : RegDef :=
  ⟨"POOL_LONGEST", 0x3000008, 1, 0, 1, 0, [0],
   [⟨"SIDE_B", 31, 16, .ro⟩, ⟨"SIDE_A", 15, 0, .ro⟩]⟩

/-- POOL_PAR_CNT, R334. -/
def R.POOL_PAR_CNT : RegDef :=
  ⟨"POOL_PAR_CNT", 0x300000C, 1, 0, 1, 0, [0],
   [⟨"COUNT", 31, 0, .w1c⟩]⟩

/-- POOL_PAR_ADDR, R334. -/
def R.POOL_PAR_ADDR : RegDef :=
  ⟨"POOL_PAR_ADDR", 0x3000010, 1, 0, 1, 0, [0],
   [⟨"PORT", 31, 30, .ro⟩, ⟨"ADDR", 24, 0, .ro⟩]⟩

/-- POOL_MGMT_REPAIR_CNT, R334. -/
def R.POOL_MGMT_REPAIR_CNT : RegDef :=
  ⟨"POOL_MGMT_REPAIR_CNT", 0x3000014, 1, 0, 1, 0, [0],
   [⟨"COUNT", 31, 0, .w1c⟩]⟩

/-- POOL_MGMT_FAIL_CNT, R334. -/
def R.POOL_MGMT_FAIL_CNT : RegDef :=
  ⟨"POOL_MGMT_FAIL_CNT", 0x3000018, 1, 0, 1, 0, [0],
   [⟨"COUNT", 31, 0, .w1c⟩]⟩

/-- POOL_WAIT_MAX, R334. -/
def R.POOL_WAIT_MAX : RegDef :=
  ⟨"POOL_WAIT_MAX", 0x300001C, 1, 0, 1, 0, [0],
   [⟨"CYCLES", 11, 0, .w1c⟩]⟩

/-- POOL_MARCH_FAIL_LO, R334. -/
def R.POOL_MARCH_FAIL_LO : RegDef :=
  ⟨"POOL_MARCH_FAIL_LO", 0x3000028, 1, 0, 1, 0, [0],
   [⟨"BANKS", 31, 0, .ro⟩]⟩

/-- POOL_MARCH_FAIL_HI, R334. -/
def R.POOL_MARCH_FAIL_HI : RegDef :=
  ⟨"POOL_MARCH_FAIL_HI", 0x300002C, 1, 0, 1, 0, [0],
   [⟨"BANKS", 31, 0, .ro⟩]⟩

/-- POOL_MARCH_FIRST, R334. -/
def R.POOL_MARCH_FIRST : RegDef :=
  ⟨"POOL_MARCH_FIRST", 0x3000030, 1, 0, 1, 0, [0],
   [⟨"BKG", 31, 29, .ro⟩, ⟨"ADDR", 24, 0, .ro⟩]⟩

/-- POOL_MARCH_TIME, R334. -/
def R.POOL_MARCH_TIME : RegDef :=
  ⟨"POOL_MARCH_TIME", 0x3000034, 1, 0, 1, 0, [0],
   [⟨"US", 31, 0, .ro⟩]⟩

/-- POOL_MARCH_RUN_CNT, R334. -/
def R.POOL_MARCH_RUN_CNT : RegDef :=
  ⟨"POOL_MARCH_RUN_CNT", 0x3000038, 1, 0, 1, 0, [0],
   [⟨"COUNT", 31, 0, .w1c⟩]⟩

/-- POOL_RETIRED, R334. -/
def R.POOL_RETIRED : RegDef :=
  ⟨"POOL_RETIRED", 0x300003C, 1, 0, 1, 0, [0],
   [⟨"PAGES", 12, 0, .ro⟩]⟩

/-- HBMC_STAT, R378. -/
def R.HBMC_STAT : RegDef :=
  ⟨"HBMC_STAT", 0x3200000, 1, 0, 1, 0, [0],
   [⟨"OFFLINE", 3, 2, .ro⟩, ⟨"TRAINED", 1, 0, .ro⟩]⟩

/-- HBMC_TRAIN_TIME, R378. -/
def R.HBMC_TRAIN_TIME : RegDef :=
  ⟨"HBMC_TRAIN_TIME", 0x3200004, 1, 0, 1, 0, [0],
   [⟨"US", 31, 0, .ro⟩]⟩

/-- HBMC_Ss_CTRL, R378. -/
def R.HBMC_Ss_CTRL : RegDef :=
  ⟨"HBMC_Ss_CTRL", 0x3201000, 2, 0x100, 1, 0, [0x40100],
   [⟨"GRAIN", 19, 16, .rws⟩, ⟨"NR_PROB", 15, 0, .rws⟩]⟩

/-- HBMC_Ss_STAT, R378. -/
def R.HBMC_Ss_STAT : RegDef :=
  ⟨"HBMC_Ss_STAT", 0x3201010, 2, 0x100, 1, 0, [0],
   [⟨"CRC", 6, 6, .w1c⟩, ⟨"OVERDUE", 5, 5, .w1c⟩, ⟨"SREF", 4, 4, .ro⟩, ⟨"DRAIN", 3, 3, .ro⟩, ⟨"HOT", 2, 2, .ro⟩, ⟨"OFFLINE", 1, 1, .ro⟩, ⟨"TRAINED", 0, 0, .ro⟩]⟩

/-- HBMC_Ss_WM, R378. -/
def R.HBMC_Ss_WM : RegDef :=
  ⟨"HBMC_Ss_WM", 0x3201004, 2, 0x100, 1, 0, [0x300010],
   [⟨"HIGH", 21, 16, .rws⟩, ⟨"LOW", 5, 0, .rws⟩]⟩

/-- HBMC_Ss_COMMIT, R378. -/
def R.HBMC_Ss_COMMIT : RegDef :=
  ⟨"HBMC_Ss_COMMIT", 0x3201008, 2, 0x100, 1, 0, [0],
   [⟨"GO", 0, 0, .wo⟩]⟩

/-- HBMC_Ss_COMMIT_STAT, R378. -/
def R.HBMC_Ss_COMMIT_STAT : RegDef :=
  ⟨"HBMC_Ss_COMMIT_STAT", 0x320100C, 2, 0x100, 1, 0, [0],
   [⟨"REJ_INVALID", 2, 2, .w1c⟩, ⟨"REJ_BUSY", 1, 1, .w1c⟩, ⟨"PENDING", 0, 0, .ro⟩]⟩

/-- HBMC_Ss_TEMP, R378. -/
def R.HBMC_Ss_TEMP : RegDef :=
  ⟨"HBMC_Ss_TEMP", 0x3201014, 2, 0x100, 1, 0, [0],
   [⟨"TEMP", 7, 0, .ro⟩]⟩

/-- HBMC_Ss_PC_FAIL, R378. -/
def R.HBMC_Ss_PC_FAIL : RegDef :=
  ⟨"HBMC_Ss_PC_FAIL", 0x3201018, 2, 0x100, 1, 0, [0],
   [⟨"PC", 31, 0, .ro⟩]⟩

/-- HBMC_Ss_EYE_MIN, R378. -/
def R.HBMC_Ss_EYE_MIN : RegDef :=
  ⟨"HBMC_Ss_EYE_MIN", 0x320101C, 2, 0x100, 1, 0, [0],
   [⟨"WR_EYE", 30, 24, .ro⟩, ⟨"WR_LANE", 23, 16, .ro⟩, ⟨"RD_EYE", 14, 8, .ro⟩, ⟨"RD_LANE", 7, 0, .ro⟩]⟩

/-- HBMC_Ss_REPAIR_CNT, R378. -/
def R.HBMC_Ss_REPAIR_CNT : RegDef :=
  ⟨"HBMC_Ss_REPAIR_CNT", 0x3201020, 2, 0x100, 1, 0, [0],
   [⟨"LANES", 7, 0, .ro⟩]⟩

/-- HBMC_Ss_TRACK_CNT, R378. -/
def R.HBMC_Ss_TRACK_CNT : RegDef :=
  ⟨"HBMC_Ss_TRACK_CNT", 0x3201024, 2, 0x100, 1, 0, [0],
   [⟨"COUNT", 31, 0, .w1c⟩]⟩

/-- HBMC_Ss_CRC_CNT, R378. -/
def R.HBMC_Ss_CRC_CNT : RegDef :=
  ⟨"HBMC_Ss_CRC_CNT", 0x3201028, 2, 0x100, 1, 0, [0],
   [⟨"COUNT", 31, 0, .w1c⟩]⟩

/-- HBMC_Ss_NIB_CNT, R378. -/
def R.HBMC_Ss_NIB_CNT : RegDef :=
  ⟨"HBMC_Ss_NIB_CNT", 0x320102C, 2, 0x100, 1, 0, [0],
   [⟨"COUNT", 31, 0, .w1c⟩]⟩

/-- HBMC_Ss_ERR_ADDR_LO, R378. -/
def R.HBMC_Ss_ERR_ADDR_LO : RegDef :=
  ⟨"HBMC_Ss_ERR_ADDR_LO", 0x3201030, 2, 0x100, 1, 0, [0],
   [⟨"ADDR", 31, 0, .ro⟩]⟩

/-- HBMC_Ss_ERR_ADDR_HI, R378. -/
def R.HBMC_Ss_ERR_ADDR_HI : RegDef :=
  ⟨"HBMC_Ss_ERR_ADDR_HI", 0x3201034, 2, 0x100, 1, 0, [0],
   [⟨"ADDR", 3, 0, .ro⟩]⟩

/-- HBMC_Ss_NR_CNT, R378. -/
def R.HBMC_Ss_NR_CNT : RegDef :=
  ⟨"HBMC_Ss_NR_CNT", 0x3201038, 2, 0x100, 1, 0, [0],
   [⟨"COUNT", 31, 0, .w1c⟩]⟩

/-- HBMC_Ss_FWD_CNT, R378. -/
def R.HBMC_Ss_FWD_CNT : RegDef :=
  ⟨"HBMC_Ss_FWD_CNT", 0x320103C, 2, 0x100, 1, 0, [0],
   [⟨"COUNT", 31, 0, .w1c⟩]⟩

/-- HBMC_Ss_DRAIN_CNT, R378. -/
def R.HBMC_Ss_DRAIN_CNT : RegDef :=
  ⟨"HBMC_Ss_DRAIN_CNT", 0x3201040, 2, 0x100, 1, 0, [0],
   [⟨"COUNT", 31, 0, .w1c⟩]⟩

/-- HBMC_Ss_URGENT_CNT, R378. -/
def R.HBMC_Ss_URGENT_CNT : RegDef :=
  ⟨"HBMC_Ss_URGENT_CNT", 0x3201044, 2, 0x100, 1, 0, [0],
   [⟨"COUNT", 31, 0, .w1c⟩]⟩

/-- HBMC_Ss_OVERDUE_CNT, R378. -/
def R.HBMC_Ss_OVERDUE_CNT : RegDef :=
  ⟨"HBMC_Ss_OVERDUE_CNT", 0x3201048, 2, 0x100, 1, 0, [0],
   [⟨"COUNT", 31, 0, .w1c⟩]⟩

/-- HBMC_Ss_SREF_CNT, R378. -/
def R.HBMC_Ss_SREF_CNT : RegDef :=
  ⟨"HBMC_Ss_SREF_CNT", 0x320104C, 2, 0x100, 1, 0, [0],
   [⟨"COUNT", 31, 0, .w1c⟩]⟩

/-- HBMC_Ss_POISON_CNT, R378. -/
def R.HBMC_Ss_POISON_CNT : RegDef :=
  ⟨"HBMC_Ss_POISON_CNT", 0x3201050, 2, 0x100, 1, 0, [0],
   [⟨"COUNT", 31, 0, .w1c⟩]⟩

/-- HBMC_Ss_LTp, R378. -/
def R.HBMC_Ss_LTp : RegDef :=
  ⟨"HBMC_Ss_LTp", 0x3201060, 2, 0x100, 8, 4, [0x1F4, 0x3E8, 0x7D0, 0x3E8, 0x7D0, 0x7D0, 0x7D0, 0xFA0],
   [⟨"LT", 15, 0, .rws⟩]⟩

/-- HBMC_Ss_MAXLATp, R378. -/
def R.HBMC_Ss_MAXLATp : RegDef :=
  ⟨"HBMC_Ss_MAXLATp", 0x3201080, 2, 0x100, 8, 4, [0, 0, 0, 0, 0, 0, 0, 0],
   [⟨"LAT", 15, 0, .w1c⟩]⟩

/-- CLOCK_SSYN_CTRL, R400. -/
def R.CLOCK_SSYN_CTRL : RegDef :=
  ⟨"CLOCK_SSYN_CTRL", 0x3400008, 1, 0, 1, 0, [0x130],
   [⟨"AUTO_XIN", 8, 8, .rws⟩, ⟨"REFIN_FREQ", 6, 4, .rws⟩, ⟨"SRC", 1, 0, .rws⟩]⟩

/-- CLOCK_SSYN_STAT, R400. -/
def R.CLOCK_SSYN_STAT : RegDef :=
  ⟨"CLOCK_SSYN_STAT", 0x3400010, 1, 0, 1, 0, [0],
   [⟨"STEPPING", 7, 7, .ro⟩, ⟨"REF_LOST", 6, 6, .w1c⟩, ⟨"LOCK_LOST", 5, 5, .w1c⟩, ⟨"ON_XIN", 4, 4, .ro⟩, ⟨"RETURN_WAIT", 3, 3, .ro⟩, ⟨"COASTING", 2, 2, .ro⟩, ⟨"REF_PRESENT", 1, 1, .ro⟩, ⟨"LOCKED", 0, 0, .ro⟩]⟩

/-- CLOCK_COMMIT, R400. -/
def R.CLOCK_COMMIT : RegDef :=
  ⟨"CLOCK_COMMIT", 0x3400000, 1, 0, 1, 0, [0],
   [⟨"GO", 0, 0, .wo⟩]⟩

/-- CLOCK_COMMIT_STAT, R400. -/
def R.CLOCK_COMMIT_STAT : RegDef :=
  ⟨"CLOCK_COMMIT_STAT", 0x3400004, 1, 0, 1, 0, [0],
   [⟨"REJ_INVALID", 2, 2, .w1c⟩, ⟨"REJ_BUSY", 1, 1, .w1c⟩, ⟨"PENDING", 0, 0, .ro⟩]⟩

/-- CLOCK_SSYN_DIV, R400. -/
def R.CLOCK_SSYN_DIV : RegDef :=
  ⟨"CLOCK_SSYN_DIV", 0x340000C, 1, 0, 1, 0, [0x100A0],
   [⟨"REF_DIV", 23, 16, .rws⟩, ⟨"FB_DIV", 10, 0, .rws⟩]⟩

/-- CLOCK_REFRET_WINDOW, R400. -/
def R.CLOCK_REFRET_WINDOW : RegDef :=
  ⟨"CLOCK_REFRET_WINDOW", 0x3400014, 1, 0, 1, 0, [0x200],
   [⟨"WINDOW", 19, 0, .rw⟩]⟩

/-- CLOCK_REFRET_CMD, R400. -/
def R.CLOCK_REFRET_CMD : RegDef :=
  ⟨"CLOCK_REFRET_CMD", 0x3400018, 1, 0, 1, 0, [0],
   [⟨"BUILD_OUT", 0, 0, .wo⟩]⟩

/-- CLOCK_REFRET_STEP, R400. -/
def R.CLOCK_REFRET_STEP : RegDef :=
  ⟨"CLOCK_REFRET_STEP", 0x340001C, 1, 0, 1, 0, [0],
   [⟨"STEP", 31, 0, .ro⟩]⟩

/-- CLOCK_COAST_LIMIT, R400. -/
def R.CLOCK_COAST_LIMIT : RegDef :=
  ⟨"CLOCK_COAST_LIMIT", 0x3400020, 1, 0, 1, 0, [0xA],
   [⟨"S", 15, 0, .rw⟩]⟩

/-- CLOCK_HOLD, R400. -/
def R.CLOCK_HOLD : RegDef :=
  ⟨"CLOCK_HOLD", 0x3400024, 1, 0, 1, 0, [0],
   [⟨"TUNE", 31, 16, .ro⟩, ⟨"DAC", 15, 0, .ro⟩]⟩

/-- CLOCK_PHASE_TOL, R400. -/
def R.CLOCK_PHASE_TOL : RegDef :=
  ⟨"CLOCK_PHASE_TOL", 0x3400028, 1, 0, 1, 0, [0x64],
   [⟨"PS", 9, 0, .rw⟩]⟩

/-- CLOCK_TIME_LO, R400. -/
def R.CLOCK_TIME_LO : RegDef :=
  ⟨"CLOCK_TIME_LO", 0x3400030, 1, 0, 1, 0, [0],
   [⟨"TIME", 31, 0, .ro⟩]⟩

/-- CLOCK_TIME_HI, R400. -/
def R.CLOCK_TIME_HI : RegDef :=
  ⟨"CLOCK_TIME_HI", 0x3400034, 1, 0, 1, 0, [0],
   [⟨"TIME", 31, 0, .ro⟩]⟩

/-- CLOCK_EPOCH, R400. -/
def R.CLOCK_EPOCH : RegDef :=
  ⟨"CLOCK_EPOCH", 0x3400038, 1, 0, 1, 0, [0],
   [⟨"EPOCH", 31, 0, .ro⟩]⟩

/-- CLOCK_CPLL_STAT, R400. -/
def R.CLOCK_CPLL_STAT : RegDef :=
  ⟨"CLOCK_CPLL_STAT", 0x340003C, 1, 0, 1, 0, [0],
   [⟨"LOCK_LOST", 2, 2, .w1c⟩, ⟨"FALLBACK", 1, 1, .ro⟩, ⟨"LOCKED", 0, 0, .ro⟩]⟩

/-- CLOCK_MPLL_STAT, R400. -/
def R.CLOCK_MPLL_STAT : RegDef :=
  ⟨"CLOCK_MPLL_STAT", 0x3400040, 1, 0, 1, 0, [0],
   [⟨"LOCK_LOST", 1, 1, .w1c⟩, ⟨"LOCKED", 0, 0, .ro⟩]⟩

/-- CLOCK_REF_STAT, R400. -/
def R.CLOCK_REF_STAT : RegDef :=
  ⟨"CLOCK_REF_STAT", 0x3400044, 1, 0, 1, 0, [0],
   [⟨"ERN", 2, 2, .ro⟩, ⟨"REFIN", 1, 1, .ro⟩, ⟨"XIN", 0, 0, .ro⟩]⟩

/-- CLOCK_REFIN_MEAS, R400. -/
def R.CLOCK_REFIN_MEAS : RegDef :=
  ⟨"CLOCK_REFIN_MEAS", 0x3400048, 1, 0, 1, 0, [0],
   [⟨"KHZ", 17, 0, .ro⟩]⟩

/-- CLOCK_SSYN_LOSS_CNT, R400. -/
def R.CLOCK_SSYN_LOSS_CNT : RegDef :=
  ⟨"CLOCK_SSYN_LOSS_CNT", 0x3400050, 1, 0, 1, 0, [0],
   [⟨"COUNT", 31, 0, .w1c⟩]⟩

/-- CLOCK_CPLL_LOSS_CNT, R400. -/
def R.CLOCK_CPLL_LOSS_CNT : RegDef :=
  ⟨"CLOCK_CPLL_LOSS_CNT", 0x3400054, 1, 0, 1, 0, [0],
   [⟨"COUNT", 31, 0, .w1c⟩]⟩

/-- CLOCK_MPLL_LOSS_CNT, R400. -/
def R.CLOCK_MPLL_LOSS_CNT : RegDef :=
  ⟨"CLOCK_MPLL_LOSS_CNT", 0x3400058, 1, 0, 1, 0, [0],
   [⟨"COUNT", 31, 0, .w1c⟩]⟩

/-- CLOCK_COAST_CNT, R400. -/
def R.CLOCK_COAST_CNT : RegDef :=
  ⟨"CLOCK_COAST_CNT", 0x340005C, 1, 0, 1, 0, [0],
   [⟨"COUNT", 31, 0, .w1c⟩]⟩

/-- CLOCK_REFRET_CNT, R400. -/
def R.CLOCK_REFRET_CNT : RegDef :=
  ⟨"CLOCK_REFRET_CNT", 0x3400060, 1, 0, 1, 0, [0],
   [⟨"COUNT", 31, 0, .w1c⟩]⟩

/-- CLOCK_STEP_CNT, R400. -/
def R.CLOCK_STEP_CNT : RegDef :=
  ⟨"CLOCK_STEP_CNT", 0x3400064, 1, 0, 1, 0, [0],
   [⟨"COUNT", 31, 0, .w1c⟩]⟩

/-- ERNOS_CTRL, R400. -/
def R.ERNOS_CTRL : RegDef :=
  ⟨"ERNOS_CTRL", 0x3401000, 1, 0, 1, 0, [0],
   [⟨"PORT_EN", 5, 4, .rws⟩, ⟨"ROLE", 1, 0, .rws⟩]⟩

/-- ERNOS_STAT, R400. -/
def R.ERNOS_STAT : RegDef :=
  ⟨"ERNOS_STAT", 0x3401004, 1, 0, 1, 0, [0],
   [⟨"ALIGN_LOST", 7, 7, .w1c⟩, ⟨"LINK_DOWN", 6, 6, .w1c⟩, ⟨"DN_UP", 5, 5, .ro⟩, ⟨"UP_UP", 4, 4, .ro⟩, ⟨"UPSTREAM", 3, 3, .ro⟩, ⟨"HEAD_SEEN", 2, 2, .ro⟩, ⟨"TRIG_OK", 1, 1, .ro⟩, ⟨"ALIGNED", 0, 0, .ro⟩]⟩

/-- ERNOS_INDEX, R400. -/
def R.ERNOS_INDEX : RegDef :=
  ⟨"ERNOS_INDEX", 0x3401008, 1, 0, 1, 0, [0],
   [⟨"SIZE", 21, 16, .ro⟩, ⟨"HOPS", 12, 8, .ro⟩, ⟨"INDEX", 4, 0, .ro⟩]⟩

/-- ERNOS_ALIGN_TOL, R400. -/
def R.ERNOS_ALIGN_TOL : RegDef :=
  ⟨"ERNOS_ALIGN_TOL", 0x340100C, 1, 0, 1, 0, [0x21],
   [⟨"TICKS", 15, 0, .rw⟩]⟩

/-- ERNOS_OFFSET, R400. -/
def R.ERNOS_OFFSET : RegDef :=
  ⟨"ERNOS_OFFSET", 0x3401010, 1, 0, 1, 0, [0],
   [⟨"OFFSET", 31, 0, .ro⟩]⟩

/-- ERNOS_UP_DELAY, R400. -/
def R.ERNOS_UP_DELAY : RegDef :=
  ⟨"ERNOS_UP_DELAY", 0x3401014, 1, 0, 1, 0, [0],
   [⟨"TICKS", 31, 0, .ro⟩]⟩

/-- ERNOS_DN_DELAY, R400. -/
def R.ERNOS_DN_DELAY : RegDef :=
  ⟨"ERNOS_DN_DELAY", 0x3401018, 1, 0, 1, 0, [0],
   [⟨"TICKS", 31, 0, .ro⟩]⟩

/-- ERNOS_HEAD_DELAY, R400. -/
def R.ERNOS_HEAD_DELAY : RegDef :=
  ⟨"ERNOS_HEAD_DELAY", 0x340101C, 1, 0, 1, 0, [0],
   [⟨"TICKS", 31, 0, .ro⟩]⟩

/-- ERNOS_REACH, R400. -/
def R.ERNOS_REACH : RegDef :=
  ⟨"ERNOS_REACH", 0x3401020, 1, 0, 1, 0, [0],
   [⟨"TICKS", 31, 0, .ro⟩]⟩

/-- ERNOS_LINK_DOWN_CNT, R400. -/
def R.ERNOS_LINK_DOWN_CNT : RegDef :=
  ⟨"ERNOS_LINK_DOWN_CNT", 0x3401024, 1, 0, 1, 0, [0],
   [⟨"COUNT", 31, 0, .w1c⟩]⟩

/-- ERNOS_LINK_ERR_CNT, R400. -/
def R.ERNOS_LINK_ERR_CNT : RegDef :=
  ⟨"ERNOS_LINK_ERR_CNT", 0x3401028, 1, 0, 1, 0, [0],
   [⟨"COUNT", 31, 0, .w1c⟩]⟩

/-- ERNOS_ALIGN_LOST_CNT, R400. -/
def R.ERNOS_ALIGN_LOST_CNT : RegDef :=
  ⟨"ERNOS_ALIGN_LOST_CNT", 0x340102C, 1, 0, 1, 0, [0],
   [⟨"COUNT", 31, 0, .w1c⟩]⟩

/-- AMU_STAT, R425. -/
def R.AMU_STAT : RegDef :=
  ⟨"AMU_STAT", 0x3600008, 1, 0, 1, 0, [0],
   [⟨"XIN_HOLD", 6, 6, .ro⟩, ⟨"OW", 5, 5, .w1c⟩, ⟨"OVR", 4, 4, .w1c⟩, ⟨"CAL_SLOT", 3, 3, .ro⟩, ⟨"INJ_WAITING", 2, 2, .ro⟩, ⟨"INJ_BUSY", 1, 1, .ro⟩, ⟨"SEQ_RUNNING", 0, 0, .ro⟩]⟩

/-- AMU_INJ_CFG, R425. -/
def R.AMU_INJ_CFG : RegDef :=
  ⟨"AMU_INJ_CFG", 0x360000C, 1, 0, 1, 0, [0x100400],
   [⟨"REJ5060", 23, 23, .rws⟩, ⟨"FIR", 22, 22, .rws⟩, ⟨"ORDER", 21, 20, .rws⟩, ⟨"OSR", 17, 0, .rws⟩]⟩

/-- AMU_RESULTn_HDR, R425. -/
def R.AMU_RESULTn_HDR : RegDef :=
  ⟨"AMU_RESULTn_HDR", 0x3600100, 16, 0x10, 1, 0, [0],
   [⟨"NEW", 31, 31, .ro⟩, ⟨"SETTLED", 30, 30, .ro⟩, ⟨"OVR", 29, 29, .ro⟩, ⟨"OPEN_WIRE", 28, 28, .ro⟩, ⟨"REF_LOW", 27, 27, .ro⟩, ⟨"RANGE", 26, 26, .ro⟩, ⟨"BREAK", 25, 25, .ro⟩, ⟨"SEQ", 15, 0, .ro⟩]⟩

/-- AMU_COMMIT, R425. -/
def R.AMU_COMMIT : RegDef :=
  ⟨"AMU_COMMIT", 0x3600000, 1, 0, 1, 0, [0],
   [⟨"GO", 0, 0, .wo⟩]⟩

/-- AMU_COMMIT_STAT, R425. -/
def R.AMU_COMMIT_STAT : RegDef :=
  ⟨"AMU_COMMIT_STAT", 0x3600004, 1, 0, 1, 0, [0],
   [⟨"REJ_INVALID", 2, 2, .w1c⟩, ⟨"REJ_BUSY", 1, 1, .w1c⟩, ⟨"PENDING", 0, 0, .ro⟩]⟩

/-- AMU_CJC, R425. -/
def R.AMU_CJC : RegDef :=
  ⟨"AMU_CJC", 0x3600010, 1, 0, 1, 0, [0],
   [⟨"T", 15, 0, .ro⟩]⟩

/-- AMU_SWAP, R425. -/
def R.AMU_SWAP : RegDef :=
  ⟨"AMU_SWAP", 0x3600014, 1, 0, 1, 0, [0],
   [⟨"GO", 0, 0, .wo⟩]⟩

/-- AMU_PASS_CNT, R425. -/
def R.AMU_PASS_CNT : RegDef :=
  ⟨"AMU_PASS_CNT", 0x3600018, 1, 0, 1, 0, [0],
   [⟨"COUNT", 31, 0, .w1c⟩]⟩

/-- AMU_OVR_CNT, R425. -/
def R.AMU_OVR_CNT : RegDef :=
  ⟨"AMU_OVR_CNT", 0x360001C, 1, 0, 1, 0, [0],
   [⟨"COUNT", 31, 0, .w1c⟩]⟩

/-- AMU_OW_CNT, R425. -/
def R.AMU_OW_CNT : RegDef :=
  ⟨"AMU_OW_CNT", 0x3600020, 1, 0, 1, 0, [0],
   [⟨"COUNT", 31, 0, .w1c⟩]⟩

/-- AMU_UNSETTLED_CNT, R425. -/
def R.AMU_UNSETTLED_CNT : RegDef :=
  ⟨"AMU_UNSETTLED_CNT", 0x3600024, 1, 0, 1, 0, [0],
   [⟨"COUNT", 31, 0, .w1c⟩]⟩

/-- AMU_PREEMPT_CNT, R425. -/
def R.AMU_PREEMPT_CNT : RegDef :=
  ⟨"AMU_PREEMPT_CNT", 0x3600028, 1, 0, 1, 0, [0],
   [⟨"COUNT", 31, 0, .w1c⟩]⟩

/-- AMU_SEQ_JOB, R425. -/
def R.AMU_SEQ_JOB : RegDef :=
  ⟨"AMU_SEQ_JOB", 0x360002C, 1, 0, 1, 0, [0],
   [⟨"SQ", 21, 16, .ro⟩, ⟨"TAG", 15, 0, .ro⟩]⟩

/-- AMU_RESULTn_VALUE, R425. -/
def R.AMU_RESULTn_VALUE : RegDef :=
  ⟨"AMU_RESULTn_VALUE", 0x3600104, 16, 0x10, 1, 0, [0],
   [⟨"VALUE", 31, 0, .ro⟩]⟩

/-- AMU_RESULTn_TIME_LO, R425. -/
def R.AMU_RESULTn_TIME_LO : RegDef :=
  ⟨"AMU_RESULTn_TIME_LO", 0x3600108, 16, 0x10, 1, 0, [0],
   [⟨"TIME", 31, 0, .ro⟩]⟩

/-- AMU_RESULTn_TIME_HI, R425. -/
def R.AMU_RESULTn_TIME_HI : RegDef :=
  ⟨"AMU_RESULTn_TIME_HI", 0x360010C, 16, 0x10, 1, 0, [0],
   [⟨"TIME", 31, 0, .ro⟩]⟩

/-- LOOPk_CTRL, R425. -/
def R.LOOPk_CTRL : RegDef :=
  ⟨"LOOPk_CTRL", 0x3600200, 2, 0x20, 1, 0, [0],
   [⟨"WDOG_MS", 31, 16, .rw⟩, ⟨"FORCE", 2, 2, .rw⟩, ⟨"FAULT_HIGH", 1, 1, .rw⟩, ⟨"ENABLE", 0, 0, .rw⟩]⟩

/-- LOOPk_SET, R425. -/
def R.LOOPk_SET : RegDef :=
  ⟨"LOOPk_SET", 0x3600204, 2, 0x20, 1, 0, [0xFA0],
   [⟨"UA", 14, 0, .rw⟩]⟩

/-- LOOPk_READ, R425. -/
def R.LOOPk_READ : RegDef :=
  ⟨"LOOPk_READ", 0x3600208, 2, 0x20, 1, 0, [0],
   [⟨"UA", 14, 0, .ro⟩]⟩

/-- LOOPk_STAT, R425. -/
def R.LOOPk_STAT : RegDef :=
  ⟨"LOOPk_STAT", 0x360020C, 2, 0x20, 1, 0, [0],
   [⟨"CLAMP", 4, 4, .w1c⟩, ⟨"FAULT", 3, 3, .w1c⟩, ⟨"WDOG", 2, 2, .ro⟩, ⟨"AT_FAULT", 1, 1, .ro⟩, ⟨"ACTIVE", 0, 0, .ro⟩]⟩

/-- LOOPk_FAULT_CNT, R425. -/
def R.LOOPk_FAULT_CNT : RegDef :=
  ⟨"LOOPk_FAULT_CNT", 0x3600210, 2, 0x20, 1, 0, [0],
   [⟨"COUNT", 31, 0, .w1c⟩]⟩

/-- AMU_INJ_RES_HDR, R425. -/
def R.AMU_INJ_RES_HDR : RegDef :=
  ⟨"AMU_INJ_RES_HDR", 0x3600040, 1, 0, 1, 0, [0],
   [⟨"NEW", 31, 31, .ro⟩, ⟨"SETTLED", 30, 30, .ro⟩, ⟨"OVR", 29, 29, .ro⟩, ⟨"OPEN_WIRE", 28, 28, .ro⟩, ⟨"REF_LOW", 27, 27, .ro⟩, ⟨"RANGE", 26, 26, .ro⟩, ⟨"BREAK", 25, 25, .ro⟩, ⟨"SEQ", 15, 0, .ro⟩]⟩

/-- AMU_INJ_RES_VALUE, R425. -/
def R.AMU_INJ_RES_VALUE : RegDef :=
  ⟨"AMU_INJ_RES_VALUE", 0x3600044, 1, 0, 1, 0, [0],
   [⟨"VALUE", 31, 0, .ro⟩]⟩

/-- AMU_INJ_RES_TIME_LO, R425. -/
def R.AMU_INJ_RES_TIME_LO : RegDef :=
  ⟨"AMU_INJ_RES_TIME_LO", 0x3600048, 1, 0, 1, 0, [0],
   [⟨"TIME", 31, 0, .ro⟩]⟩

/-- AMU_INJ_RES_TIME_HI, R425. -/
def R.AMU_INJ_RES_TIME_HI : RegDef :=
  ⟨"AMU_INJ_RES_TIME_HI", 0x360004C, 1, 0, 1, 0, [0],
   [⟨"TIME", 31, 0, .ro⟩]⟩

/-- MGMT_STAT, R452. -/
def R.MGMT_STAT : RegDef :=
  ⟨"MGMT_STAT", 0x3800000, 1, 0, 1, 0, [0],
   [⟨"HANDBACK", 4, 4, .w1c⟩, ⟨"PROBATION", 3, 3, .ro⟩, ⟨"HANDOVER", 2, 2, .ro⟩, ⟨"ACTIVE_SLOT", 0, 0, .ro⟩]⟩

/-- MGMT_VERSION, R452. -/
def R.MGMT_VERSION : RegDef :=
  ⟨"MGMT_VERSION", 0x3800004, 1, 0, 1, 0, [0],
   [⟨"VERSION", 31, 0, .ro⟩]⟩

/-- MGMT_OTHER_VERSION, R452. -/
def R.MGMT_OTHER_VERSION : RegDef :=
  ⟨"MGMT_OTHER_VERSION", 0x3800008, 1, 0, 1, 0, [0],
   [⟨"VERSION", 31, 0, .ro⟩]⟩

/-- MGMT_RECORD_VERSION, R452. -/
def R.MGMT_RECORD_VERSION : RegDef :=
  ⟨"MGMT_RECORD_VERSION", 0x380000C, 1, 0, 1, 0, [0],
   [⟨"VERSION", 15, 0, .ro⟩]⟩

/-- MGMT_PROBATION_LEFT, R452. -/
def R.MGMT_PROBATION_LEFT : RegDef :=
  ⟨"MGMT_PROBATION_LEFT", 0x3800010, 1, 0, 1, 0, [0],
   [⟨"MS", 13, 0, .ro⟩]⟩

/-- MGMT_HANDOVER_CNT, R452. -/
def R.MGMT_HANDOVER_CNT : RegDef :=
  ⟨"MGMT_HANDOVER_CNT", 0x3800014, 1, 0, 1, 0, [0],
   [⟨"COUNT", 31, 0, .w1c⟩]⟩

/-- MGMT_HANDBACK_CNT, R452. -/
def R.MGMT_HANDBACK_CNT : RegDef :=
  ⟨"MGMT_HANDBACK_CNT", 0x3800018, 1, 0, 1, 0, [0],
   [⟨"COUNT", 31, 0, .w1c⟩]⟩

/-- MGMT_FREEZE_MAX, R452. -/
def R.MGMT_FREEZE_MAX : RegDef :=
  ⟨"MGMT_FREEZE_MAX", 0x380001C, 1, 0, 1, 0, [0],
   [⟨"US", 31, 0, .w1c⟩]⟩

/-- MGMT_HANDOVER_STAMP_LO, R452. -/
def R.MGMT_HANDOVER_STAMP_LO : RegDef :=
  ⟨"MGMT_HANDOVER_STAMP_LO", 0x3800020, 1, 0, 1, 0, [0],
   [⟨"STAMP", 31, 0, .ro⟩]⟩

/-- MGMT_HANDOVER_STAMP_HI, R452. -/
def R.MGMT_HANDOVER_STAMP_HI : RegDef :=
  ⟨"MGMT_HANDOVER_STAMP_HI", 0x3800024, 1, 0, 1, 0, [0],
   [⟨"STAMP", 31, 0, .ro⟩]⟩

/-- MGMT_DIGESTk, R452. -/
def R.MGMT_DIGESTk : RegDef :=
  ⟨"MGMT_DIGESTk", 0x3800040, 12, 4, 1, 0, [0],
   [⟨"BYTES", 31, 0, .ro⟩]⟩

/-- LEDGER_STAT, R452. -/
def R.LEDGER_STAT : RegDef :=
  ⟨"LEDGER_STAT", 0x3800100, 1, 0, 1, 0, [0],
   [⟨"SESSION_LOST", 3, 3, .ro⟩, ⟨"BURN_FAIL", 2, 2, .w1c⟩, ⟨"DEFERRED", 1, 1, .ro⟩, ⟨"BUSY", 0, 0, .ro⟩]⟩

/-- LEDGER_BURNT, R452. -/
def R.LEDGER_BURNT : RegDef :=
  ⟨"LEDGER_BURNT", 0x3800104, 1, 0, 1, 0, [0],
   [⟨"BITS", 15, 0, .ro⟩]⟩

/-- LEDGER_QUEUE, R452. -/
def R.LEDGER_QUEUE : RegDef :=
  ⟨"LEDGER_QUEUE", 0x3800108, 1, 0, 1, 0, [0],
   [⟨"BURNS", 4, 0, .ro⟩]⟩

/-- LEDGER_BURN_FAIL_CNT, R452. -/
def R.LEDGER_BURN_FAIL_CNT : RegDef :=
  ⟨"LEDGER_BURN_FAIL_CNT", 0x380010C, 1, 0, 1, 0, [0],
   [⟨"COUNT", 31, 0, .w1c⟩]⟩

/-- POWER_STAT, R478. -/
def R.POWER_STAT : RegDef :=
  ⟨"POWER_STAT", 0x3C00000, 1, 0, 1, 0, [0],
   [⟨"TW_SEEN", 6, 6, .w1c⟩, ⟨"SW_SEEN", 5, 5, .w1c⟩, ⟨"STOPPED", 4, 4, .ro⟩, ⟨"THERM_EMERG", 3, 3, .ro⟩, ⟨"THERM_WARN", 2, 2, .ro⟩, ⟨"SUPPLY_WARN", 1, 1, .ro⟩, ⟨"MARGIN", 0, 0, .ro⟩]⟩

/-- POWER_MEAS, R478. -/
def R.POWER_MEAS : RegDef :=
  ⟨"POWER_MEAS", 0x3C00004, 1, 0, 1, 0, [0],
   [⟨"P", 15, 0, .ro⟩]⟩

/-- POWER_MEAS_MAX, R478. -/
def R.POWER_MEAS_MAX : RegDef :=
  ⟨"POWER_MEAS_MAX", 0x3C00008, 1, 0, 1, 0, [0],
   [⟨"P", 15, 0, .w1c⟩]⟩

/-- POWER_RAIL_SEL, R478. -/
def R.POWER_RAIL_SEL : RegDef :=
  ⟨"POWER_RAIL_SEL", 0x3C0000C, 1, 0, 1, 0, [0],
   [⟨"RAIL", 3, 0, .rw⟩]⟩

/-- POWER_RAIL_V, R478. -/
def R.POWER_RAIL_V : RegDef :=
  ⟨"POWER_RAIL_V", 0x3C00010, 1, 0, 1, 0, [0],
   [⟨"MV", 15, 0, .ro⟩]⟩

/-- POWER_RAIL_I, R478. -/
def R.POWER_RAIL_I : RegDef :=
  ⟨"POWER_RAIL_I", 0x3C00014, 1, 0, 1, 0, [0],
   [⟨"MA", 23, 0, .ro⟩]⟩

/-- POWER_EXCESS_CNT, R478. -/
def R.POWER_EXCESS_CNT : RegDef :=
  ⟨"POWER_EXCESS_CNT", 0x3C00018, 1, 0, 1, 0, [0],
   [⟨"COUNT", 31, 0, .w1c⟩]⟩

/-- THERM_TJ, R478. -/
def R.THERM_TJ : RegDef :=
  ⟨"THERM_TJ", 0x3C00020, 1, 0, 1, 0, [0],
   [⟨"SENSOR", 21, 16, .ro⟩, ⟨"T", 15, 0, .ro⟩]⟩

/-- THERM_TJ_MAX, R478. -/
def R.THERM_TJ_MAX : RegDef :=
  ⟨"THERM_TJ_MAX", 0x3C00024, 1, 0, 1, 0, [0],
   [⟨"T", 15, 0, .w1c⟩]⟩

/-- THERM_SENSOR_SEL, R478. -/
def R.THERM_SENSOR_SEL : RegDef :=
  ⟨"THERM_SENSOR_SEL", 0x3C00028, 1, 0, 1, 0, [0],
   [⟨"SENSOR", 5, 0, .rw⟩]⟩

/-- THERM_SENSOR_DATA, R478. -/
def R.THERM_SENSOR_DATA : RegDef :=
  ⟨"THERM_SENSOR_DATA", 0x3C0002C, 1, 0, 1, 0, [0],
   [⟨"T", 15, 0, .ro⟩]⟩

/-- THERM_WARN_CNT, R478. -/
def R.THERM_WARN_CNT : RegDef :=
  ⟨"THERM_WARN_CNT", 0x3C00030, 1, 0, 1, 0, [0],
   [⟨"COUNT", 31, 0, .w1c⟩]⟩

/-- THERM_EMERG_CNT, R478. -/
def R.THERM_EMERG_CNT : RegDef :=
  ⟨"THERM_EMERG_CNT", 0x3C00034, 1, 0, 1, 0, [0],
   [⟨"COUNT", 31, 0, .w1c⟩]⟩

/-- SUPPLY_WARN_CNT, R478. -/
def R.SUPPLY_WARN_CNT : RegDef :=
  ⟨"SUPPLY_WARN_CNT", 0x3C00038, 1, 0, 1, 0, [0],
   [⟨"COUNT", 31, 0, .w1c⟩]⟩

/-- SUPPLY_MARGIN_CNT, R478. -/
def R.SUPPLY_MARGIN_CNT : RegDef :=
  ⟨"SUPPLY_MARGIN_CNT", 0x3C0003C, 1, 0, 1, 0, [0],
   [⟨"COUNT", 31, 0, .w1c⟩]⟩

/-- POWER_ALERT, R478. -/
def R.POWER_ALERT : RegDef :=
  ⟨"POWER_ALERT", 0x3C00040, 1, 0, 1, 0, [0],
   [⟨"SEV2", 3, 3, .w1c⟩, ⟨"XIN", 2, 2, .w1c⟩, ⟨"MARGIN", 1, 1, .w1c⟩, ⟨"THERM", 0, 0, .w1c⟩]⟩

/-- POWER_ALERT_EN, R478. -/
def R.POWER_ALERT_EN : RegDef :=
  ⟨"POWER_ALERT_EN", 0x3C00044, 1, 0, 1, 0, [0xF],
   [⟨"EN", 3, 0, .rw⟩]⟩

def F.GLOBAL_ID_PART : Fld := ⟨0, 0, 0, [0x940000A0], 31, 16⟩
def F.GLOBAL_ID_VARIANT : Fld := ⟨0, 0, 0, [0x940000A0], 15, 8⟩
def F.GLOBAL_ID_STEP_LETTER : Fld := ⟨0, 0, 0, [0x940000A0], 7, 4⟩
def F.GLOBAL_ID_STEP_NUMBER : Fld := ⟨0, 0, 0, [0x940000A0], 3, 0⟩
def F.GLOBAL_COMPAT_NATIVE : Fld := ⟨0x10, 0, 0, [0x1000100], 31, 16⟩
def F.GLOBAL_COMPAT_LEVEL : Fld := ⟨0x10, 0, 0, [0x1000100], 15, 0⟩
def F.GLOBAL_COMPAT_STAT_REJ : Fld := ⟨0x14, 0, 0, [0], 0, 0⟩
def F.GLOBAL_OWNER_LOCK_LOCK : Fld := ⟨0x18, 0, 0, [0], 0, 0⟩
def F.GLOBAL_LIFE_LIFE : Fld := ⟨0x1C, 0, 0, [0], 15, 0⟩
def F.GLOBAL_BOOT_CTRL_SERVE : Fld := ⟨0x40, 0, 0, [7], 2, 2⟩
def F.GLOBAL_BOOT_CTRL_SRC_MASK : Fld := ⟨0x40, 0, 0, [7], 1, 0⟩
def F.GLOBAL_BOOT_CMD_GO : Fld := ⟨0x44, 0, 0, [0], 31, 31⟩
def F.GLOBAL_BOOT_CMD_LEN : Fld := ⟨0x44, 0, 0, [0], 20, 0⟩
def F.GLOBAL_BOOT_STAT_REASON : Fld := ⟨0x48, 0, 0, [0], 7, 4⟩
def F.GLOBAL_BOOT_STAT_STATE : Fld := ⟨0x48, 0, 0, [0], 3, 0⟩
def F.GLOBAL_BOOT_SRC_SRC : Fld := ⟨0x4C, 0, 0, [0], 1, 0⟩
def F.GLOBAL_STATUS_STAGE : Fld := ⟨4, 0, 0, [0], 11, 8⟩
def F.GLOBAL_STATUS_STOPPED : Fld := ⟨4, 0, 0, [0], 3, 3⟩
def F.GLOBAL_STATUS_IMAGE : Fld := ⟨4, 0, 0, [0], 2, 2⟩
def F.GLOBAL_STATUS_DEGRADED : Fld := ⟨4, 0, 0, [0], 1, 1⟩
def F.GLOBAL_STATUS_READY : Fld := ⟨4, 0, 0, [0], 0, 0⟩
def F.GLOBAL_RESET_KEY : Fld := ⟨8, 0, 0, [0], 15, 8⟩
def F.GLOBAL_RESET_WARM : Fld := ⟨8, 0, 0, [0], 0, 0⟩
def F.GLOBAL_RESET_CAUSE_REJ : Fld := ⟨0xC, 0, 0, [1], 8, 8⟩
def F.GLOBAL_RESET_CAUSE_CAUSE : Fld := ⟨0xC, 0, 0, [1], 3, 0⟩
def F.GLOBAL_READY_TIME_US : Fld := ⟨0x20, 0, 0, [0], 31, 0⟩
def F.HOST_CTRL_EVQ_EN : Fld := ⟨0x100000, 0, 0, [2], 2, 2⟩
def F.HOST_CTRL_GLARE_EN : Fld := ⟨0x100000, 0, 0, [2], 1, 1⟩
def F.HOST_CTRL_ENABLE : Fld := ⟨0x100000, 0, 0, [2], 0, 0⟩
def F.HOST_STATUS_INFLIGHT : Fld := ⟨0x100004, 0, 0, [0], 26, 16⟩
def F.HOST_STATUS_THERM_HOLD : Fld := ⟨0x100004, 0, 0, [0], 2, 2⟩
def F.HOST_STATUS_HANDOVER : Fld := ⟨0x100004, 0, 0, [0], 1, 1⟩
def F.HOST_STATUS_FETCHING : Fld := ⟨0x100004, 0, 0, [0], 0, 0⟩
def F.HOST_LINK_SECONDARY_UP : Fld := ⟨0x100008, 0, 0, [0], 11, 11⟩
def F.HOST_LINK_BIFURCATED : Fld := ⟨0x100008, 0, 0, [0], 10, 10⟩
def F.HOST_LINK_FLIT : Fld := ⟨0x100008, 0, 0, [0], 9, 9⟩
def F.HOST_LINK_WIDTH : Fld := ⟨0x100008, 0, 0, [0], 8, 4⟩
def F.HOST_LINK_SPEED : Fld := ⟨0x100008, 0, 0, [0], 3, 0⟩
def F.HOST_D2H_CAP_CAP_SEC : Fld := ⟨0x10000C, 0, 0, [0], 31, 16⟩
def F.HOST_D2H_CAP_CAP : Fld := ⟨0x10000C, 0, 0, [0], 15, 0⟩
def F.HOST_H2D_CAP_CAP_SEC : Fld := ⟨0x100010, 0, 0, [0], 31, 16⟩
def F.HOST_H2D_CAP_CAP : Fld := ⟨0x100010, 0, 0, [0], 15, 0⟩
def F.HOST_BADACC_CNT_COUNT : Fld := ⟨0x100014, 0, 0, [0], 31, 0⟩
def F.HOST_LINK_CE_CNT_COUNT : Fld := ⟨0x100018, 0, 0, [0], 31, 0⟩
def F.HOST_LINK_UE_CNT_COUNT : Fld := ⟨0x10001C, 0, 0, [0], 31, 0⟩
def F.HOST_DB_BASE_LO_ADDR : Fld := ⟨0x100020, 0, 0, [0], 31, 12⟩
def F.HOST_DB_BASE_HI_ADDR : Fld := ⟨0x100024, 0, 0, [0], 31, 0⟩
def F.HOST_POLL_CLASSc_INTERVAL : Fld := ⟨0x100030, 0, 4, [1, 4, 0x190, 0xFA0], 11, 0⟩
def F.HOST_ADM_POLICY_H2D_LIMIT : Fld := ⟨0x100040, 0, 0, [0], 31, 16⟩
def F.HOST_ADM_POLICY_D2H_LIMIT : Fld := ⟨0x100040, 0, 0, [0], 15, 0⟩
def F.HOST_RSV_D2H_RSV_SEC : Fld := ⟨0x100050, 0, 0, [0], 31, 16⟩
def F.HOST_RSV_D2H_RSV : Fld := ⟨0x100050, 0, 0, [0], 15, 0⟩
def F.HOST_RSV_H2D_RSV_SEC : Fld := ⟨0x100054, 0, 0, [0], 31, 16⟩
def F.HOST_RSV_H2D_RSV : Fld := ⟨0x100054, 0, 0, [0], 15, 0⟩
def F.HOST_RSV_HBM0_RSV : Fld := ⟨0x100058, 0, 0, [0], 31, 0⟩
def F.HOST_RSV_HBM1_RSV : Fld := ⟨0x10005C, 0, 0, [0], 31, 0⟩
def F.HOST_RSV_XAB_RSV : Fld := ⟨0x100060, 0, 0, [0], 31, 0⟩
def F.HOST_RSV_XBA_RSV : Fld := ⟨0x100064, 0, 0, [0], 31, 0⟩
def F.HOST_RSV_POWER_P : Fld := ⟨0x100068, 0, 0, [0], 31, 0⟩
def F.HOST_BUCKET_E : Fld := ⟨0x10006C, 0, 0, [0x3A98], 31, 0⟩
def F.HOST_RSV_POOL_MGMT : Fld := ⟨0x100070, 0, 0, [0], 31, 16⟩
def F.HOST_RSV_POOL_JOBS : Fld := ⟨0x100070, 0, 0, [0], 15, 0⟩
def F.HOST_RSV_STORE_STACK1 : Fld := ⟨0x100074, 0, 0, [0], 31, 16⟩
def F.HOST_RSV_STORE_STACK0 : Fld := ⟨0x100074, 0, 0, [0], 15, 0⟩
def F.HOST_REFUSE_BW_CNT_COUNT : Fld := ⟨0x100080, 0, 0, [0], 31, 0⟩
def F.HOST_REFUSE_SPACE_CNT_COUNT : Fld := ⟨0x100084, 0, 0, [0], 31, 0⟩
def F.HOST_REFUSE_POWER_CNT_COUNT : Fld := ⟨0x100088, 0, 0, [0], 31, 0⟩
def F.HOST_REFUSE_STATE_CNT_COUNT : Fld := ⟨0x10008C, 0, 0, [0], 31, 0⟩
def F.HOST_REFUSE_CONFLICT_CNT_COUNT : Fld := ⟨0x100090, 0, 0, [0], 31, 0⟩
def F.HOST_DESC_ERR_CNT_COUNT : Fld := ⟨0x100094, 0, 0, [0], 31, 0⟩
def F.HOST_DEADLINE_MISS_CNT_COUNT : Fld := ⟨0x100098, 0, 0, [0], 31, 0⟩
def F.HOST_EVQ_BASE_LO_ADDR : Fld := ⟨0x1000A0, 0, 0, [0], 31, 5⟩
def F.HOST_EVQ_BASE_HI_ADDR : Fld := ⟨0x1000A4, 0, 0, [0], 31, 0⟩
def F.HOST_EVQ_CTRL_VECTOR : Fld := ⟨0x1000A8, 0, 0, [4], 26, 16⟩
def F.HOST_EVQ_CTRL_SIZE_LOG2 : Fld := ⟨0x1000A8, 0, 0, [4], 3, 0⟩
def F.HOST_EVQ_LOST_COUNT : Fld := ⟨0x1000AC, 0, 0, [0], 31, 0⟩
def F.HOST_SQ_SEL_RING : Fld := ⟨0x100100, 0, 0, [0], 5, 0⟩
def F.HOST_SQ_BASE_LO_ADDR : Fld := ⟨0x100104, 0, 0, [0], 31, 6⟩
def F.HOST_SQ_BASE_HI_ADDR : Fld := ⟨0x100108, 0, 0, [0], 31, 0⟩
def F.HOST_SQ_CTRL_CQ : Fld := ⟨0x10010C, 0, 0, [0x40], 21, 16⟩
def F.HOST_SQ_CTRL_POLL_CLASS : Fld := ⟨0x10010C, 0, 0, [0x40], 9, 8⟩
def F.HOST_SQ_CTRL_SIZE_LOG2 : Fld := ⟨0x10010C, 0, 0, [0x40], 7, 4⟩
def F.HOST_SQ_CTRL_ENABLE : Fld := ⟨0x10010C, 0, 0, [0x40], 0, 0⟩
def F.HOST_SQ_HEAD_HEAD : Fld := ⟨0x100110, 0, 0, [0], 31, 0⟩
def F.HOST_SQ_STAT_DISABLED : Fld := ⟨0x100114, 0, 0, [0], 2, 2⟩
def F.HOST_SQ_STAT_OWN_WAIT : Fld := ⟨0x100114, 0, 0, [0], 1, 1⟩
def F.HOST_SQ_STAT_BAD_TAIL : Fld := ⟨0x100114, 0, 0, [0], 0, 0⟩
def F.HOST_CQ_SEL_RING : Fld := ⟨0x100140, 0, 0, [0], 5, 0⟩
def F.HOST_CQ_BASE_LO_ADDR : Fld := ⟨0x100144, 0, 0, [0], 31, 5⟩
def F.HOST_CQ_BASE_HI_ADDR : Fld := ⟨0x100148, 0, 0, [0], 31, 0⟩
def F.HOST_CQ_CTRL_VECTOR : Fld := ⟨0x10014C, 0, 0, [0x40], 26, 16⟩
def F.HOST_CQ_CTRL_SIZE_LOG2 : Fld := ⟨0x10014C, 0, 0, [0x40], 7, 4⟩
def F.HOST_CQ_CTRL_ENABLE : Fld := ⟨0x10014C, 0, 0, [0x40], 0, 0⟩
def F.HOST_CQ_COAL_TIME : Fld := ⟨0x100150, 0, 0, [1], 27, 16⟩
def F.HOST_CQ_COAL_COUNT : Fld := ⟨0x100150, 0, 0, [1], 7, 0⟩
def F.HOST_CQ_TAIL_TAIL : Fld := ⟨0x100154, 0, 0, [0], 31, 0⟩
def F.HOST_CQ_STAT_BAD_HEAD : Fld := ⟨0x100158, 0, 0, [0], 1, 1⟩
def F.HOST_CQ_STAT_FULL_STALL : Fld := ⟨0x100158, 0, 0, [0], 0, 0⟩
def F.MOVER_CTRL_FLUSH : Fld := ⟨0x200000, 0, 0, [1], 7, 0⟩
def F.MOVER_FREE_CH_SIDE_B : Fld := ⟨0x200004, 0, 0, [0x200020], 21, 16⟩
def F.MOVER_FREE_CH_SIDE_A : Fld := ⟨0x200004, 0, 0, [0x200020], 5, 0⟩
def F.MOVER_RETRY_CNT_COUNT : Fld := ⟨0x200008, 0, 0, [0], 31, 0⟩
def F.MOVER_DAMAGED_CNT_COUNT : Fld := ⟨0x20000C, 0, 0, [0], 31, 0⟩
def F.MOVER_PAD_CNT_COUNT : Fld := ⟨0x200010, 0, 0, [0], 31, 0⟩
def F.MOVER_Mm_STAT_ACTIVE : Fld := ⟨0x201000, 0x100, 0, [0], 16, 16⟩
def F.MOVER_Mm_STAT_CUR : Fld := ⟨0x201000, 0x100, 0, [0], 10, 8⟩
def F.MOVER_Mm_STAT_HELD : Fld := ⟨0x201000, 0x100, 0, [0], 7, 0⟩
def F.MOVER_Mm_RSV_RSV : Fld := ⟨0x201004, 0x100, 0, [0], 31, 0⟩
def F.MOVER_Mm_ELEM_CNT_COUNT : Fld := ⟨0x201008, 0x100, 0, [0], 31, 0⟩
def F.MOVER_Mm_WAIT_MAX_WAIT : Fld := ⟨0x20100C, 0x100, 0, [0], 31, 0⟩
def F.MOVER_CHc_STATE : Fld := ⟨0x202000, 4, 0, [0], 31, 30⟩
def F.MOVER_CHc_SQ : Fld := ⟨0x202000, 4, 0, [0], 21, 16⟩
def F.MOVER_CHc_TAG : Fld := ⟨0x202000, 4, 0, [0], 15, 0⟩
def F.PRISM_CHn_CTRL_PAIR : Fld := ⟨0x400000, 0x10000, 0, [0x30], 11, 11⟩
def F.PRISM_CHn_CTRL_RATE : Fld := ⟨0x400000, 0x10000, 0, [0x30], 10, 8⟩
def F.PRISM_CHn_CTRL_RANGE : Fld := ⟨0x400000, 0x10000, 0, [0x30], 5, 4⟩
def F.PRISM_CHn_CTRL_IMMEDIATE : Fld := ⟨0x400000, 0x10000, 0, [0x30], 1, 1⟩
def F.PRISM_CHn_CTRL_ENABLE : Fld := ⟨0x400000, 0x10000, 0, [0x30], 0, 0⟩
def F.PRISM_CHn_TRIM_OFFSET : Fld := ⟨0x400004, 0x10000, 0, [0], 29, 16⟩
def F.PRISM_CHn_TRIM_FINE_GAIN : Fld := ⟨0x400004, 0x10000, 0, [0], 11, 0⟩
def F.PRISM_CHn_COMMIT_GO : Fld := ⟨0x400008, 0x10000, 0, [0], 0, 0⟩
def F.PRISM_CHn_COMMIT_STAT_REJ_INVALID : Fld := ⟨0x40000C, 0x10000, 0, [0], 3, 3⟩
def F.PRISM_CHn_COMMIT_STAT_REJ_POWER : Fld := ⟨0x40000C, 0x10000, 0, [0], 2, 2⟩
def F.PRISM_CHn_COMMIT_STAT_REJ_OWNED : Fld := ⟨0x40000C, 0x10000, 0, [0], 1, 1⟩
def F.PRISM_CHn_COMMIT_STAT_PENDING : Fld := ⟨0x40000C, 0x10000, 0, [0], 0, 0⟩
def F.PRISM_CHn_STAT_SETTLING : Fld := ⟨0x400010, 0x10000, 0, [0], 11, 11⟩
def F.PRISM_CHn_STAT_BG_CONVERGED : Fld := ⟨0x400010, 0x10000, 0, [0], 10, 10⟩
def F.PRISM_CHn_STAT_PAIRED_ODD : Fld := ⟨0x400010, 0x10000, 0, [0], 9, 9⟩
def F.PRISM_CHn_STAT_CALIBRATING : Fld := ⟨0x400010, 0x10000, 0, [0], 8, 8⟩
def F.PRISM_CHn_STAT_ONLINE : Fld := ⟨0x400010, 0x10000, 0, [0], 7, 7⟩
def F.PRISM_CHn_STAT_CAL_STALE : Fld := ⟨0x400010, 0x10000, 0, [0], 6, 6⟩
def F.PRISM_CHn_STAT_CAL_FAIL : Fld := ⟨0x400010, 0x10000, 0, [0], 5, 5⟩
def F.PRISM_CHn_STAT_CAL_VALID : Fld := ⟨0x400010, 0x10000, 0, [0], 4, 4⟩
def F.PRISM_CHn_STAT_CLK_FAULT : Fld := ⟨0x400010, 0x10000, 0, [0], 3, 3⟩
def F.PRISM_CHn_STAT_OVD : Fld := ⟨0x400010, 0x10000, 0, [0], 2, 2⟩
def F.PRISM_CHn_STAT_NBR_OVD : Fld := ⟨0x400010, 0x10000, 0, [0], 1, 1⟩
def F.PRISM_CHn_STAT_OVR : Fld := ⟨0x400010, 0x10000, 0, [0], 0, 0⟩
def F.PRISM_CHn_OVR_CNT_COUNT : Fld := ⟨0x400014, 0x10000, 0, [0], 31, 0⟩
def F.PRISM_CHn_NBR_CNT_COUNT : Fld := ⟨0x400018, 0x10000, 0, [0], 31, 0⟩
def F.PRISM_CHn_RANGE_CNT_COUNT : Fld := ⟨0x40001C, 0x10000, 0, [0], 31, 0⟩
def F.PRISM_CHn_RANGE_STAMP_LO_STAMP : Fld := ⟨0x400020, 0x10000, 0, [0], 31, 0⟩
def F.PRISM_CHn_RANGE_STAMP_HI_STAMP : Fld := ⟨0x400024, 0x10000, 0, [0], 31, 0⟩
def F.PRISM_CHn_CAL_CTRL_FREEZE : Fld := ⟨0x400028, 0x10000, 0, [1], 1, 1⟩
def F.PRISM_CHn_CAL_CTRL_BG_EN : Fld := ⟨0x400028, 0x10000, 0, [1], 0, 0⟩
def F.PRISM_CHn_CAL_UPD_CNT_COUNT : Fld := ⟨0x40002C, 0x10000, 0, [0], 31, 0⟩
def F.PRISM_CHn_CAL_UPD_STAMP_LO_STAMP : Fld := ⟨0x400030, 0x10000, 0, [0], 31, 0⟩
def F.PRISM_CHn_CAL_UPD_STAMP_HI_STAMP : Fld := ⟨0x400034, 0x10000, 0, [0], 31, 0⟩
def F.PRISM_CHn_CAL_SKIP_CNT_COUNT : Fld := ⟨0x400038, 0x10000, 0, [0], 31, 0⟩
def F.PRISM_CHn_CAL_RESID_SKEW : Fld := ⟨0x40003C, 0x10000, 0, [0xFFFFFFFF], 31, 24⟩
def F.PRISM_CHn_CAL_RESID_BW : Fld := ⟨0x40003C, 0x10000, 0, [0xFFFFFFFF], 23, 16⟩
def F.PRISM_CHn_CAL_RESID_GAIN : Fld := ⟨0x40003C, 0x10000, 0, [0xFFFFFFFF], 15, 8⟩
def F.PRISM_CHn_CAL_RESID_OFFSET : Fld := ⟨0x40003C, 0x10000, 0, [0xFFFFFFFF], 7, 0⟩
def F.PRISM_CHn_TEMP_AT_FG : Fld := ⟨0x400040, 0x10000, 0, [0], 31, 16⟩
def F.PRISM_CHn_TEMP_NOW : Fld := ⟨0x400040, 0x10000, 0, [0], 15, 0⟩
def F.PRISM_CHn_FG_STAMP_LO_STAMP : Fld := ⟨0x400044, 0x10000, 0, [0], 31, 0⟩
def F.PRISM_CHn_FG_STAMP_HI_STAMP : Fld := ⟨0x400048, 0x10000, 0, [0], 31, 0⟩
def F.PRISM_CHn_SRC_LEVEL_LEVEL : Fld := ⟨0x40004C, 0x10000, 0, [0], 31, 0⟩
def F.PRISM_CHn_CLK_CNT_COUNT : Fld := ⟨0x400050, 0x10000, 0, [0], 31, 0⟩
def F.LANTERN_COMMIT_GO : Fld := ⟨0x800000, 0, 0, [0], 0, 0⟩
def F.LANTERN_COMMIT_STAT_REJ_WHERE : Fld := ⟨0x800004, 0, 0, [0], 15, 8⟩
def F.LANTERN_COMMIT_STAT_REJ_INVALID : Fld := ⟨0x800004, 0, 0, [0], 1, 1⟩
def F.LANTERN_COMMIT_STAT_PENDING : Fld := ⟨0x800004, 0, 0, [0], 0, 0⟩
def F.LANTERN_IMPORT_LINE_EN : Fld := ⟨0x800008, 0, 0, [0], 7, 0⟩
def F.LANTERN_EXPORT_DROP_CNT_COUNT : Fld := ⟨0x80000C, 0, 0, [0], 31, 0⟩
def F.LANTERN_LINE_DROP_CNT_COUNT : Fld := ⟨0x800010, 0, 0, [0], 31, 0⟩
def F.LANTERN_TRIGINp_TERM : Fld := ⟨0x800014, 4, 0, [0x666], 24, 24⟩
def F.LANTERN_TRIGINp_HYST : Fld := ⟨0x800014, 4, 0, [0x666], 21, 16⟩
def F.LANTERN_TRIGINp_THRESH : Fld := ⟨0x800014, 4, 0, [0x666], 11, 0⟩
def F.LANTERN_CONDc_CTRL_TYPE : Fld := ⟨0x801000, 0x40, 0, [0], 31, 28⟩
def F.LANTERN_CONDc_CTRL_SLOPE : Fld := ⟨0x801000, 0x40, 0, [0], 27, 26⟩
def F.LANTERN_CONDc_CTRL_QUAL : Fld := ⟨0x801000, 0x40, 0, [0], 25, 24⟩
def F.LANTERN_CONDc_CTRL_SRC : Fld := ⟨0x801000, 0x40, 0, [0], 9, 0⟩
def F.LANTERN_CONDc_LEVEL_A_LEVEL : Fld := ⟨0x801004, 0x40, 0, [0], 31, 0⟩
def F.LANTERN_CONDc_LEVEL_B_LEVEL : Fld := ⟨0x801008, 0x40, 0, [0], 31, 0⟩
def F.LANTERN_CONDc_HYST_HYST : Fld := ⟨0x80100C, 0x40, 0, [0], 15, 0⟩
def F.LANTERN_CONDc_TMIN_T : Fld := ⟨0x801010, 0x40, 0, [0], 31, 0⟩
def F.LANTERN_CONDc_TMAX_T : Fld := ⟨0x801014, 0x40, 0, [0], 31, 0⟩
def F.LANTERN_UNITu_CTRL_EXPORT_EN : Fld := ⟨0x802000, 0x40, 0, [0], 15, 15⟩
def F.LANTERN_UNITu_CTRL_EXPORT_LINE : Fld := ⟨0x802000, 0x40, 0, [0], 14, 12⟩
def F.LANTERN_UNITu_CTRL_HOLD_MODE : Fld := ⟨0x802000, 0x40, 0, [0], 9, 8⟩
def F.LANTERN_UNITu_CTRL_N_STAGES : Fld := ⟨0x802000, 0x40, 0, [0], 3, 2⟩
def F.LANTERN_UNITu_CTRL_ENABLE : Fld := ⟨0x802000, 0x40, 0, [0], 0, 0⟩
def F.LANTERN_UNITu_STAT_STAGE : Fld := ⟨0x80201C, 0x40, 0, [0], 11, 10⟩
def F.LANTERN_UNITu_STAT_NO_ALIGN : Fld := ⟨0x80201C, 0x40, 0, [0], 5, 5⟩
def F.LANTERN_UNITu_STAT_LVL_CLAMP : Fld := ⟨0x80201C, 0x40, 0, [0], 4, 4⟩
def F.LANTERN_UNITu_STAT_LOST : Fld := ⟨0x80201C, 0x40, 0, [0], 3, 3⟩
def F.LANTERN_UNITu_STAT_COINC : Fld := ⟨0x80201C, 0x40, 0, [0], 2, 2⟩
def F.LANTERN_UNITu_STAT_CLK_HOLD : Fld := ⟨0x80201C, 0x40, 0, [0], 1, 1⟩
def F.LANTERN_UNITu_STAT_ACTIVE : Fld := ⟨0x80201C, 0x40, 0, [0], 0, 0⟩
def F.LANTERN_UNITu_STAGES_STAGE4 : Fld := ⟨0x802004, 0x40, 0, [0], 15, 12⟩
def F.LANTERN_UNITu_STAGES_STAGE3 : Fld := ⟨0x802004, 0x40, 0, [0], 11, 8⟩
def F.LANTERN_UNITu_STAGES_STAGE2 : Fld := ⟨0x802004, 0x40, 0, [0], 7, 4⟩
def F.LANTERN_UNITu_STAGES_STAGE1 : Fld := ⟨0x802004, 0x40, 0, [0], 3, 0⟩
def F.LANTERN_UNITu_SEQ_RESET_EN : Fld := ⟨0x802008, 0x40, 0, [0], 31, 31⟩
def F.LANTERN_UNITu_SEQ_RESET_COND : Fld := ⟨0x802008, 0x40, 0, [0], 3, 0⟩
def F.LANTERN_UNITu_SEQ_TMAX_T : Fld := ⟨0x80200C, 0x40, 0, [0], 31, 0⟩
def F.LANTERN_UNITu_HOLD_T_LO_HOLD_T : Fld := ⟨0x802010, 0x40, 0, [0], 31, 0⟩
def F.LANTERN_UNITu_HOLD_T_HI_HOLD_T : Fld := ⟨0x802014, 0x40, 0, [0], 2, 0⟩
def F.LANTERN_UNITu_HOLD_N_N : Fld := ⟨0x802018, 0x40, 0, [0], 31, 0⟩
def F.LANTERN_UNITu_MARK_CNT_COUNT : Fld := ⟨0x802020, 0x40, 0, [0], 31, 0⟩
def F.LANTERN_UNITu_SUPP_CNT_COUNT : Fld := ⟨0x802024, 0x40, 0, [0], 31, 0⟩
def F.LANTERN_UNITu_COINC_CNT_COUNT : Fld := ⟨0x802028, 0x40, 0, [0], 31, 0⟩
def F.LANTERN_UNITu_LOST_CNT_COUNT : Fld := ⟨0x80202C, 0x40, 0, [0], 31, 0⟩
def F.RECORD_SYNC_CTRL_CH_MASK : Fld := ⟨0xA00000, 0, 0, [0], 11, 8⟩
def F.RECORD_SYNC_CTRL_SRC : Fld := ⟨0xA00000, 0, 0, [0], 4, 4⟩
def F.RECORD_SYNC_CTRL_LINE : Fld := ⟨0xA00000, 0, 0, [0], 2, 0⟩
def F.RECORD_SYNC_GO_GO : Fld := ⟨0xA00004, 0, 0, [0], 0, 0⟩
def F.RECORD_SYNC_STAT_NO_ALIGN : Fld := ⟨0xA00008, 0, 0, [0], 1, 1⟩
def F.RECORD_SYNC_STAT_PENDING : Fld := ⟨0xA00008, 0, 0, [0], 0, 0⟩
def F.RECORD_SYNC_STAMP_LO_T : Fld := ⟨0xA0000C, 0, 0, [0], 31, 0⟩
def F.RECORD_SYNC_STAMP_HI_T : Fld := ⟨0xA00010, 0, 0, [0], 31, 0⟩
def F.RECORD_SYNC_CNT_COUNT : Fld := ⟨0xA00014, 0, 0, [0], 31, 0⟩
def F.RECORD_HELD_MIB : Fld := ⟨0xA00018, 0, 0, [0], 31, 16⟩
def F.RECORD_HELD_COUNT : Fld := ⟨0xA00018, 0, 0, [0], 15, 0⟩
def F.RECORD_TABLE_REPAIR_CNT_COUNT : Fld := ⟨0xA0001C, 0, 0, [0], 31, 0⟩
def F.RECORD_TABLE_FAIL_CNT_COUNT : Fld := ⟨0xA00020, 0, 0, [0], 31, 0⟩
def F.RECORD_CHn_STAT_SETTLING : Fld := ⟨0xA01000, 0x100, 0, [0], 7, 7⟩
def F.RECORD_CHn_STAT_CLOCK_HOLD : Fld := ⟨0xA01000, 0x100, 0, [0], 6, 6⟩
def F.RECORD_CHn_STAT_STREAM : Fld := ⟨0xA01000, 0x100, 0, [0], 5, 5⟩
def F.RECORD_CHn_STAT_CAPTURE : Fld := ⟨0xA01000, 0x100, 0, [0], 4, 4⟩
def F.RECORD_CHn_STAT_STAGE_OVF : Fld := ⟨0xA01000, 0x100, 0, [0], 3, 3⟩
def F.RECORD_CHn_STAT_DAMAGED : Fld := ⟨0xA01000, 0x100, 0, [0], 2, 2⟩
def F.RECORD_CHn_STAT_DECLINED : Fld := ⟨0xA01000, 0x100, 0, [0], 1, 1⟩
def F.RECORD_CHn_STAT_PEN_PAR : Fld := ⟨0xA01000, 0x100, 0, [0], 0, 0⟩
def F.RECORD_CHn_WRITER_SQ : Fld := ⟨0xA01004, 0x100, 0, [0], 21, 16⟩
def F.RECORD_CHn_WRITER_TAG : Fld := ⟨0xA01004, 0x100, 0, [0], 15, 0⟩
def F.RECORD_CHn_DEC_BITS : Fld := ⟨0xA01008, 0x100, 0, [0], 5, 4⟩
def F.RECORD_CHn_DEC_MODE : Fld := ⟨0xA01008, 0x100, 0, [0], 2, 0⟩
def F.RECORD_CHn_DEC_FACTOR_N : Fld := ⟨0xA0100C, 0x100, 0, [1], 31, 0⟩
def F.RECORD_CHn_PRE_MAX_PRE_MAX : Fld := ⟨0xA01010, 0x100, 0, [0xBF000], 31, 0⟩
def F.RECORD_CHn_SEG_CNT_COUNT : Fld := ⟨0xA01014, 0x100, 0, [0], 31, 0⟩
def F.RECORD_CHn_DECLINED_CNT_COUNT : Fld := ⟨0xA01018, 0x100, 0, [0], 31, 0⟩
def F.RECORD_CHn_LOST_CNT_COUNT : Fld := ⟨0xA0101C, 0x100, 0, [0], 31, 0⟩
def F.RECORD_CHn_TRUNC_CNT_COUNT : Fld := ⟨0xA01020, 0x100, 0, [0], 31, 0⟩
def F.RECORD_CHn_DAMAGED_CNT_COUNT : Fld := ⟨0xA01024, 0x100, 0, [0], 31, 0⟩
def F.RECORD_CHn_PEN_PAR_CNT_COUNT : Fld := ⟨0xA01028, 0x100, 0, [0], 31, 0⟩
def F.RECORD_CHn_STAGE_HWM_SAMPLES : Fld := ⟨0xA0102C, 0x100, 0, [0], 31, 0⟩
def F.RECORD_CHn_STAGE_OVF_CNT_COUNT : Fld := ⟨0xA01030, 0x100, 0, [0], 31, 0⟩
def F.RECORD_CHn_CREDIT_MARKS : Fld := ⟨0xA01034, 0x100, 0, [0], 16, 0⟩
def F.RECORD_CHn_OLDEST_LO_STAMP : Fld := ⟨0xA01038, 0x100, 0, [0], 31, 0⟩
def F.RECORD_CHn_OLDEST_HI_STAMP : Fld := ⟨0xA0103C, 0x100, 0, [0], 31, 0⟩
def F.RECORD_CHn_WRITTEN_LO_STAMP : Fld := ⟨0xA01040, 0x100, 0, [0], 31, 0⟩
def F.RECORD_CHn_WRITTEN_HI_STAMP : Fld := ⟨0xA01044, 0x100, 0, [0], 31, 0⟩
def F.RECORD_CHn_STORED_LO_COUNT : Fld := ⟨0xA01048, 0x100, 0, [0], 31, 0⟩
def F.RECORD_CHn_STORED_HI_COUNT : Fld := ⟨0xA0104C, 0x100, 0, [0], 31, 0⟩
def F.RECORD_CHn_CLOCK_CNT_COUNT : Fld := ⟨0xA01050, 0x100, 0, [0], 31, 0⟩
def F.RECORD_CHn_HELD_CNT_COUNT : Fld := ⟨0xA01054, 0x100, 0, [0], 8, 0⟩
def F.RECORD_CHn_SETTLE_LEFT_SAMPLES : Fld := ⟨0xA01058, 0x100, 0, [0], 31, 0⟩
def F.AFTERGLOW_COMMIT_GO : Fld := ⟨0xC00000, 0, 0, [0], 0, 0⟩
def F.AFTERGLOW_COMMIT_STAT_REJ_OWNED : Fld := ⟨0xC00004, 0, 0, [0], 1, 1⟩
def F.AFTERGLOW_COMMIT_STAT_PENDING : Fld := ⟨0xC00004, 0, 0, [0], 0, 0⟩
def F.AFTERGLOW_CHn_CTRL_HSHIFT : Fld := ⟨0xC01000, 0x100, 0, [0], 20, 16⟩
def F.AFTERGLOW_CHn_CTRL_EXCL10 : Fld := ⟨0xC01000, 0x100, 0, [0], 9, 9⟩
def F.AFTERGLOW_CHn_CTRL_EXCL01 : Fld := ⟨0xC01000, 0x100, 0, [0], 8, 8⟩
def F.AFTERGLOW_CHn_CTRL_MASK_EN : Fld := ⟨0xC01000, 0x100, 0, [0], 3, 3⟩
def F.AFTERGLOW_CHn_CTRL_ENV_EN : Fld := ⟨0xC01000, 0x100, 0, [0], 2, 2⟩
def F.AFTERGLOW_CHn_CTRL_SUM_EN : Fld := ⟨0xC01000, 0x100, 0, [0], 1, 1⟩
def F.AFTERGLOW_CHn_CTRL_HIST_EN : Fld := ⟨0xC01000, 0x100, 0, [0], 0, 0⟩
def F.AFTERGLOW_CHn_STAT_READING : Fld := ⟨0xC01004, 0x100, 0, [0], 6, 6⟩
def F.AFTERGLOW_CHn_STAT_CLEAR_PENDING : Fld := ⟨0xC01004, 0x100, 0, [0], 5, 5⟩
def F.AFTERGLOW_CHn_STAT_MASK_FAIL : Fld := ⟨0xC01004, 0x100, 0, [0], 4, 4⟩
def F.AFTERGLOW_CHn_STAT_POISON : Fld := ⟨0xC01004, 0x100, 0, [0], 3, 3⟩
def F.AFTERGLOW_CHn_STAT_SAT : Fld := ⟨0xC01004, 0x100, 0, [0], 2, 2⟩
def F.AFTERGLOW_CHn_STAT_RECOMPUTED : Fld := ⟨0xC01004, 0x100, 0, [0], 1, 1⟩
def F.AFTERGLOW_CHn_STAT_ACTIVE : Fld := ⟨0xC01004, 0x100, 0, [0], 0, 0⟩
def F.AFTERGLOW_CHn_WINDOWS_CNT_COUNT : Fld := ⟨0xC01008, 0x100, 0, [0], 31, 0⟩
def F.AFTERGLOW_CHn_WIDE_CNT_COUNT : Fld := ⟨0xC0100C, 0x100, 0, [0], 31, 0⟩
def F.AFTERGLOW_CHn_EXCL_CNT_COUNT : Fld := ⟨0xC01010, 0x100, 0, [0], 31, 0⟩
def F.AFTERGLOW_CHn_SAT_CNT_COUNT : Fld := ⟨0xC01014, 0x100, 0, [0], 31, 0⟩
def F.AFTERGLOW_CHn_POISON_CNT_COUNT : Fld := ⟨0xC01018, 0x100, 0, [0], 31, 0⟩
def F.AFTERGLOW_CHn_RECOMP_CNT_COUNT : Fld := ⟨0xC0101C, 0x100, 0, [0], 31, 0⟩
def F.AFTERGLOW_CHn_SUM_RECORDS_LO_COUNT : Fld := ⟨0xC01020, 0x100, 0, [0], 31, 0⟩
def F.AFTERGLOW_CHn_SUM_RECORDS_HI_COUNT : Fld := ⟨0xC01024, 0x100, 0, [0], 7, 0⟩
def F.AFTERGLOW_CHn_SUM_SKIP_CNT_COUNT : Fld := ⟨0xC01028, 0x100, 0, [0], 31, 0⟩
def F.AFTERGLOW_CHn_MASK_TESTED_CNT_COUNT : Fld := ⟨0xC0102C, 0x100, 0, [0], 31, 0⟩
def F.AFTERGLOW_CHn_MASK_FAIL_CNT_COUNT : Fld := ⟨0xC01030, 0x100, 0, [0], 31, 0⟩
def F.AFTERGLOW_CHn_MASK_FIRST_LO_STAMP : Fld := ⟨0xC01034, 0x100, 0, [0], 31, 0⟩
def F.AFTERGLOW_CHn_MASK_FIRST_HI_STAMP : Fld := ⟨0xC01038, 0x100, 0, [0], 31, 0⟩
def F.AFTERGLOW_CHn_MASK_FIRST_NUM_NUMBER : Fld := ⟨0xC0103C, 0x100, 0, [0], 31, 0⟩
def F.AFTERGLOW_CHn_MASK_FIRST_BIN_COLUMN : Fld := ⟨0xC01040, 0x100, 0, [0], 27, 16⟩
def F.AFTERGLOW_CHn_MASK_FIRST_BIN_ROW : Fld := ⟨0xC01040, 0x100, 0, [0], 9, 0⟩
def F.AFTERGLOW_CHn_CLEAR_STAMP_LO_T : Fld := ⟨0xC01044, 0x100, 0, [0], 31, 0⟩
def F.AFTERGLOW_CHn_CLEAR_STAMP_HI_T : Fld := ⟨0xC01048, 0x100, 0, [0], 31, 0⟩
def F.GB_CHF_SEL_SET : Fld := ⟨0x1000000, 0, 0, [0], 17, 16⟩
def F.GB_CHF_SEL_INDEX : Fld := ⟨0x1000000, 0, 0, [0], 8, 0⟩
def F.GB_CHF_DATA_COEF : Fld := ⟨0x1000004, 0, 0, [0], 31, 0⟩
def F.GB_ZONE_RATE_RATE : Fld := ⟨0x1000008, 0, 0, [0], 31, 0⟩
def F.GLIMMER_Ff_STAT_INTEGRITY : Fld := ⟨0x1001000, 0x100, 0, [0], 8, 8⟩
def F.GLIMMER_Ff_STAT_STATE_ERR : Fld := ⟨0x1001000, 0x100, 0, [0], 7, 7⟩
def F.GLIMMER_Ff_STAT_RECOMPUTED : Fld := ⟨0x1001000, 0x100, 0, [0], 6, 6⟩
def F.GLIMMER_Ff_STAT_FLAGGED : Fld := ⟨0x1001000, 0x100, 0, [0], 5, 5⟩
def F.GLIMMER_Ff_STAT_RESYNC : Fld := ⟨0x1001000, 0x100, 0, [0], 4, 4⟩
def F.GLIMMER_Ff_STAT_FADED : Fld := ⟨0x1001000, 0x100, 0, [0], 3, 3⟩
def F.GLIMMER_Ff_STAT_CLK_HOLD : Fld := ⟨0x1001000, 0x100, 0, [0], 2, 2⟩
def F.GLIMMER_Ff_STAT_SETTLING : Fld := ⟨0x1001000, 0x100, 0, [0], 1, 1⟩
def F.GLIMMER_Ff_STAT_RUNNING : Fld := ⟨0x1001000, 0x100, 0, [0], 0, 0⟩
def F.GLIMMER_Ff_JOB_SQ : Fld := ⟨0x1001004, 0x100, 0, [0], 21, 16⟩
def F.GLIMMER_Ff_JOB_TAG : Fld := ⟨0x1001004, 0x100, 0, [0], 15, 0⟩
def F.GLIMMER_Ff_FRAME_CNT_COUNT : Fld := ⟨0x1001008, 0x100, 0, [0], 31, 0⟩
def F.GLIMMER_Ff_FADED_CNT_COUNT : Fld := ⟨0x100100C, 0x100, 0, [0], 31, 0⟩
def F.GLIMMER_Ff_RESYNC_CNT_COUNT : Fld := ⟨0x1001010, 0x100, 0, [0], 31, 0⟩
def F.GLIMMER_Ff_FLAGGED_CNT_COUNT : Fld := ⟨0x1001014, 0x100, 0, [0], 31, 0⟩
def F.GLIMMER_Ff_RECOMP_CNT_COUNT : Fld := ⟨0x1001018, 0x100, 0, [0], 31, 0⟩
def F.GLIMMER_Ff_STATE_ERR_CNT_COUNT : Fld := ⟨0x100101C, 0x100, 0, [0], 31, 0⟩
def F.GLIMMER_Ff_ANCHOR_LO_STAMP : Fld := ⟨0x1001020, 0x100, 0, [0], 31, 0⟩
def F.GLIMMER_Ff_ANCHOR_HI_STAMP : Fld := ⟨0x1001024, 0x100, 0, [0], 31, 0⟩
def F.GLIMMER_Ff_LAT_MAX_LAT : Fld := ⟨0x1001028, 0x100, 0, [0], 31, 0⟩
def F.GLIMMER_Ff_EMIT_SKIP_CNT_COUNT : Fld := ⟨0x100102C, 0x100, 0, [0], 31, 0⟩
def F.BEACON_Bb_CTRL_MK_INV : Fld := ⟨0x1002000, 0x100, 0, [0], 5, 4⟩
def F.BEACON_Bb_CTRL_BANK : Fld := ⟨0x1002000, 0x100, 0, [0], 1, 1⟩
def F.BEACON_Bb_CTRL_PLAY : Fld := ⟨0x1002000, 0x100, 0, [0], 0, 0⟩
def F.BEACON_Bb_COMMIT_STAT_REJ_INVALID : Fld := ⟨0x1002008, 0x100, 0, [0], 3, 3⟩
def F.BEACON_Bb_COMMIT_STAT_REJ_POWER : Fld := ⟨0x1002008, 0x100, 0, [0], 2, 2⟩
def F.BEACON_Bb_COMMIT_STAT_REJ_OWNED : Fld := ⟨0x1002008, 0x100, 0, [0], 1, 1⟩
def F.BEACON_Bb_COMMIT_STAT_PENDING : Fld := ⟨0x1002008, 0x100, 0, [0], 0, 0⟩
def F.BEACON_Bb_STAT_TRUNC : Fld := ⟨0x100200C, 0x100, 0, [0], 6, 6⟩
def F.BEACON_Bb_STAT_BANK_VALID : Fld := ⟨0x100200C, 0x100, 0, [0], 5, 4⟩
def F.BEACON_Bb_STAT_CLK_HOLD : Fld := ⟨0x100200C, 0x100, 0, [0], 3, 3⟩
def F.BEACON_Bb_STAT_OWNED : Fld := ⟨0x100200C, 0x100, 0, [0], 2, 2⟩
def F.BEACON_Bb_STAT_ACTIVE_BANK : Fld := ⟨0x100200C, 0x100, 0, [0], 1, 1⟩
def F.BEACON_Bb_STAT_PLAYING : Fld := ⟨0x100200C, 0x100, 0, [0], 0, 0⟩
def F.BEACON_Bb_COMMIT_GO : Fld := ⟨0x1002004, 0x100, 0, [0], 0, 0⟩
def F.BEACON_Bb_START_LO_T : Fld := ⟨0x1002010, 0x100, 0, [0], 31, 0⟩
def F.BEACON_Bb_START_HI_T : Fld := ⟨0x1002014, 0x100, 0, [0], 31, 0⟩
def F.BEACON_Bb_TSTART_LO_T : Fld := ⟨0x1002018, 0x100, 0, [0], 31, 0⟩
def F.BEACON_Bb_TSTART_HI_T : Fld := ⟨0x100201C, 0x100, 0, [0], 31, 0⟩
def F.BEACON_Bb_CYCLE_LO_COUNT : Fld := ⟨0x1002020, 0x100, 0, [0], 31, 0⟩
def F.BEACON_Bb_CYCLE_HI_COUNT : Fld := ⟨0x1002024, 0x100, 0, [0], 31, 0⟩
def F.BEACON_Bb_EMIT_CNT_COUNT : Fld := ⟨0x1002028, 0x100, 0, [0], 31, 0⟩
def F.BEACON_Bb_TRUNC_CNT_COUNT : Fld := ⟨0x100202C, 0x100, 0, [0], 31, 0⟩
def F.FTEMP_In_STAT_INVALID : Fld := ⟨0x1401000, 0x100, 0, [0], 8, 8⟩
def F.FTEMP_In_STAT_RECOMPUTED : Fld := ⟨0x1401000, 0x100, 0, [0], 7, 7⟩
def F.FTEMP_In_STAT_INTEGRITY : Fld := ⟨0x1401000, 0x100, 0, [0], 6, 6⟩
def F.FTEMP_In_STAT_SKIPPED : Fld := ⟨0x1401000, 0x100, 0, [0], 5, 5⟩
def F.FTEMP_In_STAT_REF_STALE : Fld := ⟨0x1401000, 0x100, 0, [0], 4, 4⟩
def F.FTEMP_In_STAT_DIR_SETTLE : Fld := ⟨0x1401000, 0x100, 0, [0], 3, 3⟩
def F.FTEMP_In_STAT_CLK_HOLD : Fld := ⟨0x1401000, 0x100, 0, [0], 2, 2⟩
def F.FTEMP_In_STAT_DIR : Fld := ⟨0x1401000, 0x100, 0, [0], 1, 1⟩
def F.FTEMP_In_STAT_RUNNING : Fld := ⟨0x1401000, 0x100, 0, [0], 0, 0⟩
def F.FTEMP_In_JOB_SQ : Fld := ⟨0x1401004, 0x100, 0, [0], 21, 16⟩
def F.FTEMP_In_JOB_TAG : Fld := ⟨0x1401004, 0x100, 0, [0], 15, 0⟩
def F.FTEMP_In_FRAME_CNT_COUNT : Fld := ⟨0x1401008, 0x100, 0, [0], 31, 0⟩
def F.FTEMP_In_ACC_N_N : Fld := ⟨0x140100C, 0x100, 0, [0], 31, 0⟩
def F.FTEMP_In_SKIP_CNT_COUNT : Fld := ⟨0x1401010, 0x100, 0, [0], 31, 0⟩
def F.FTEMP_In_OVERLAP_CNT_COUNT : Fld := ⟨0x1401014, 0x100, 0, [0], 31, 0⟩
def F.FTEMP_In_REF_STALE_CNT_COUNT : Fld := ⟨0x1401018, 0x100, 0, [0], 31, 0⟩
def F.FTEMP_In_RECOMP_CNT_COUNT : Fld := ⟨0x140101C, 0x100, 0, [0], 31, 0⟩
def F.FTEMP_In_INVALID_CNT_COUNT : Fld := ⟨0x1401020, 0x100, 0, [0], 31, 0⟩
def F.FTEMP_In_C_NOW_C : Fld := ⟨0x1401024, 0x100, 0, [0], 31, 0⟩
def F.FTEMP_In_DALPHA_NOW_DALPHA : Fld := ⟨0x1401028, 0x100, 0, [0], 31, 0⟩
def F.FTEMP_In_REF0_T_T : Fld := ⟨0x140102C, 0x100, 0, [0], 31, 0⟩
def F.FTEMP_In_REF1_T_T : Fld := ⟨0x1401030, 0x100, 0, [0], 31, 0⟩
def F.FTEMP_In_ANCHOR_LO_STAMP : Fld := ⟨0x1401034, 0x100, 0, [0], 31, 0⟩
def F.FTEMP_In_ANCHOR_HI_STAMP : Fld := ⟨0x1401038, 0x100, 0, [0], 31, 0⟩
def F.FTEMP_In_LAT_MAX_LAT : Fld := ⟨0x140103C, 0x100, 0, [0], 31, 0⟩
def F.GLINT_INn_CTRL_TERM : Fld := ⟨0x1800000, 0x100, 0, [2], 6, 6⟩
def F.GLINT_INn_CTRL_SLOPE : Fld := ⟨0x1800000, 0x100, 0, [2], 2, 1⟩
def F.GLINT_INn_CTRL_ENABLE : Fld := ⟨0x1800000, 0x100, 0, [2], 0, 0⟩
def F.GLINT_INn_STAT_BORROWED : Fld := ⟨0x180000C, 0x100, 0, [0], 4, 4⟩
def F.GLINT_INn_STAT_OWNED : Fld := ⟨0x180000C, 0x100, 0, [0], 3, 3⟩
def F.GLINT_INn_STAT_FIFO_OVF : Fld := ⟨0x180000C, 0x100, 0, [0], 2, 2⟩
def F.GLINT_INn_STAT_INTERP_LOSS : Fld := ⟨0x180000C, 0x100, 0, [0], 1, 1⟩
def F.GLINT_INn_STAT_ACTIVE : Fld := ⟨0x180000C, 0x100, 0, [0], 0, 0⟩
def F.GLINT_INn_LEVEL_HYST : Fld := ⟨0x1800004, 0x100, 0, [0x666], 21, 16⟩
def F.GLINT_INn_LEVEL_THRESH : Fld := ⟨0x1800004, 0x100, 0, [0x666], 11, 0⟩
def F.GLINT_INn_TERM_DESKEW : Fld := ⟨0x1800008, 0x100, 0, [0x666], 31, 16⟩
def F.GLINT_INn_TERM_VTERM : Fld := ⟨0x1800008, 0x100, 0, [0x666], 11, 0⟩
def F.GLINT_INn_STAMP_CNT_COUNT : Fld := ⟨0x1800010, 0x100, 0, [0], 31, 0⟩
def F.GLINT_INn_LOSS_CNT_COUNT : Fld := ⟨0x1800014, 0x100, 0, [0], 31, 0⟩
def F.GLINT_Gg_CTRL_RES_SEL : Fld := ⟨0x1880000, 0x10, 0, [0], 5, 0⟩
def F.GLINT_Gg_STAT_CLASS : Fld := ⟨0x1880004, 0x10, 0, [0], 8, 8⟩
def F.GLINT_Gg_STAT_CLK_HOLD : Fld := ⟨0x1880004, 0x10, 0, [0], 7, 7⟩
def F.GLINT_Gg_STAT_INTEGRITY : Fld := ⟨0x1880004, 0x10, 0, [0], 6, 6⟩
def F.GLINT_Gg_STAT_REVERSED : Fld := ⟨0x1880004, 0x10, 0, [0], 5, 5⟩
def F.GLINT_Gg_STAT_NEAR : Fld := ⟨0x1880004, 0x10, 0, [0], 4, 4⟩
def F.GLINT_Gg_STAT_LOSS : Fld := ⟨0x1880004, 0x10, 0, [0], 3, 3⟩
def F.GLINT_Gg_STAT_TIME_WRAP : Fld := ⟨0x1880004, 0x10, 0, [0], 2, 2⟩
def F.GLINT_Gg_STAT_WINDOW : Fld := ⟨0x1880004, 0x10, 0, [0], 1, 1⟩
def F.GLINT_Gg_STAT_RUNNING : Fld := ⟨0x1880004, 0x10, 0, [0], 0, 0⟩
def F.GLINT_Gg_RES_HDR_NEW : Fld := ⟨0x1880008, 0x10, 0, [0], 31, 31⟩
def F.GLINT_Gg_RES_HDR_FLAGS : Fld := ⟨0x1880008, 0x10, 0, [0], 30, 26⟩
def F.GLINT_Gg_RES_HDR_N_ENTRIES : Fld := ⟨0x1880008, 0x10, 0, [0], 23, 16⟩
def F.GLINT_Gg_RES_HDR_SEQ : Fld := ⟨0x1880008, 0x10, 0, [0], 15, 0⟩
def F.GLINT_Gg_RES_DATA_WORD : Fld := ⟨0x188000C, 0x10, 0, [0], 31, 0⟩
def F.GLINT_COMMIT_GO : Fld := ⟨0x1881000, 0, 0, [0], 0, 0⟩
def F.GLINT_COMMIT_STAT_REJ_WHERE : Fld := ⟨0x1881004, 0, 0, [0], 24, 16⟩
def F.GLINT_COMMIT_STAT_REJ_OWNED : Fld := ⟨0x1881004, 0, 0, [0], 1, 1⟩
def F.GLINT_COMMIT_STAT_PENDING : Fld := ⟨0x1881004, 0, 0, [0], 0, 0⟩
def F.GLINT_GATEp_TERM : Fld := ⟨0x1881010, 4, 0, [0x666], 24, 24⟩
def F.GLINT_GATEp_HYST : Fld := ⟨0x1881010, 4, 0, [0x666], 21, 16⟩
def F.GLINT_GATEp_THRESH : Fld := ⟨0x1881010, 4, 0, [0x666], 11, 0⟩
def F.GLINT_STAMP_RATE_RATE : Fld := ⟨0x1881020, 0, 0, [0], 31, 0⟩
def F.GLINT_GATE_SKIP_CNT_COUNT : Fld := ⟨0x1881024, 0, 0, [0], 31, 0⟩
def F.LUMEN_Tt_STAT_GANG : Fld := ⟨0x2000000, 0x1000, 0, [0], 12, 11⟩
def F.LUMEN_Tt_STAT_LEAD : Fld := ⟨0x2000000, 0x1000, 0, [0], 10, 10⟩
def F.LUMEN_Tt_STAT_RETAINED : Fld := ⟨0x2000000, 0x1000, 0, [0], 9, 9⟩
def F.LUMEN_Tt_STAT_LOADED : Fld := ⟨0x2000000, 0x1000, 0, [0], 8, 8⟩
def F.LUMEN_Tt_STAT_NAN : Fld := ⟨0x2000000, 0x1000, 0, [0], 7, 7⟩
def F.LUMEN_Tt_STAT_SAT : Fld := ⟨0x2000000, 0x1000, 0, [0], 6, 6⟩
def F.LUMEN_Tt_STAT_AOV : Fld := ⟨0x2000000, 0x1000, 0, [0], 5, 5⟩
def F.LUMEN_Tt_STAT_PARITY : Fld := ⟨0x2000000, 0x1000, 0, [0], 4, 4⟩
def F.LUMEN_Tt_STAT_FAULT : Fld := ⟨0x2000000, 0x1000, 0, [0], 3, 3⟩
def F.LUMEN_Tt_STAT_HALTED : Fld := ⟨0x2000000, 0x1000, 0, [0], 2, 2⟩
def F.LUMEN_Tt_STAT_WAITING : Fld := ⟨0x2000000, 0x1000, 0, [0], 1, 1⟩
def F.LUMEN_Tt_STAT_RUNNING : Fld := ⟨0x2000000, 0x1000, 0, [0], 0, 0⟩
def F.LUMEN_Tt_FAULT_PC : Fld := ⟨0x2000004, 0x1000, 0, [0], 26, 16⟩
def F.LUMEN_Tt_FAULT_CODE : Fld := ⟨0x2000004, 0x1000, 0, [0], 7, 0⟩
def F.LUMEN_Tt_PC_PC : Fld := ⟨0x2000008, 0x1000, 0, [0], 10, 0⟩
def F.LUMEN_Tt_JOB_SQ : Fld := ⟨0x200000C, 0x1000, 0, [0], 21, 16⟩
def F.LUMEN_Tt_JOB_TAG : Fld := ⟨0x200000C, 0x1000, 0, [0], 15, 0⟩
def F.LUMEN_Tt_MAIL_VALUE : Fld := ⟨0x2000010, 0x1000, 0, [0], 31, 0⟩
def F.LUMEN_Tt_CYCLE_LO_COUNT : Fld := ⟨0x2000014, 0x1000, 0, [0], 31, 0⟩
def F.LUMEN_Tt_CYCLE_HI_COUNT : Fld := ⟨0x2000018, 0x1000, 0, [0], 31, 0⟩
def F.LUMEN_Tt_ITEM_CNT_COUNT : Fld := ⟨0x200001C, 0x1000, 0, [0], 31, 0⟩
def F.LUMEN_Tt_OUT_CNT_COUNT : Fld := ⟨0x2000020, 0x1000, 0, [0], 31, 0⟩
def F.LUMEN_Tt_LOST_CNT_COUNT : Fld := ⟨0x2000024, 0x1000, 0, [0], 31, 0⟩
def F.LUMEN_Tt_PAR_CNT_COUNT : Fld := ⟨0x2000028, 0x1000, 0, [0], 31, 0⟩
def F.LUMEN_Tt_RECOMP_CNT_COUNT : Fld := ⟨0x200002C, 0x1000, 0, [0], 31, 0⟩
def F.LUMEN_Tt_IRQ_CNT_COUNT : Fld := ⟨0x2000030, 0x1000, 0, [0], 31, 0⟩
def F.LUMEN_Tt_MAXITEM_CYCLES : Fld := ⟨0x2000034, 0x1000, 0, [0], 31, 0⟩
def F.LUMEN_STAT_RUNNING : Fld := ⟨0x2100000, 0, 0, [0], 8, 0⟩
def F.LUMEN_HELD_PAGES_PAGES : Fld := ⟨0x2100004, 0, 0, [0], 15, 0⟩
def F.LUMEN_FAULT_CNT_COUNT : Fld := ⟨0x2100008, 0, 0, [0], 31, 0⟩
def F.LUMEN_PAR_CNT_COUNT : Fld := ⟨0x210000C, 0, 0, [0], 31, 0⟩
def F.POOL_STAT_DEGRADED : Fld := ⟨0x3000000, 0, 0, [0], 3, 3⟩
def F.POOL_STAT_MARCH_HOLD : Fld := ⟨0x3000000, 0, 0, [0], 2, 2⟩
def F.POOL_STAT_PAR : Fld := ⟨0x3000000, 0, 0, [0], 1, 1⟩
def F.POOL_STAT_TESTED : Fld := ⟨0x3000000, 0, 0, [0], 0, 0⟩
def F.POOL_MARCH_CTRL_SIDE_MASK : Fld := ⟨0x3000020, 0, 0, [0xE], 3, 2⟩
def F.POOL_MARCH_CTRL_MODE : Fld := ⟨0x3000020, 0, 0, [0xE], 1, 1⟩
def F.POOL_MARCH_CTRL_GO : Fld := ⟨0x3000020, 0, 0, [0xE], 0, 0⟩
def F.POOL_MARCH_STAT_BANK : Fld := ⟨0x3000024, 0, 0, [0], 21, 16⟩
def F.POOL_MARCH_STAT_INCOMPLETE : Fld := ⟨0x3000024, 0, 0, [0], 4, 4⟩
def F.POOL_MARCH_STAT_REJ_BUSY : Fld := ⟨0x3000024, 0, 0, [0], 3, 3⟩
def F.POOL_MARCH_STAT_FAIL : Fld := ⟨0x3000024, 0, 0, [0], 2, 2⟩
def F.POOL_MARCH_STAT_DONE : Fld := ⟨0x3000024, 0, 0, [0], 1, 1⟩
def F.POOL_MARCH_STAT_BUSY : Fld := ⟨0x3000024, 0, 0, [0], 0, 0⟩
def F.POOL_FREE_SIDE_B : Fld := ⟨0x3000004, 0, 0, [0], 31, 16⟩
def F.POOL_FREE_SIDE_A : Fld := ⟨0x3000004, 0, 0, [0], 15, 0⟩
def F.POOL_LONGEST_SIDE_B : Fld := ⟨0x3000008, 0, 0, [0], 31, 16⟩
def F.POOL_LONGEST_SIDE_A : Fld := ⟨0x3000008, 0, 0, [0], 15, 0⟩
def F.POOL_PAR_CNT_COUNT : Fld := ⟨0x300000C, 0, 0, [0], 31, 0⟩
def F.POOL_PAR_ADDR_PORT : Fld := ⟨0x3000010, 0, 0, [0], 31, 30⟩
def F.POOL_PAR_ADDR_ADDR : Fld := ⟨0x3000010, 0, 0, [0], 24, 0⟩
def F.POOL_MGMT_REPAIR_CNT_COUNT : Fld := ⟨0x3000014, 0, 0, [0], 31, 0⟩
def F.POOL_MGMT_FAIL_CNT_COUNT : Fld := ⟨0x3000018, 0, 0, [0], 31, 0⟩
def F.POOL_WAIT_MAX_CYCLES : Fld := ⟨0x300001C, 0, 0, [0], 11, 0⟩
def F.POOL_MARCH_FAIL_LO_BANKS : Fld := ⟨0x3000028, 0, 0, [0], 31, 0⟩
def F.POOL_MARCH_FAIL_HI_BANKS : Fld := ⟨0x300002C, 0, 0, [0], 31, 0⟩
def F.POOL_MARCH_FIRST_BKG : Fld := ⟨0x3000030, 0, 0, [0], 31, 29⟩
def F.POOL_MARCH_FIRST_ADDR : Fld := ⟨0x3000030, 0, 0, [0], 24, 0⟩
def F.POOL_MARCH_TIME_US : Fld := ⟨0x3000034, 0, 0, [0], 31, 0⟩
def F.POOL_MARCH_RUN_CNT_COUNT : Fld := ⟨0x3000038, 0, 0, [0], 31, 0⟩
def F.POOL_RETIRED_PAGES : Fld := ⟨0x300003C, 0, 0, [0], 12, 0⟩
def F.HBMC_STAT_OFFLINE : Fld := ⟨0x3200000, 0, 0, [0], 3, 2⟩
def F.HBMC_STAT_TRAINED : Fld := ⟨0x3200000, 0, 0, [0], 1, 0⟩
def F.HBMC_TRAIN_TIME_US : Fld := ⟨0x3200004, 0, 0, [0], 31, 0⟩
def F.HBMC_Ss_CTRL_GRAIN : Fld := ⟨0x3201000, 0x100, 0, [0x40100], 19, 16⟩
def F.HBMC_Ss_CTRL_NR_PROB : Fld := ⟨0x3201000, 0x100, 0, [0x40100], 15, 0⟩
def F.HBMC_Ss_STAT_CRC : Fld := ⟨0x3201010, 0x100, 0, [0], 6, 6⟩
def F.HBMC_Ss_STAT_OVERDUE : Fld := ⟨0x3201010, 0x100, 0, [0], 5, 5⟩
def F.HBMC_Ss_STAT_SREF : Fld := ⟨0x3201010, 0x100, 0, [0], 4, 4⟩
def F.HBMC_Ss_STAT_DRAIN : Fld := ⟨0x3201010, 0x100, 0, [0], 3, 3⟩
def F.HBMC_Ss_STAT_HOT : Fld := ⟨0x3201010, 0x100, 0, [0], 2, 2⟩
def F.HBMC_Ss_STAT_OFFLINE : Fld := ⟨0x3201010, 0x100, 0, [0], 1, 1⟩
def F.HBMC_Ss_STAT_TRAINED : Fld := ⟨0x3201010, 0x100, 0, [0], 0, 0⟩
def F.HBMC_Ss_WM_HIGH : Fld := ⟨0x3201004, 0x100, 0, [0x300010], 21, 16⟩
def F.HBMC_Ss_WM_LOW : Fld := ⟨0x3201004, 0x100, 0, [0x300010], 5, 0⟩
def F.HBMC_Ss_COMMIT_GO : Fld := ⟨0x3201008, 0x100, 0, [0], 0, 0⟩
def F.HBMC_Ss_COMMIT_STAT_REJ_INVALID : Fld := ⟨0x320100C, 0x100, 0, [0], 2, 2⟩
def F.HBMC_Ss_COMMIT_STAT_REJ_BUSY : Fld := ⟨0x320100C, 0x100, 0, [0], 1, 1⟩
def F.HBMC_Ss_COMMIT_STAT_PENDING : Fld := ⟨0x320100C, 0x100, 0, [0], 0, 0⟩
def F.HBMC_Ss_TEMP_TEMP : Fld := ⟨0x3201014, 0x100, 0, [0], 7, 0⟩
def F.HBMC_Ss_PC_FAIL_PC : Fld := ⟨0x3201018, 0x100, 0, [0], 31, 0⟩
def F.HBMC_Ss_EYE_MIN_WR_EYE : Fld := ⟨0x320101C, 0x100, 0, [0], 30, 24⟩
def F.HBMC_Ss_EYE_MIN_WR_LANE : Fld := ⟨0x320101C, 0x100, 0, [0], 23, 16⟩
def F.HBMC_Ss_EYE_MIN_RD_EYE : Fld := ⟨0x320101C, 0x100, 0, [0], 14, 8⟩
def F.HBMC_Ss_EYE_MIN_RD_LANE : Fld := ⟨0x320101C, 0x100, 0, [0], 7, 0⟩
def F.HBMC_Ss_REPAIR_CNT_LANES : Fld := ⟨0x3201020, 0x100, 0, [0], 7, 0⟩
def F.HBMC_Ss_TRACK_CNT_COUNT : Fld := ⟨0x3201024, 0x100, 0, [0], 31, 0⟩
def F.HBMC_Ss_CRC_CNT_COUNT : Fld := ⟨0x3201028, 0x100, 0, [0], 31, 0⟩
def F.HBMC_Ss_NIB_CNT_COUNT : Fld := ⟨0x320102C, 0x100, 0, [0], 31, 0⟩
def F.HBMC_Ss_ERR_ADDR_LO_ADDR : Fld := ⟨0x3201030, 0x100, 0, [0], 31, 0⟩
def F.HBMC_Ss_ERR_ADDR_HI_ADDR : Fld := ⟨0x3201034, 0x100, 0, [0], 3, 0⟩
def F.HBMC_Ss_NR_CNT_COUNT : Fld := ⟨0x3201038, 0x100, 0, [0], 31, 0⟩
def F.HBMC_Ss_FWD_CNT_COUNT : Fld := ⟨0x320103C, 0x100, 0, [0], 31, 0⟩
def F.HBMC_Ss_DRAIN_CNT_COUNT : Fld := ⟨0x3201040, 0x100, 0, [0], 31, 0⟩
def F.HBMC_Ss_URGENT_CNT_COUNT : Fld := ⟨0x3201044, 0x100, 0, [0], 31, 0⟩
def F.HBMC_Ss_OVERDUE_CNT_COUNT : Fld := ⟨0x3201048, 0x100, 0, [0], 31, 0⟩
def F.HBMC_Ss_SREF_CNT_COUNT : Fld := ⟨0x320104C, 0x100, 0, [0], 31, 0⟩
def F.HBMC_Ss_POISON_CNT_COUNT : Fld := ⟨0x3201050, 0x100, 0, [0], 31, 0⟩
def F.HBMC_Ss_LTp_LT : Fld := ⟨0x3201060, 0x100, 4, [0x1F4, 0x3E8, 0x7D0, 0x3E8, 0x7D0, 0x7D0, 0x7D0, 0xFA0], 15, 0⟩
def F.HBMC_Ss_MAXLATp_LAT : Fld := ⟨0x3201080, 0x100, 4, [0, 0, 0, 0, 0, 0, 0, 0], 15, 0⟩
def F.CLOCK_SSYN_CTRL_AUTO_XIN : Fld := ⟨0x3400008, 0, 0, [0x130], 8, 8⟩
def F.CLOCK_SSYN_CTRL_REFIN_FREQ : Fld := ⟨0x3400008, 0, 0, [0x130], 6, 4⟩
def F.CLOCK_SSYN_CTRL_SRC : Fld := ⟨0x3400008, 0, 0, [0x130], 1, 0⟩
def F.CLOCK_SSYN_STAT_STEPPING : Fld := ⟨0x3400010, 0, 0, [0], 7, 7⟩
def F.CLOCK_SSYN_STAT_REF_LOST : Fld := ⟨0x3400010, 0, 0, [0], 6, 6⟩
def F.CLOCK_SSYN_STAT_LOCK_LOST : Fld := ⟨0x3400010, 0, 0, [0], 5, 5⟩
def F.CLOCK_SSYN_STAT_ON_XIN : Fld := ⟨0x3400010, 0, 0, [0], 4, 4⟩
def F.CLOCK_SSYN_STAT_RETURN_WAIT : Fld := ⟨0x3400010, 0, 0, [0], 3, 3⟩
def F.CLOCK_SSYN_STAT_COASTING : Fld := ⟨0x3400010, 0, 0, [0], 2, 2⟩
def F.CLOCK_SSYN_STAT_REF_PRESENT : Fld := ⟨0x3400010, 0, 0, [0], 1, 1⟩
def F.CLOCK_SSYN_STAT_LOCKED : Fld := ⟨0x3400010, 0, 0, [0], 0, 0⟩
def F.CLOCK_COMMIT_GO : Fld := ⟨0x3400000, 0, 0, [0], 0, 0⟩
def F.CLOCK_COMMIT_STAT_REJ_INVALID : Fld := ⟨0x3400004, 0, 0, [0], 2, 2⟩
def F.CLOCK_COMMIT_STAT_REJ_BUSY : Fld := ⟨0x3400004, 0, 0, [0], 1, 1⟩
def F.CLOCK_COMMIT_STAT_PENDING : Fld := ⟨0x3400004, 0, 0, [0], 0, 0⟩
def F.CLOCK_SSYN_DIV_REF_DIV : Fld := ⟨0x340000C, 0, 0, [0x100A0], 23, 16⟩
def F.CLOCK_SSYN_DIV_FB_DIV : Fld := ⟨0x340000C, 0, 0, [0x100A0], 10, 0⟩
def F.CLOCK_REFRET_WINDOW_WINDOW : Fld := ⟨0x3400014, 0, 0, [0x200], 19, 0⟩
def F.CLOCK_REFRET_CMD_BUILD_OUT : Fld := ⟨0x3400018, 0, 0, [0], 0, 0⟩
def F.CLOCK_REFRET_STEP_STEP : Fld := ⟨0x340001C, 0, 0, [0], 31, 0⟩
def F.CLOCK_COAST_LIMIT_S : Fld := ⟨0x3400020, 0, 0, [0xA], 15, 0⟩
def F.CLOCK_HOLD_TUNE : Fld := ⟨0x3400024, 0, 0, [0], 31, 16⟩
def F.CLOCK_HOLD_DAC : Fld := ⟨0x3400024, 0, 0, [0], 15, 0⟩
def F.CLOCK_PHASE_TOL_PS : Fld := ⟨0x3400028, 0, 0, [0x64], 9, 0⟩
def F.CLOCK_TIME_LO_TIME : Fld := ⟨0x3400030, 0, 0, [0], 31, 0⟩
def F.CLOCK_TIME_HI_TIME : Fld := ⟨0x3400034, 0, 0, [0], 31, 0⟩
def F.CLOCK_EPOCH_EPOCH : Fld := ⟨0x3400038, 0, 0, [0], 31, 0⟩
def F.CLOCK_CPLL_STAT_LOCK_LOST : Fld := ⟨0x340003C, 0, 0, [0], 2, 2⟩
def F.CLOCK_CPLL_STAT_FALLBACK : Fld := ⟨0x340003C, 0, 0, [0], 1, 1⟩
def F.CLOCK_CPLL_STAT_LOCKED : Fld := ⟨0x340003C, 0, 0, [0], 0, 0⟩
def F.CLOCK_MPLL_STAT_LOCK_LOST : Fld := ⟨0x3400040, 0, 0, [0], 1, 1⟩
def F.CLOCK_MPLL_STAT_LOCKED : Fld := ⟨0x3400040, 0, 0, [0], 0, 0⟩
def F.CLOCK_REF_STAT_ERN : Fld := ⟨0x3400044, 0, 0, [0], 2, 2⟩
def F.CLOCK_REF_STAT_REFIN : Fld := ⟨0x3400044, 0, 0, [0], 1, 1⟩
def F.CLOCK_REF_STAT_XIN : Fld := ⟨0x3400044, 0, 0, [0], 0, 0⟩
def F.CLOCK_REFIN_MEAS_KHZ : Fld := ⟨0x3400048, 0, 0, [0], 17, 0⟩
def F.CLOCK_SSYN_LOSS_CNT_COUNT : Fld := ⟨0x3400050, 0, 0, [0], 31, 0⟩
def F.CLOCK_CPLL_LOSS_CNT_COUNT : Fld := ⟨0x3400054, 0, 0, [0], 31, 0⟩
def F.CLOCK_MPLL_LOSS_CNT_COUNT : Fld := ⟨0x3400058, 0, 0, [0], 31, 0⟩
def F.CLOCK_COAST_CNT_COUNT : Fld := ⟨0x340005C, 0, 0, [0], 31, 0⟩
def F.CLOCK_REFRET_CNT_COUNT : Fld := ⟨0x3400060, 0, 0, [0], 31, 0⟩
def F.CLOCK_STEP_CNT_COUNT : Fld := ⟨0x3400064, 0, 0, [0], 31, 0⟩
def F.ERNOS_CTRL_PORT_EN : Fld := ⟨0x3401000, 0, 0, [0], 5, 4⟩
def F.ERNOS_CTRL_ROLE : Fld := ⟨0x3401000, 0, 0, [0], 1, 0⟩
def F.ERNOS_STAT_ALIGN_LOST : Fld := ⟨0x3401004, 0, 0, [0], 7, 7⟩
def F.ERNOS_STAT_LINK_DOWN : Fld := ⟨0x3401004, 0, 0, [0], 6, 6⟩
def F.ERNOS_STAT_DN_UP : Fld := ⟨0x3401004, 0, 0, [0], 5, 5⟩
def F.ERNOS_STAT_UP_UP : Fld := ⟨0x3401004, 0, 0, [0], 4, 4⟩
def F.ERNOS_STAT_UPSTREAM : Fld := ⟨0x3401004, 0, 0, [0], 3, 3⟩
def F.ERNOS_STAT_HEAD_SEEN : Fld := ⟨0x3401004, 0, 0, [0], 2, 2⟩
def F.ERNOS_STAT_TRIG_OK : Fld := ⟨0x3401004, 0, 0, [0], 1, 1⟩
def F.ERNOS_STAT_ALIGNED : Fld := ⟨0x3401004, 0, 0, [0], 0, 0⟩
def F.ERNOS_INDEX_SIZE : Fld := ⟨0x3401008, 0, 0, [0], 21, 16⟩
def F.ERNOS_INDEX_HOPS : Fld := ⟨0x3401008, 0, 0, [0], 12, 8⟩
def F.ERNOS_INDEX_INDEX : Fld := ⟨0x3401008, 0, 0, [0], 4, 0⟩
def F.ERNOS_ALIGN_TOL_TICKS : Fld := ⟨0x340100C, 0, 0, [0x21], 15, 0⟩
def F.ERNOS_OFFSET_OFFSET : Fld := ⟨0x3401010, 0, 0, [0], 31, 0⟩
def F.ERNOS_UP_DELAY_TICKS : Fld := ⟨0x3401014, 0, 0, [0], 31, 0⟩
def F.ERNOS_DN_DELAY_TICKS : Fld := ⟨0x3401018, 0, 0, [0], 31, 0⟩
def F.ERNOS_HEAD_DELAY_TICKS : Fld := ⟨0x340101C, 0, 0, [0], 31, 0⟩
def F.ERNOS_REACH_TICKS : Fld := ⟨0x3401020, 0, 0, [0], 31, 0⟩
def F.ERNOS_LINK_DOWN_CNT_COUNT : Fld := ⟨0x3401024, 0, 0, [0], 31, 0⟩
def F.ERNOS_LINK_ERR_CNT_COUNT : Fld := ⟨0x3401028, 0, 0, [0], 31, 0⟩
def F.ERNOS_ALIGN_LOST_CNT_COUNT : Fld := ⟨0x340102C, 0, 0, [0], 31, 0⟩
def F.AMU_STAT_XIN_HOLD : Fld := ⟨0x3600008, 0, 0, [0], 6, 6⟩
def F.AMU_STAT_OW : Fld := ⟨0x3600008, 0, 0, [0], 5, 5⟩
def F.AMU_STAT_OVR : Fld := ⟨0x3600008, 0, 0, [0], 4, 4⟩
def F.AMU_STAT_CAL_SLOT : Fld := ⟨0x3600008, 0, 0, [0], 3, 3⟩
def F.AMU_STAT_INJ_WAITING : Fld := ⟨0x3600008, 0, 0, [0], 2, 2⟩
def F.AMU_STAT_INJ_BUSY : Fld := ⟨0x3600008, 0, 0, [0], 1, 1⟩
def F.AMU_STAT_SEQ_RUNNING : Fld := ⟨0x3600008, 0, 0, [0], 0, 0⟩
def F.AMU_INJ_CFG_REJ5060 : Fld := ⟨0x360000C, 0, 0, [0x100400], 23, 23⟩
def F.AMU_INJ_CFG_FIR : Fld := ⟨0x360000C, 0, 0, [0x100400], 22, 22⟩
def F.AMU_INJ_CFG_ORDER : Fld := ⟨0x360000C, 0, 0, [0x100400], 21, 20⟩
def F.AMU_INJ_CFG_OSR : Fld := ⟨0x360000C, 0, 0, [0x100400], 17, 0⟩
def F.AMU_RESULTn_HDR_NEW : Fld := ⟨0x3600100, 0x10, 0, [0], 31, 31⟩
def F.AMU_RESULTn_HDR_SETTLED : Fld := ⟨0x3600100, 0x10, 0, [0], 30, 30⟩
def F.AMU_RESULTn_HDR_OVR : Fld := ⟨0x3600100, 0x10, 0, [0], 29, 29⟩
def F.AMU_RESULTn_HDR_OPEN_WIRE : Fld := ⟨0x3600100, 0x10, 0, [0], 28, 28⟩
def F.AMU_RESULTn_HDR_REF_LOW : Fld := ⟨0x3600100, 0x10, 0, [0], 27, 27⟩
def F.AMU_RESULTn_HDR_RANGE : Fld := ⟨0x3600100, 0x10, 0, [0], 26, 26⟩
def F.AMU_RESULTn_HDR_BREAK : Fld := ⟨0x3600100, 0x10, 0, [0], 25, 25⟩
def F.AMU_RESULTn_HDR_SEQ : Fld := ⟨0x3600100, 0x10, 0, [0], 15, 0⟩
def F.AMU_COMMIT_GO : Fld := ⟨0x3600000, 0, 0, [0], 0, 0⟩
def F.AMU_COMMIT_STAT_REJ_INVALID : Fld := ⟨0x3600004, 0, 0, [0], 2, 2⟩
def F.AMU_COMMIT_STAT_REJ_BUSY : Fld := ⟨0x3600004, 0, 0, [0], 1, 1⟩
def F.AMU_COMMIT_STAT_PENDING : Fld := ⟨0x3600004, 0, 0, [0], 0, 0⟩
def F.AMU_CJC_T : Fld := ⟨0x3600010, 0, 0, [0], 15, 0⟩
def F.AMU_SWAP_GO : Fld := ⟨0x3600014, 0, 0, [0], 0, 0⟩
def F.AMU_PASS_CNT_COUNT : Fld := ⟨0x3600018, 0, 0, [0], 31, 0⟩
def F.AMU_OVR_CNT_COUNT : Fld := ⟨0x360001C, 0, 0, [0], 31, 0⟩
def F.AMU_OW_CNT_COUNT : Fld := ⟨0x3600020, 0, 0, [0], 31, 0⟩
def F.AMU_UNSETTLED_CNT_COUNT : Fld := ⟨0x3600024, 0, 0, [0], 31, 0⟩
def F.AMU_PREEMPT_CNT_COUNT : Fld := ⟨0x3600028, 0, 0, [0], 31, 0⟩
def F.AMU_SEQ_JOB_SQ : Fld := ⟨0x360002C, 0, 0, [0], 21, 16⟩
def F.AMU_SEQ_JOB_TAG : Fld := ⟨0x360002C, 0, 0, [0], 15, 0⟩
def F.AMU_RESULTn_VALUE_VALUE : Fld := ⟨0x3600104, 0x10, 0, [0], 31, 0⟩
def F.AMU_RESULTn_TIME_LO_TIME : Fld := ⟨0x3600108, 0x10, 0, [0], 31, 0⟩
def F.AMU_RESULTn_TIME_HI_TIME : Fld := ⟨0x360010C, 0x10, 0, [0], 31, 0⟩
def F.LOOPk_CTRL_WDOG_MS : Fld := ⟨0x3600200, 0x20, 0, [0], 31, 16⟩
def F.LOOPk_CTRL_FORCE : Fld := ⟨0x3600200, 0x20, 0, [0], 2, 2⟩
def F.LOOPk_CTRL_FAULT_HIGH : Fld := ⟨0x3600200, 0x20, 0, [0], 1, 1⟩
def F.LOOPk_CTRL_ENABLE : Fld := ⟨0x3600200, 0x20, 0, [0], 0, 0⟩
def F.LOOPk_SET_UA : Fld := ⟨0x3600204, 0x20, 0, [0xFA0], 14, 0⟩
def F.LOOPk_READ_UA : Fld := ⟨0x3600208, 0x20, 0, [0], 14, 0⟩
def F.LOOPk_STAT_CLAMP : Fld := ⟨0x360020C, 0x20, 0, [0], 4, 4⟩
def F.LOOPk_STAT_FAULT : Fld := ⟨0x360020C, 0x20, 0, [0], 3, 3⟩
def F.LOOPk_STAT_WDOG : Fld := ⟨0x360020C, 0x20, 0, [0], 2, 2⟩
def F.LOOPk_STAT_AT_FAULT : Fld := ⟨0x360020C, 0x20, 0, [0], 1, 1⟩
def F.LOOPk_STAT_ACTIVE : Fld := ⟨0x360020C, 0x20, 0, [0], 0, 0⟩
def F.LOOPk_FAULT_CNT_COUNT : Fld := ⟨0x3600210, 0x20, 0, [0], 31, 0⟩
def F.AMU_INJ_RES_HDR_NEW : Fld := ⟨0x3600040, 0, 0, [0], 31, 31⟩
def F.AMU_INJ_RES_HDR_SETTLED : Fld := ⟨0x3600040, 0, 0, [0], 30, 30⟩
def F.AMU_INJ_RES_HDR_OVR : Fld := ⟨0x3600040, 0, 0, [0], 29, 29⟩
def F.AMU_INJ_RES_HDR_OPEN_WIRE : Fld := ⟨0x3600040, 0, 0, [0], 28, 28⟩
def F.AMU_INJ_RES_HDR_REF_LOW : Fld := ⟨0x3600040, 0, 0, [0], 27, 27⟩
def F.AMU_INJ_RES_HDR_RANGE : Fld := ⟨0x3600040, 0, 0, [0], 26, 26⟩
def F.AMU_INJ_RES_HDR_BREAK : Fld := ⟨0x3600040, 0, 0, [0], 25, 25⟩
def F.AMU_INJ_RES_HDR_SEQ : Fld := ⟨0x3600040, 0, 0, [0], 15, 0⟩
def F.AMU_INJ_RES_VALUE_VALUE : Fld := ⟨0x3600044, 0, 0, [0], 31, 0⟩
def F.AMU_INJ_RES_TIME_LO_TIME : Fld := ⟨0x3600048, 0, 0, [0], 31, 0⟩
def F.AMU_INJ_RES_TIME_HI_TIME : Fld := ⟨0x360004C, 0, 0, [0], 31, 0⟩
def F.MGMT_STAT_HANDBACK : Fld := ⟨0x3800000, 0, 0, [0], 4, 4⟩
def F.MGMT_STAT_PROBATION : Fld := ⟨0x3800000, 0, 0, [0], 3, 3⟩
def F.MGMT_STAT_HANDOVER : Fld := ⟨0x3800000, 0, 0, [0], 2, 2⟩
def F.MGMT_STAT_ACTIVE_SLOT : Fld := ⟨0x3800000, 0, 0, [0], 0, 0⟩
def F.MGMT_VERSION_VERSION : Fld := ⟨0x3800004, 0, 0, [0], 31, 0⟩
def F.MGMT_OTHER_VERSION_VERSION : Fld := ⟨0x3800008, 0, 0, [0], 31, 0⟩
def F.MGMT_RECORD_VERSION_VERSION : Fld := ⟨0x380000C, 0, 0, [0], 15, 0⟩
def F.MGMT_PROBATION_LEFT_MS : Fld := ⟨0x3800010, 0, 0, [0], 13, 0⟩
def F.MGMT_HANDOVER_CNT_COUNT : Fld := ⟨0x3800014, 0, 0, [0], 31, 0⟩
def F.MGMT_HANDBACK_CNT_COUNT : Fld := ⟨0x3800018, 0, 0, [0], 31, 0⟩
def F.MGMT_FREEZE_MAX_US : Fld := ⟨0x380001C, 0, 0, [0], 31, 0⟩
def F.MGMT_HANDOVER_STAMP_LO_STAMP : Fld := ⟨0x3800020, 0, 0, [0], 31, 0⟩
def F.MGMT_HANDOVER_STAMP_HI_STAMP : Fld := ⟨0x3800024, 0, 0, [0], 31, 0⟩
def F.MGMT_DIGESTk_BYTES : Fld := ⟨0x3800040, 4, 0, [0], 31, 0⟩
def F.LEDGER_STAT_SESSION_LOST : Fld := ⟨0x3800100, 0, 0, [0], 3, 3⟩
def F.LEDGER_STAT_BURN_FAIL : Fld := ⟨0x3800100, 0, 0, [0], 2, 2⟩
def F.LEDGER_STAT_DEFERRED : Fld := ⟨0x3800100, 0, 0, [0], 1, 1⟩
def F.LEDGER_STAT_BUSY : Fld := ⟨0x3800100, 0, 0, [0], 0, 0⟩
def F.LEDGER_BURNT_BITS : Fld := ⟨0x3800104, 0, 0, [0], 15, 0⟩
def F.LEDGER_QUEUE_BURNS : Fld := ⟨0x3800108, 0, 0, [0], 4, 0⟩
def F.LEDGER_BURN_FAIL_CNT_COUNT : Fld := ⟨0x380010C, 0, 0, [0], 31, 0⟩
def F.POWER_STAT_TW_SEEN : Fld := ⟨0x3C00000, 0, 0, [0], 6, 6⟩
def F.POWER_STAT_SW_SEEN : Fld := ⟨0x3C00000, 0, 0, [0], 5, 5⟩
def F.POWER_STAT_STOPPED : Fld := ⟨0x3C00000, 0, 0, [0], 4, 4⟩
def F.POWER_STAT_THERM_EMERG : Fld := ⟨0x3C00000, 0, 0, [0], 3, 3⟩
def F.POWER_STAT_THERM_WARN : Fld := ⟨0x3C00000, 0, 0, [0], 2, 2⟩
def F.POWER_STAT_SUPPLY_WARN : Fld := ⟨0x3C00000, 0, 0, [0], 1, 1⟩
def F.POWER_STAT_MARGIN : Fld := ⟨0x3C00000, 0, 0, [0], 0, 0⟩
def F.POWER_MEAS_P : Fld := ⟨0x3C00004, 0, 0, [0], 15, 0⟩
def F.POWER_MEAS_MAX_P : Fld := ⟨0x3C00008, 0, 0, [0], 15, 0⟩
def F.POWER_RAIL_SEL_RAIL : Fld := ⟨0x3C0000C, 0, 0, [0], 3, 0⟩
def F.POWER_RAIL_V_MV : Fld := ⟨0x3C00010, 0, 0, [0], 15, 0⟩
def F.POWER_RAIL_I_MA : Fld := ⟨0x3C00014, 0, 0, [0], 23, 0⟩
def F.POWER_EXCESS_CNT_COUNT : Fld := ⟨0x3C00018, 0, 0, [0], 31, 0⟩
def F.THERM_TJ_SENSOR : Fld := ⟨0x3C00020, 0, 0, [0], 21, 16⟩
def F.THERM_TJ_T : Fld := ⟨0x3C00020, 0, 0, [0], 15, 0⟩
def F.THERM_TJ_MAX_T : Fld := ⟨0x3C00024, 0, 0, [0], 15, 0⟩
def F.THERM_SENSOR_SEL_SENSOR : Fld := ⟨0x3C00028, 0, 0, [0], 5, 0⟩
def F.THERM_SENSOR_DATA_T : Fld := ⟨0x3C0002C, 0, 0, [0], 15, 0⟩
def F.THERM_WARN_CNT_COUNT : Fld := ⟨0x3C00030, 0, 0, [0], 31, 0⟩
def F.THERM_EMERG_CNT_COUNT : Fld := ⟨0x3C00034, 0, 0, [0], 31, 0⟩
def F.SUPPLY_WARN_CNT_COUNT : Fld := ⟨0x3C00038, 0, 0, [0], 31, 0⟩
def F.SUPPLY_MARGIN_CNT_COUNT : Fld := ⟨0x3C0003C, 0, 0, [0], 31, 0⟩
def F.POWER_ALERT_SEV2 : Fld := ⟨0x3C00040, 0, 0, [0], 3, 3⟩
def F.POWER_ALERT_XIN : Fld := ⟨0x3C00040, 0, 0, [0], 2, 2⟩
def F.POWER_ALERT_MARGIN : Fld := ⟨0x3C00040, 0, 0, [0], 1, 1⟩
def F.POWER_ALERT_THERM : Fld := ⟨0x3C00040, 0, 0, [0], 0, 0⟩
def F.POWER_ALERT_EN_EN : Fld := ⟨0x3C00044, 0, 0, [0xF], 3, 0⟩

/-- The rows of the GLOBAL registers. -/
def globalRegs : List RegDef :=
  [R.GLOBAL_ID, R.GLOBAL_COMPAT, R.GLOBAL_COMPAT_STAT, R.GLOBAL_OWNER_LOCK, R.GLOBAL_LIFE, R.GLOBAL_BOOT_CTRL, R.GLOBAL_BOOT_CMD, R.GLOBAL_BOOT_STAT, R.GLOBAL_BOOT_SRC, R.GLOBAL_STATUS, R.GLOBAL_RESET, R.GLOBAL_RESET_CAUSE] ++
  [R.GLOBAL_READY_TIME]

/-- The rows of the HOST registers. -/
def hostRegs : List RegDef :=
  [R.HOST_CTRL, R.HOST_STATUS, R.HOST_LINK, R.HOST_D2H_CAP, R.HOST_H2D_CAP, R.HOST_BADACC_CNT, R.HOST_LINK_CE_CNT, R.HOST_LINK_UE_CNT, R.HOST_DB_BASE_LO, R.HOST_DB_BASE_HI, R.HOST_POLL_CLASSc, R.HOST_ADM_POLICY] ++
  [R.HOST_RSV_D2H, R.HOST_RSV_H2D, R.HOST_RSV_HBM0, R.HOST_RSV_HBM1, R.HOST_RSV_XAB, R.HOST_RSV_XBA, R.HOST_RSV_POWER, R.HOST_BUCKET, R.HOST_RSV_POOL, R.HOST_RSV_STORE, R.HOST_REFUSE_BW_CNT, R.HOST_REFUSE_SPACE_CNT] ++
  [R.HOST_REFUSE_POWER_CNT, R.HOST_REFUSE_STATE_CNT, R.HOST_REFUSE_CONFLICT_CNT, R.HOST_DESC_ERR_CNT, R.HOST_DEADLINE_MISS_CNT, R.HOST_EVQ_BASE_LO, R.HOST_EVQ_BASE_HI, R.HOST_EVQ_CTRL, R.HOST_EVQ_LOST, R.HOST_SQ_SEL, R.HOST_SQ_BASE_LO, R.HOST_SQ_BASE_HI] ++
  [R.HOST_SQ_CTRL, R.HOST_SQ_HEAD, R.HOST_SQ_STAT, R.HOST_CQ_SEL, R.HOST_CQ_BASE_LO, R.HOST_CQ_BASE_HI, R.HOST_CQ_CTRL, R.HOST_CQ_COAL, R.HOST_CQ_TAIL, R.HOST_CQ_STAT]

/-- The rows of the MOVER registers. -/
def moverRegs : List RegDef :=
  [R.MOVER_CTRL, R.MOVER_FREE_CH, R.MOVER_RETRY_CNT, R.MOVER_DAMAGED_CNT, R.MOVER_PAD_CNT, R.MOVER_Mm_STAT, R.MOVER_Mm_RSV, R.MOVER_Mm_ELEM_CNT, R.MOVER_Mm_WAIT_MAX, R.MOVER_CHc]

/-- The rows of the PRISM registers. -/
def prismRegs : List RegDef :=
  [R.PRISM_CHn_CTRL, R.PRISM_CHn_TRIM, R.PRISM_CHn_COMMIT, R.PRISM_CHn_COMMIT_STAT, R.PRISM_CHn_STAT, R.PRISM_CHn_OVR_CNT, R.PRISM_CHn_NBR_CNT, R.PRISM_CHn_RANGE_CNT, R.PRISM_CHn_RANGE_STAMP_LO, R.PRISM_CHn_RANGE_STAMP_HI, R.PRISM_CHn_CAL_CTRL, R.PRISM_CHn_CAL_UPD_CNT] ++
  [R.PRISM_CHn_CAL_UPD_STAMP_LO, R.PRISM_CHn_CAL_UPD_STAMP_HI, R.PRISM_CHn_CAL_SKIP_CNT, R.PRISM_CHn_CAL_RESID, R.PRISM_CHn_TEMP, R.PRISM_CHn_FG_STAMP_LO, R.PRISM_CHn_FG_STAMP_HI, R.PRISM_CHn_SRC_LEVEL, R.PRISM_CHn_CLK_CNT]

/-- The rows of the LANTERN registers. -/
def lanternRegs : List RegDef :=
  [R.LANTERN_COMMIT, R.LANTERN_COMMIT_STAT, R.LANTERN_IMPORT, R.LANTERN_EXPORT_DROP_CNT, R.LANTERN_LINE_DROP_CNT, R.LANTERN_TRIGINp, R.LANTERN_CONDc_CTRL, R.LANTERN_CONDc_LEVEL_A, R.LANTERN_CONDc_LEVEL_B, R.LANTERN_CONDc_HYST, R.LANTERN_CONDc_TMIN, R.LANTERN_CONDc_TMAX] ++
  [R.LANTERN_UNITu_CTRL, R.LANTERN_UNITu_STAT, R.LANTERN_UNITu_STAGES, R.LANTERN_UNITu_SEQ, R.LANTERN_UNITu_SEQ_TMAX, R.LANTERN_UNITu_HOLD_T_LO, R.LANTERN_UNITu_HOLD_T_HI, R.LANTERN_UNITu_HOLD_N, R.LANTERN_UNITu_MARK_CNT, R.LANTERN_UNITu_SUPP_CNT, R.LANTERN_UNITu_COINC_CNT, R.LANTERN_UNITu_LOST_CNT]

/-- The rows of the RECORD registers. -/
def recordRegs : List RegDef :=
  [R.RECORD_SYNC_CTRL, R.RECORD_SYNC_GO, R.RECORD_SYNC_STAT, R.RECORD_SYNC_STAMP_LO, R.RECORD_SYNC_STAMP_HI, R.RECORD_SYNC_CNT, R.RECORD_HELD, R.RECORD_TABLE_REPAIR_CNT, R.RECORD_TABLE_FAIL_CNT, R.RECORD_CHn_STAT, R.RECORD_CHn_WRITER, R.RECORD_CHn_DEC] ++
  [R.RECORD_CHn_DEC_FACTOR, R.RECORD_CHn_PRE_MAX, R.RECORD_CHn_SEG_CNT, R.RECORD_CHn_DECLINED_CNT, R.RECORD_CHn_LOST_CNT, R.RECORD_CHn_TRUNC_CNT, R.RECORD_CHn_DAMAGED_CNT, R.RECORD_CHn_PEN_PAR_CNT, R.RECORD_CHn_STAGE_HWM, R.RECORD_CHn_STAGE_OVF_CNT, R.RECORD_CHn_CREDIT, R.RECORD_CHn_OLDEST_LO] ++
  [R.RECORD_CHn_OLDEST_HI, R.RECORD_CHn_WRITTEN_LO, R.RECORD_CHn_WRITTEN_HI, R.RECORD_CHn_STORED_LO, R.RECORD_CHn_STORED_HI, R.RECORD_CHn_CLOCK_CNT, R.RECORD_CHn_HELD_CNT, R.RECORD_CHn_SETTLE_LEFT]

/-- The rows of the AFTERGLOW registers. -/
def afterglowRegs : List RegDef :=
  [R.AFTERGLOW_COMMIT, R.AFTERGLOW_COMMIT_STAT, R.AFTERGLOW_CHn_CTRL, R.AFTERGLOW_CHn_STAT, R.AFTERGLOW_CHn_WINDOWS_CNT, R.AFTERGLOW_CHn_WIDE_CNT, R.AFTERGLOW_CHn_EXCL_CNT, R.AFTERGLOW_CHn_SAT_CNT, R.AFTERGLOW_CHn_POISON_CNT, R.AFTERGLOW_CHn_RECOMP_CNT, R.AFTERGLOW_CHn_SUM_RECORDS_LO, R.AFTERGLOW_CHn_SUM_RECORDS_HI] ++
  [R.AFTERGLOW_CHn_SUM_SKIP_CNT, R.AFTERGLOW_CHn_MASK_TESTED_CNT, R.AFTERGLOW_CHn_MASK_FAIL_CNT, R.AFTERGLOW_CHn_MASK_FIRST_LO, R.AFTERGLOW_CHn_MASK_FIRST_HI, R.AFTERGLOW_CHn_MASK_FIRST_NUM, R.AFTERGLOW_CHn_MASK_FIRST_BIN, R.AFTERGLOW_CHn_CLEAR_STAMP_LO, R.AFTERGLOW_CHn_CLEAR_STAMP_HI]

/-- The rows of the GLIMMER registers. -/
def glimmerRegs : List RegDef :=
  [R.GB_CHF_SEL, R.GB_CHF_DATA, R.GB_ZONE_RATE, R.GLIMMER_Ff_STAT, R.GLIMMER_Ff_JOB, R.GLIMMER_Ff_FRAME_CNT, R.GLIMMER_Ff_FADED_CNT, R.GLIMMER_Ff_RESYNC_CNT, R.GLIMMER_Ff_FLAGGED_CNT, R.GLIMMER_Ff_RECOMP_CNT, R.GLIMMER_Ff_STATE_ERR_CNT, R.GLIMMER_Ff_ANCHOR_LO] ++
  [R.GLIMMER_Ff_ANCHOR_HI, R.GLIMMER_Ff_LAT_MAX, R.GLIMMER_Ff_EMIT_SKIP_CNT, R.BEACON_Bb_CTRL, R.BEACON_Bb_COMMIT_STAT, R.BEACON_Bb_STAT, R.BEACON_Bb_COMMIT, R.BEACON_Bb_START_LO, R.BEACON_Bb_START_HI, R.BEACON_Bb_TSTART_LO, R.BEACON_Bb_TSTART_HI, R.BEACON_Bb_CYCLE_LO] ++
  [R.BEACON_Bb_CYCLE_HI, R.BEACON_Bb_EMIT_CNT, R.BEACON_Bb_TRUNC_CNT]

/-- The rows of the FTEMP registers. -/
def ftempRegs : List RegDef :=
  [R.FTEMP_In_STAT, R.FTEMP_In_JOB, R.FTEMP_In_FRAME_CNT, R.FTEMP_In_ACC_N, R.FTEMP_In_SKIP_CNT, R.FTEMP_In_OVERLAP_CNT, R.FTEMP_In_REF_STALE_CNT, R.FTEMP_In_RECOMP_CNT, R.FTEMP_In_INVALID_CNT, R.FTEMP_In_C_NOW, R.FTEMP_In_DALPHA_NOW, R.FTEMP_In_REF0_T] ++
  [R.FTEMP_In_REF1_T, R.FTEMP_In_ANCHOR_LO, R.FTEMP_In_ANCHOR_HI, R.FTEMP_In_LAT_MAX]

/-- The rows of the GLINT registers. -/
def glintRegs : List RegDef :=
  [R.GLINT_INn_CTRL, R.GLINT_INn_STAT, R.GLINT_INn_LEVEL, R.GLINT_INn_TERM, R.GLINT_INn_STAMP_CNT, R.GLINT_INn_LOSS_CNT, R.GLINT_Gg_CTRL, R.GLINT_Gg_STAT, R.GLINT_Gg_RES_HDR, R.GLINT_Gg_RES_DATA, R.GLINT_COMMIT, R.GLINT_COMMIT_STAT] ++
  [R.GLINT_GATEp, R.GLINT_STAMP_RATE, R.GLINT_GATE_SKIP_CNT]

/-- The rows of the LUMEN registers. -/
def lumenRegs : List RegDef :=
  [R.LUMEN_Tt_STAT, R.LUMEN_Tt_FAULT, R.LUMEN_Tt_PC, R.LUMEN_Tt_JOB, R.LUMEN_Tt_MAIL, R.LUMEN_Tt_CYCLE_LO, R.LUMEN_Tt_CYCLE_HI, R.LUMEN_Tt_ITEM_CNT, R.LUMEN_Tt_OUT_CNT, R.LUMEN_Tt_LOST_CNT, R.LUMEN_Tt_PAR_CNT, R.LUMEN_Tt_RECOMP_CNT] ++
  [R.LUMEN_Tt_IRQ_CNT, R.LUMEN_Tt_MAXITEM, R.LUMEN_STAT, R.LUMEN_HELD_PAGES, R.LUMEN_FAULT_CNT, R.LUMEN_PAR_CNT]

/-- The rows of the POOL registers. -/
def poolRegs : List RegDef :=
  [R.POOL_STAT, R.POOL_MARCH_CTRL, R.POOL_MARCH_STAT, R.POOL_FREE, R.POOL_LONGEST, R.POOL_PAR_CNT, R.POOL_PAR_ADDR, R.POOL_MGMT_REPAIR_CNT, R.POOL_MGMT_FAIL_CNT, R.POOL_WAIT_MAX, R.POOL_MARCH_FAIL_LO, R.POOL_MARCH_FAIL_HI] ++
  [R.POOL_MARCH_FIRST, R.POOL_MARCH_TIME, R.POOL_MARCH_RUN_CNT, R.POOL_RETIRED]

/-- The rows of the HBMC registers. -/
def hbmcRegs : List RegDef :=
  [R.HBMC_STAT, R.HBMC_TRAIN_TIME, R.HBMC_Ss_CTRL, R.HBMC_Ss_STAT, R.HBMC_Ss_WM, R.HBMC_Ss_COMMIT, R.HBMC_Ss_COMMIT_STAT, R.HBMC_Ss_TEMP, R.HBMC_Ss_PC_FAIL, R.HBMC_Ss_EYE_MIN, R.HBMC_Ss_REPAIR_CNT, R.HBMC_Ss_TRACK_CNT] ++
  [R.HBMC_Ss_CRC_CNT, R.HBMC_Ss_NIB_CNT, R.HBMC_Ss_ERR_ADDR_LO, R.HBMC_Ss_ERR_ADDR_HI, R.HBMC_Ss_NR_CNT, R.HBMC_Ss_FWD_CNT, R.HBMC_Ss_DRAIN_CNT, R.HBMC_Ss_URGENT_CNT, R.HBMC_Ss_OVERDUE_CNT, R.HBMC_Ss_SREF_CNT, R.HBMC_Ss_POISON_CNT, R.HBMC_Ss_LTp] ++
  [R.HBMC_Ss_MAXLATp]

/-- The rows of the CLOCK registers. -/
def clockRegs : List RegDef :=
  [R.CLOCK_SSYN_CTRL, R.CLOCK_SSYN_STAT, R.CLOCK_COMMIT, R.CLOCK_COMMIT_STAT, R.CLOCK_SSYN_DIV, R.CLOCK_REFRET_WINDOW, R.CLOCK_REFRET_CMD, R.CLOCK_REFRET_STEP, R.CLOCK_COAST_LIMIT, R.CLOCK_HOLD, R.CLOCK_PHASE_TOL, R.CLOCK_TIME_LO] ++
  [R.CLOCK_TIME_HI, R.CLOCK_EPOCH, R.CLOCK_CPLL_STAT, R.CLOCK_MPLL_STAT, R.CLOCK_REF_STAT, R.CLOCK_REFIN_MEAS, R.CLOCK_SSYN_LOSS_CNT, R.CLOCK_CPLL_LOSS_CNT, R.CLOCK_MPLL_LOSS_CNT, R.CLOCK_COAST_CNT, R.CLOCK_REFRET_CNT, R.CLOCK_STEP_CNT] ++
  [R.ERNOS_CTRL, R.ERNOS_STAT, R.ERNOS_INDEX, R.ERNOS_ALIGN_TOL, R.ERNOS_OFFSET, R.ERNOS_UP_DELAY, R.ERNOS_DN_DELAY, R.ERNOS_HEAD_DELAY, R.ERNOS_REACH, R.ERNOS_LINK_DOWN_CNT, R.ERNOS_LINK_ERR_CNT, R.ERNOS_ALIGN_LOST_CNT]

/-- The rows of the AMU registers. -/
def amuRegs : List RegDef :=
  [R.AMU_STAT, R.AMU_INJ_CFG, R.AMU_RESULTn_HDR, R.AMU_COMMIT, R.AMU_COMMIT_STAT, R.AMU_CJC, R.AMU_SWAP, R.AMU_PASS_CNT, R.AMU_OVR_CNT, R.AMU_OW_CNT, R.AMU_UNSETTLED_CNT, R.AMU_PREEMPT_CNT] ++
  [R.AMU_SEQ_JOB, R.AMU_RESULTn_VALUE, R.AMU_RESULTn_TIME_LO, R.AMU_RESULTn_TIME_HI, R.LOOPk_CTRL, R.LOOPk_SET, R.LOOPk_READ, R.LOOPk_STAT, R.LOOPk_FAULT_CNT, R.AMU_INJ_RES_HDR, R.AMU_INJ_RES_VALUE, R.AMU_INJ_RES_TIME_LO] ++
  [R.AMU_INJ_RES_TIME_HI]

/-- The rows of the MGMT registers. -/
def mgmtRegs : List RegDef :=
  [R.MGMT_STAT, R.MGMT_VERSION, R.MGMT_OTHER_VERSION, R.MGMT_RECORD_VERSION, R.MGMT_PROBATION_LEFT, R.MGMT_HANDOVER_CNT, R.MGMT_HANDBACK_CNT, R.MGMT_FREEZE_MAX, R.MGMT_HANDOVER_STAMP_LO, R.MGMT_HANDOVER_STAMP_HI, R.MGMT_DIGESTk, R.LEDGER_STAT] ++
  [R.LEDGER_BURNT, R.LEDGER_QUEUE, R.LEDGER_BURN_FAIL_CNT]

/-- The rows of the POWER registers. -/
def powerRegs : List RegDef :=
  [R.POWER_STAT, R.POWER_MEAS, R.POWER_MEAS_MAX, R.POWER_RAIL_SEL, R.POWER_RAIL_V, R.POWER_RAIL_I, R.POWER_EXCESS_CNT, R.THERM_TJ, R.THERM_TJ_MAX, R.THERM_SENSOR_SEL, R.THERM_SENSOR_DATA, R.THERM_WARN_CNT] ++
  [R.THERM_EMERG_CNT, R.SUPPLY_WARN_CNT, R.SUPPLY_MARGIN_CNT, R.POWER_ALERT, R.POWER_ALERT_EN]

/-- Every register row, block by block. -/
def regTable : List RegDef :=
  globalRegs ++ hostRegs ++ moverRegs ++ prismRegs ++ lanternRegs ++ recordRegs ++ afterglowRegs ++ glimmerRegs ++ ftempRegs ++ glintRegs ++ lumenRegs ++ poolRegs ++ hbmcRegs ++ clockRegs ++ amuRegs ++ mgmtRegs ++ powerRegs

end Sys2Proof.Machine
end

