-- ==== Sys2Proof/Machine/Regs.lean ====
section
/-! DEFINITION. Machine/Regs.lean: reading and writing one field of the sparse register file.
A register that is not listed holds its reset word. -/
namespace Sys2Proof.Machine

/-- The register words that differ from their reset words, by BAR0 byte address. -/
abbrev Regs := KMap Word

/-- The address of a field's register, instance `i` and inner instance `j`. -/
def Fld.addr (f : Fld) (i j : Nat) : Nat := f.base + i * f.s1 + j * f.s2

/-- The reset word of a field's register. -/
def Fld.rst (f : Fld) (j : Nat) : Word := BitVec.ofNat 32 (f.rsts.getD j 0)

/-- The number of values a field can hold. -/
def Fld.span (f : Fld) : Nat := 2 ^ (f.hi + 1 - f.lo)

/-- The field's value in a register word. -/
def Fld.ofWord (f : Fld) (w : Word) : Nat := w.toNat / 2 ^ f.lo % f.span

/-- A register word with the field replaced by `v`, cut to the field's width. -/
def Fld.inWord (f : Fld) (w : Word) (v : Nat) : Word :=
  BitVec.ofNat 32 (w.toNat - f.ofWord w * 2 ^ f.lo + v % f.span * 2 ^ f.lo)

/-- The value of field `f`, instance `i`, `j`. -/
def Regs.rd (m : Regs) (f : Fld) (i j : Nat) : Nat := f.ofWord (kget m (f.addr i j) (f.rst j))

/-- Sets field `f`, instance `i`, `j`, to `v`; the register's other bits stay. -/
def Regs.wr (m : Regs) (f : Fld) (i j v : Nat) : Regs :=
  kset m (f.addr i j) (f.inWord (kget m (f.addr i j) (f.rst j)) v) (f.rst j)

/-- The mask of a field's bits. -/
def FieldDef.mask (f : FieldDef) : Word := BitVec.ofNat 32 ((2 ^ (f.hi + 1 - f.lo) - 1) * 2 ^ f.lo)

/-- Whether the row covers address `a`, and with which inner instance `j`. -/
def RegDef.hit (r : RegDef) (a : Nat) : Option Nat :=
  if a < r.base then none else
  let d := a - r.base
  let i := if r.s1 = 0 then 0 else d / r.s1
  let e := if r.s1 = 0 then d else d % r.s1
  let j := if r.s2 = 0 then 0 else e / r.s2
  let z := if r.s2 = 0 then e else e % r.s2
  if i < r.n1 ∧ j < r.n2 ∧ z = 0 then some j else none

/-- The register row that holds address `a`, with its inner instance (R30: an address of no row is no register). -/
def findReg : List RegDef → Nat → Option (RegDef × Nat)
  | [], _ => none
  | r :: rs, a =>
    match r.hit a with
    | some j => some (r, j)
    | none => findReg rs a

/-- The reset word of the register at address `a`; 0 where there is none (R30). -/
def resetWord (a : Nat) : Word :=
  match findReg regTable a with
  | some (r, j) => BitVec.ofNat 32 (r.rsts.getD j 0)
  | none => 0

/-- What one field of the written word does to the field's bits of the stored word (R13, R15, R16): RW and RWS take the
written bits, RO and WO keep theirs, W1S sets, a one-bit W1C clears where 1 is written, and a W1C field of several bits
clears only where every bit is written 1. -/
def FieldDef.write (f : FieldDef) (old new : Word) : Word :=
  let m := f.mask
  match f.acc with
  | .rw | .rws => (old &&& ~~~m) ||| (new &&& m)
  | .ro | .wo => old
  | .w1s => old ||| (new &&& m)
  | .w1c =>
    if f.hi = f.lo then old &&& ~~~(new &&& m)
    else if new &&& m = m then old &&& ~~~m else old

/-- A register write field by field (R13); bits of no field are reserved and stay 0 (R11). -/
def RegDef.write (r : RegDef) (old new : Word) : Word := r.fields.foldl (fun w f => f.write w new) old

/-- A register as a read returns it: WO fields read as 0 (R13). -/
def RegDef.read (r : RegDef) (w : Word) : Word :=
  r.fields.foldl (fun w f => match f.acc with | .wo => w &&& ~~~f.mask | _ => w) w

/-- Whether a row has an RWS field, so that a commit copies it to the active logic (R14). -/
def RegDef.shadowed (r : RegDef) : Bool := r.fields.any (fun f => match f.acc with | .rws => true | _ => false)

end Sys2Proof.Machine
end

