-- ==== Sys2Proof/Machine/StLantern.lean ====
section
/-! DEFINITION. Machine/StLantern.lean: the state of the Lantern trigger engine beside its registers, and the sample word
that every consumer of Prism takes. Times are full device times in ticks. -/
namespace Sys2Proof.Machine

/-- A sample word as it leaves Prism (R21): its device time and span, its status (R82), its 64 codes (R80), and the range
and trims it was converted with (R109). -/
structure PWord where
  t : Nat
  span : Nat
  status : Nat
  codes : List Int
  range : Nat
  fine : Nat
  offset : Nat
deriving DecidableEq, Repr

/-- The flags of an event that its mark carries (R123). -/
structure EvFlags where
  uncertain : Bool := false
  clipped : Bool := false
  linear : Bool := false
  flagged : Bool := false
deriving DecidableEq, Repr

/-- An event of a condition (R112): its time, the start of the word that contains it, and its flags. -/
structure LEv where
  t : Nat
  cond : Nat
  word : Nat
  flags : EvFlags
deriving DecidableEq, Repr

/-- What the units' time-ordered queue holds: a condition's event, or a change to the units themselves. -/
inductive LItem where
  | ev (e : LEv)
  /-- At `t` a commit applies: the units' settings become `act`, and the units listed restart (R129). -/
  | apply (t : Nat) (act : Regs) (units : List Nat)
  /-- At `t` the clock hold begins (R125). -/
  | hold (t : Nat)
  /-- At `t` the clock hold ends and every enabled unit starts (R125). -/
  | start (t : Nat)
deriving DecidableEq, Repr

/-- A located crossing (R111, R114), and whether it lies in a word with status 10 (R126). -/
structure Crossing where
  t : Nat
  flags : EvFlags
  unsettled : Bool := false
deriving DecidableEq, Repr

/-- The state of one condition (R111, R112). -/
structure CondSt where
  /-- Armed for rising and falling crossings of LEVEL_A and of LEVEL_B (R111). -/
  armRA : Bool := false
  armFA : Bool := false
  armRB : Bool := false
  armFB : Bool := false
  /-- The open positive and negative pulses' starts (TYPE 3, 5), and the last crossing of the selected slope (TYPE 8). -/
  posStart : Option Crossing := none
  negStart : Option Crossing := none
  last : Option Crossing := none
  /-- Open runts and transitions: the latest rising crossing of LEVEL_B, the latest falling crossing of LEVEL_A, and
  whether the far level has been crossed since the pulse began (TYPE 4, 6). -/
  upB : Option Crossing := none
  upFar : Bool := false
  downA : Option Crossing := none
  downFar : Bool := false
  /-- The timeout instant that is pending (TYPE 7), or the pattern's duration instant (TYPE 9, QUAL 2). -/
  due : Option Nat := none
  /-- The pattern's truth, the edge-caused change to true, and the time of edges not yet judged (TYPE 9). -/
  truth : Bool := false
  since : Option Nat := none
  dirty : Option Nat := none
deriving DecidableEq, Repr

/-- A mark (R123). -/
structure Mark where
  stamp : Nat
  number : Nat
  /-- Byte 12. -/
  flags : Nat
  cond : Nat
  unit : Nat
  lost : Nat
deriving DecidableEq, Repr

/-- The state of one trigger unit (R117-R121). -/
structure UnitSt where
  started : Bool := false
  hold : Bool := false
  /-- The stage awaited, from 0, and the time at which the stage before it completed. -/
  stage : Nat := 0
  stageT : Nat := 0
  /-- No mark has been issued since the unit started. -/
  first : Bool := true
  lastMark : Nat := 0
  /-- Qualifying events counted since the mark (modes 2 and 3), and whether counting has begun (mode 3). -/
  count : Nat := 0
  counting : Bool := false
  /-- The word of the previous mark (R120). -/
  markWord : Option Nat := none
  queue : List Mark := []
  number : Nat := 0
  /-- Marks lost since the previous accepted mark (R121). -/
  lost : Nat := 0
deriving DecidableEq, Repr

/-- Lantern's view of one analogue channel: the word before the held one, and the word that waits for its successor
(R114 needs seven samples beyond a crossing); conditions reset at a word boundary. -/
structure LanCh where
  prev : Option PWord := none
  held : Option PWord := none
  /-- The condition settings in force for the held word (R129). -/
  heldAct : Regs := []
  /-- Conditions whose old set-up runs to the end of the words it holds for (R129): number, end and state. -/
  tails : List (Nat × Nat × CondSt) := []
  /-- Conditions to reset before the first word that begins at or after this time. -/
  resetAt : Option Nat := none
  resets : List Nat := []
deriving DecidableEq, Repr

/-- A commit that awaits its application: its instant and the shadow values taken (R14); and the later commits that wait
behind it, each with its own. -/
structure PendCommit where
  due : Nat
  snap : Regs
  more : List (Nat × Regs) := []
deriving DecidableEq, Repr

/-- What waits once a commit has been applied. -/
def PendCommit.after (p : PendCommit) : Option PendCommit :=
  match p.more with
  | [] => none
  | x :: r => some { due := x.1, snap := x.2, more := r }

/-- One more commit waits. -/
def addPend (o : Option PendCommit) (due : Nat) (snap : Regs) : Option PendCommit :=
  match o with
  | none => some { due := due, snap := snap }
  | some p => some { p with more := p.more ++ [(due, snap)] }

/-- The values of the last commit made, applied or not (R14). -/
def lastPend (o : Option PendCommit) (act : Regs) : Regs :=
  match o with
  | none => act
  | some p => ((p.more.getLast?).map (·.2)).getD p.snap

/-- Lantern. -/
structure LanternSt where
  pend : Option PendCommit := none
  /-- The active settings before the last application, and its instant (R129). -/
  oldAct : Regs := []
  applyT : Nat := 0
  /-- The settings that the units work with. -/
  unitAct : Regs := []
  chs : KMap LanCh := []
  conds : KMap CondSt := []
  units : KMap UnitSt := []
  /-- Events and changes in time order, not yet taken by the units (R118). -/
  queue : List LItem := []
  /-- Comparator levels of GIN000-GIN255 (0-255), TRIGIN0-1 (256, 257) and MK0-MK3 (260-263) (R108, R112). -/
  levels : KMap Bool := []
  /-- Digital edges and line events are ignored: from T_loss to the end of the clock hold (R125). -/
  holding : Bool := false
  /-- The last export and the last kept event of each trigger line (R127, R128). -/
  lastExport : KMap Nat := []
  lastLine : KMap Nat := []
deriving DecidableEq, Repr

end Sys2Proof.Machine
end

