-- ==== Sys2Proof/Machine/StRecord.lean ====
section
/-! DEFINITION. Machine/StRecord.lean: the state of the record store and of Afterglow ("Penumbra buffer, gapless
segmentation and decimation", "Afterglow accumulation") beside their registers. Times are full device times in ticks. -/
namespace Sys2Proof.Machine

/-- A stored sample: its code, or its S16 value (R157); its time (R155); the range, fine gain and offset in force. -/
structure Smp where
  v : Int
  t : Nat
  cfg : Nat × Nat × Nat
deriving DecidableEq, Repr

/-- A word of 64 stored samples as the decimator emits it (R132, R155). -/
structure SWord where
  status : Nat
  smps : List Smp
  /-- A parity error was found in Penumbra (R147). -/
  damaged : Bool := false
deriving DecidableEq, Repr

/-- A decimator (R154-R158). -/
structure DecSt where
  mode : Nat := 0
  factor : Nat := 1
  /-- HIRES_BITS. -/
  bits : Nat := 0
  /-- Input samples taken since the writer's start or the last SYNC. -/
  taken : Nat := 0
  /-- The latest input samples with their words' status, newest first. -/
  hist : List (Smp × Nat) := []
  /-- Output samples of the word being assembled, oldest first. -/
  part : List (Smp × Nat) := []
  /-- A SYNC's T that has not been reached (R158). -/
  syncAt : Option Nat := none
deriving DecidableEq, Repr

/-- Penumbra and the decimator of one input (R132, R134). -/
structure RecCh where
  dec : DecSt := {}
  /-- Stored words, newest first. -/
  pen : List SWord := []
  /-- Stored words emitted so far: the newest word's number is one less. -/
  penN : Nat := 0
  /-- The number of the first available word (R134). -/
  first : Nat := 0
deriving DecidableEq, Repr

/-- A window or a gate that is open (R137, R151). Positions are stored samples counted over all words emitted. -/
structure Win where
  mark : Mark
  /-- The trigger sample, once a later sample has been emitted. -/
  trig : Option Nat := none
  start : Nat := 0
  /-- One past the last sample; none for a gate that has not closed. -/
  stop : Option Nat := none
  truncStart : Bool := false
  sharedStart : Bool := false
  truncEnd : Bool := false
  /-- RANGE at the trigger sample (R145). -/
  range : Nat := 0
  /-- The stamp of the mark that closes the gate. -/
  closing : Option Nat := none
  /-- The next word whose samples Afterglow has still to count. -/
  agG : Nat := 0
deriving DecidableEq, Repr

/-- Declined marks that no entry records yet (R142). -/
structure Gap where
  mark : Mark
  last : Nat
  declined : Nat
  lost : Nat
deriving DecidableEq, Repr

/-- An entry of a segment table (R145). -/
structure SegEnt where
  mark : Mark
  gap : Bool
  /-- Its own number. -/
  seq : Nat
  /-- START, or the last declined mark's STAMP. -/
  start : Nat
  /-- FIRST_SAMPLE, or the count of declined marks. -/
  first : Nat
  /-- LENGTH, or the sum of LOST. -/
  len : Nat
  trigIdx : Nat := 0
  range : Nat := 0
  stopped : Bool := false
  truncStart : Bool := false
  truncEnd : Bool := false
  sharedStart : Bool := false
  sharedEnd : Bool := false
  retired : Bool := false
  overwritten : Bool := false
  stat01 : Bool := false
  stat10 : Bool := false
  stat11 : Bool := false
  damagedWords : Nat := 0
  words : Nat := 0
  metrics : List Nat := []
  /-- Copies with a detected error (R146). -/
  badCopies : Nat := 0
deriving DecidableEq, Repr

/-- A word in the store: its number among the words emitted (R139). -/
structure StW where
  g : Nat
  w : SWord
deriving DecidableEq, Repr

/-- A run of consecutive words in a ring (R139, R153): its first word's position in the store and number, the time of its
first sample, the samples that share one time, the spacing of such times, and whether words are missing before it. -/
structure StRun where
  o : Nat
  g : Nat
  t : Nat
  per : Nat
  dt : Nat
  brk : Bool
deriving DecidableEq, Repr

/-- A capture or a stream, running or held (R136). -/
structure Capt where
  jid : Nat
  sq : Nat
  tag : Nat
  input : Nat
  isStream : Bool := false
  /-- The stream of a stream-backed capture, by its job (R152). -/
  backed : Option Nat := none
  shape : Nat := 0
  unit : Nat := 0
  stopUnit : Nat := 0
  mode : Nat := 0
  factor : Nat := 1
  bits : Nat := 0
  pre : Nat := 0
  post : Nat := 0
  n : Nat := 1
  /-- I and L of R141, in ticks. -/
  gap1 : Nat := 0
  burstL : Nat := 0
  metrics : List Nat := []
  /-- LIMIT; RING_MIB for a stream. -/
  limit : Nat := 0
  armTime : Nat := 0
  autoResume : Bool := false
  /-- Admission plus 2 µs (R137, R166). -/
  due : Nat := 0
  /-- The time of the arming word, or of a stream's first word. -/
  armed : Option Nat := none
  tat : Nat := 0
  /-- Marks that have reached the capture and are not yet judged (R122). -/
  inbox : List Mark := []
  wins : List Win := []
  /-- The end of the latest window, for SHARED_START. -/
  maxStop : Nat := 0
  gapOpen : Option Gap := none
  /-- Entries, oldest first; `entBase` is the number of the first (R145, R150). -/
  table : List SegEnt := []
  entBase : Nat := 0
  /-- Stored words, oldest first; `dropped` words before them are overwritten (R150, R166). -/
  words : List StW := []
  dropped : Nat := 0
  /-- The runs of a ring, overwritten ones included, oldest first. -/
  runs : List StRun := []
  /-- Words up to here have been considered for writing. -/
  nextG : Nat := 0
  accepted : Nat := 0
  segs : Nat := 0
  /-- ARM_TIME has expired or the capture has been stopped: it takes no further marks. -/
  closed : Bool := false
  /-- A gate has ended at its LIMIT, and its closing mark has not come (R151). -/
  cut : Bool := false
  /-- The device time at which a STREAM_CLOSE puts the last word, and that job (R167). -/
  stopAt : Option Nat := none
  stopJid : Nat := 0
  /-- Marks are ignored through a clock hold (R153). -/
  hold : Bool := false
  breaks : Nat := 0
  anyLost : Bool := false
  anyDeclined : Bool := false
  anyStopped : Bool := false
  anyTrunc : Bool := false
  anyFlag : Bool := false
  /-- The job has ended, and its data is held (R136). -/
  ended : Bool := false
  /-- A STREAM_CLOSE with RELEASE names it. -/
  release : Bool := false
  /-- MiB of store that pass to the held data, on the input's stack. -/
  space : Nat := 0
  /-- Samples of a PACK10 word that a follower has not been given, and whether a break precedes the next (R354). -/
  carry : List Int := []
  followG : Nat := 0
  /-- The segments that the sum engine has still to read (R179). -/
  sumQ : List Nat := []
deriving DecidableEq, Repr

/-- A SEGMENT_READ in progress (R168, R169). -/
structure SegRd where
  jid : Nat
  cap : Nat
  fmt : Nat
  range : Bool
  /-- MODE 0: the next entry and one past the last. MODE 1: START_TIME and the sample count. -/
  next : Nat
  last : Nat
  dataAt : Nat
  tableAt : Nat
  mapAt : Nat
  /-- MODE 1: the stored index of the first sample. -/
  firstIdx : Nat := 0
  /-- Everything named has been queued. -/
  queued : Bool := false
  /-- Stored words that the read did not deliver, by stored word number. -/
  missed : List Nat := []
  whole : Nat := 0
  anyDamage : Bool := false
  anyStat : Bool := false
  anyMissed : Bool := false
  anyNever : Bool := false
deriving DecidableEq, Repr

/-- A sum or an envelope area (R178, R179). -/
structure Area where
  recs : Nat := 0
  cfg : Nat × Nat × Nat := (0, 0, 0)
  sums : List Int := []
  mins : List Int := []
  maxs : List Int := []
  poison : Bool := false
deriving DecidableEq, Repr

/-- An AFTERGLOW_CLEAR that awaits its clear point (R183). -/
structure AgClear where
  jid : Nat
  what : Nat
  /-- The earliest clear point, once a mask is on the die. -/
  due : Option Nat
deriving DecidableEq, Repr

/-- An AFTERGLOW_READ in progress (R185, R186). -/
structure AgRead where
  jid : Nat
  what : Nat
  clear : Bool
  fmt : Nat
  first : Nat
  count : Nat
  rowFirst : Nat
  rowCount : Nat
  addr : Nat
  hdr : Nat
  ts : Nat
  /-- T_s has been reached. -/
  started : Bool := false
  next : Nat := 0
  tFirst : Nat := 0
  tLast : Nat := 0
  windows : Nat := 0
  saturated : Nat := 0
  poisoned : Nat := 0
  exclAt : Nat := 0
  /-- The counters of the column taken last, and whether it was poisoned, until its bytes have been delivered (R188). -/
  held : List (Nat × Nat) := []
  heldBad : Bool := false
deriving DecidableEq, Repr

/-- Afterglow on one input. -/
structure AgCh where
  /-- Counters by column × 1,024 + row (R173), and the columns that are poisoned (R181). -/
  hist : KMap Nat := []
  poison : List Nat := []
  /-- The mask's bytes (R180). -/
  mask : Memory := []
  firstFail : Bool := false
  sumCur : Area := {}
  sumOld : Area := {}
  envCur : Area := {}
  envOld : Area := {}
  /-- The last clear points of the histogram, the sums, the envelopes and the mask counts (R183). -/
  histT : Nat := 0
  sumT : Nat := 0
  envT : Nat := 0
  maskT : Nat := 0
  clear : Option AgClear := none
deriving DecidableEq, Repr

/-- A SYNC that has been requested (R158): its inputs, its time once known, and the line it is armed for. -/
structure SyncReq where
  mask : Nat
  at' : Option Nat
  line : Nat
deriving DecidableEq, Repr

/-- The record store and Afterglow. -/
structure RecordSt where
  chs : KMap RecCh := []
  capts : List Capt := []
  reads : List SegRd := []
  sync : Option SyncReq := none
  ag : KMap AgCh := []
  agReads : List AgRead := []
  agPend : Option PendCommit := none
deriving DecidableEq, Repr

end Sys2Proof.Machine
end

