-- ==== Sys2Proof/Machine/Metrics.lean ====
section
/-! DEFINITION. Machine/Metrics.lean: samples in volts (R160) and the record metrics (R161, R162), formed exactly and rounded
once to binary32. -/
namespace Sys2Proof.Machine

/-- Whether a stored value is a clip code (R80, R157). -/
def isClipV (s16 : Bool) (v : Int) : Bool := if s16 then v == -32768 || v == 32767 else v == -512 || v == 511

/-- The denominator, in 1/64 input LSB, of a conversion to volts: 64 × 1,024 × (1 + g) scaled to whole numbers, times 10^6
for the range in µV. -/
def voltDen (cfg : Nat × Nat × Nat) : Nat := (65536 * (204800 + 6 * sgn 12 cfg.2.1)).toNat * 1000000

/-- The numerator of a stored value in volts (R80, R81, R160): (q - OFFSET / 16) LSB. -/
def voltNum (s16 : Bool) (cfg : Nat × Nat × Nat) (v : Int) : Int :=
  ((if s16 then v else 64 * v) - 4 * sgn 14 cfg.2.2) * 204800 * rangeUv cfg.1

/-- Binary32 volts of a sample; a clip gives an infinity (R160). -/
def volts32 (s16 : Bool) (x : Smp) : Nat :=
  if isClipV s16 x.v then (if x.v < 0 then 0xFF800000 else 0x7F800000)
  else toBin32 (voltNum s16 x.cfg x.v) (voltDen x.cfg)

/-- A segment's samples in volts over one common denominator, with their times. -/
structure Wave where
  den : Nat
  vals : List (Int × Nat)
  /-- The spacing that one stored sample stands for, in ticks as a fraction. -/
  spacing : Q

/-- The wave of a segment's samples. -/
def waveOf (s16 : Bool) (xs : List Smp) (spacing : Q) : Wave :=
  let dens := (xs.map (fun x => voltDen x.cfg)).eraseDups
  let d := dens.foldl (· * ·) 1
  { den := d, vals := xs.map (fun x => (voltNum s16 x.cfg x.v * (d / voltDen x.cfg : Nat), x.t)), spacing := spacing }

/-- The most frequent value of those that a test keeps; of two that are as frequent `pref` says whether the second wins. -/
def modeOf (keep : Int → Bool) (pref : Int → Int → Bool) (vs : List Int) : Option Int :=
  (((vs.filter keep).eraseDups).foldl (fun (b : Option (Int × Nat)) v =>
    let n := countP (fun x => x == v) vs
    match b with
    | none => some (v, n)
    | some (w, m) => if m < n ∨ (m = n ∧ pref w v = true) then some (v, n) else some (w, m)) none).map (·.1)

/-- Crossings of a level (R162): `lvl100` and `hyst100` are the level and 0.05 A in hundredths of the wave's unit. Each
crossing is a time in ticks after the first sample, as a fraction; `armed` says that a sample beyond the band was seen. -/
def crossings (rise : Bool) (lvl100 hyst100 : Int) (t0 : Nat) : Bool → Option (Int × Nat) → List (Int × Nat) → List (Int × Nat)
  | _, _, [] => []
  | armed, prev, (v, t) :: r =>
    let s : Int := if rise then 1 else -1
    let at' := decide (0 ≤ s * (100 * v - lvl100))
    let beyond := decide (s * (100 * v - lvl100) < -hyst100)
    let rest := crossings rise lvl100 hyst100 t0 ((armed && !at') || beyond) (some (v, t)) r
    match prev with
    | some (v0, u) =>
      if armed && at' then
        let d := 100 * (v - v0)
        let n : Int := ((u : Int) - (t0 : Int)) * d + ((t : Int) - (u : Int)) * (lvl100 - 100 * v0)
        (if 0 < d then (n, d.toNat) else (-n, (-d).toNat)) :: rest
      else rest
    | none => rest

/-- A fraction of ticks as seconds. -/
def ticks32 (x : Int × Nat) : Nat := toBin32 x.1 (x.2 * tickS)

/-- The difference of two fractions. -/
def fsub (a b : Int × Nat) : Int × Nat := (a.1 * (b.2 : Int) - b.1 * (a.2 : Int), a.2 * b.2)

/-- Whether a fraction is below another. -/
def flt (a b : Int × Nat) : Bool := decide (a.1 * (b.2 : Int) < b.1 * (a.2 : Int))

/-- The square root of `n / d` as a floating-point pattern, rounded to nearest; guard digits and a sticky bit decide. -/
def sqrtBin (p w n d : Nat) : Nat :=
  if n = 0 then 0 else
  let sh := 2 * ((d.log2 + 4 * p) - min n.log2 (d.log2 + 4 * p) + 1)
  let q := n * 2 ^ sh / d
  let r := Nat.sqrt q
  let sticky := if r * r * d = n * 2 ^ sh then 0 else 1
  roundBin p w (((2 * r + sticky : Nat) : Nat) : Int) (2 ^ (sh / 2 + 1))

/-- The square root of `n / d` as binary32. -/
def sqrt32 (n d : Nat) : Nat := sqrtBin 24 8 n d

/-- The square root of `n / d` as binary64. -/
def sqrt64 (n d : Nat) : Nat := sqrtBin 53 11 n d

/-- One metric of a segment (R161, R162); a metric that cannot be formed is NaN. -/
def metric (peak : Bool) (w : Wave) (code : Nat) : Nat :=
  let vs := w.vals.map (·.1)
  match vs with
  | [] => nan32
  | v0 :: _ =>
    let lo := vs.foldl (fun a v => if v < a then v else a) v0
    let hi := vs.foldl (fun a v => if a < v then v else a) v0
    let volt (x : Int) : Nat := toBin32 x w.den
    let sum := vs.foldl (· + ·) 0
    let n := vs.length
    let top := modeOf (fun v => decide (lo + hi < 2 * v)) (fun a b => decide (a < b)) vs
    let base := modeOf (fun v => decide (2 * v < lo + hi)) (fun a b => decide (b < a)) vs
    match code with
    | 1 => volt lo
    | 2 => volt hi
    | 3 => volt (hi - lo)
    | 4 => toBin32 sum (w.den * n)
    | 5 => sqrt32 (vs.foldl (fun a v => a + v * v) 0).toNat (n * w.den * w.den)
    | 6 => match top with | some t => volt t | none => nan32
    | 7 => match base with | some b => volt b | none => nan32
    | 17 => toBin32 (sum * (w.spacing.num : Int)) (w.den * w.spacing.den * tickS * (if peak then 2 else 1))
    | _ =>
      match top, base with
      | some tp, some bs =>
        let a := tp - bs
        let t0 := (w.vals.head?.map (·.2)).getD 0
        let cr (rise : Bool) (p : Int) : List (Int × Nat) :=
          crossings rise (100 * bs + p * a) (5 * a) t0 false none w.vals
        let edge (rise : Bool) (far near : Int) : Nat :=
          match (cr rise far).head? with
          | none => nan32
          | some x => match ((cr rise near).filter (fun y => flt y x)).getLast? with
            | some y => ticks32 (fsub x y)
            | none => nan32
        let period : Option (Int × Nat) :=
          let r := cr true 50
          match r.head?, r.getLast? with
          | some x, some y => if r.length < 2 then none else
            let d := fsub y x
            some (d.1, d.2 * (r.length - 1))
          | _, _ => none
        let width (rise : Bool) : Option (Int × Nat) :=
          match (cr rise 50).head? with
          | none => none
          | some x => ((cr (!rise) 50).find? (fun y => flt x y)).map (fun y => fsub y x)
        match code with
        | 8 => volt a
        | 9 => edge true 90 10
        | 10 => edge false 10 90
        | 11 => match period with | some p => ticks32 p | none => nan32
        | 12 => match period with
          | some p => if 0 < p.1 then toBin32 ((p.2 * tickS : Nat) : Int) p.1.toNat else nan32
          | none => nan32
        | 13 => match width true with | some p => ticks32 p | none => nan32
        | 14 => match width false with | some p => ticks32 p | none => nan32
        | 15 => match width true, period with
          | some p, some q => if 0 < q.1 then toBin32 (100 * p.1 * (q.2 : Int)) (p.2 * q.1.toNat) else nan32
          | _, _ => nan32
        | 16 => toBin32 (((cr true 50).length + (cr false 50).length : Nat) : Int) 1
        | 18 => if 0 < a then toBin32 (100 * (hi - tp)) a.toNat else nan32
        | _ => nan32
      | _, _ => nan32

/-- The metric slots of an entry (R161): code 0 leaves 0. -/
def metricSlots (s16 peak : Bool) (codes : List Nat) (xs : List Smp) (spacing : Q) : List Nat :=
  if codes.all (· = 0) then [] else
  let w := waveOf s16 xs spacing
  codes.map (fun c => if c = 0 then 0 else metric peak w c)

end Sys2Proof.Machine
end

