-- ==== Sys2Proof/Machine/StAmu.lean ====
section
/-! DEFINITION. Machine/StAmu.lean: the state of the auxiliary measurement unit and the process loops beside their
registers ("Auxiliary measurement unit and process loops"). Times are in `State.phys`. -/
namespace Sys2Proof.Machine

/-- An entry of a sequence, or the entry of an injected conversion (R419). -/
structure AmuEntry where
  input : Nat := 0
  intSel : Nat := 0
  gain : Nat := 0
  mode : Nat := 0
  order : Nat := 0
  fir : Bool := false
  rej : Bool := false
  curve : Nat := 0
  osr : Nat := 0
  refIn : Nat := 0
  exc : Nat := 0
  isrc : Nat := 0
  isrcMode : Nat := 0
  ow : Nat := 0
  dwell : Nat := 1
  /-- R_REF as a binary32 pattern. -/
  rRef : Nat := 0
deriving DecidableEq, Repr

/-- A filter output as the ratio of the input to its reference. -/
structure Ratio where
  num : Int
  den : Nat
deriving DecidableEq, Repr

/-- An AMU_SEQUENCE that runs (R411, R418). -/
structure AmuSeq where
  jid : Nat
  entries : List AmuEntry
  passes : Nat
  interval : Nat
  resAddr : Nat
  slots : Nat
  /-- The first pass's start, the number of the current or next pass, and when the pass before it ended. -/
  start : Nat
  pass : Nat := 0
  passEnd : Nat := 0
  /-- The entry visited; none between passes. -/
  visit : Option Nat := none
  /-- The last filter clear, and the outputs since. -/
  clearAt : Nat := 0
  outs : Nat := 0
  /-- The previous filter output (R403). -/
  prev : Option Ratio := none
  /-- With ISRC_MODE 3: swapped orientation, and the settled normal output. With ISRC_MODE 2: outputs still to be posted
  unsettled after a swap. -/
  swapped : Bool := false
  half : Option Ratio := none
  unsettled : Nat := 0
  /-- Settled results posted in the visit. -/
  posted : Nat := 0
  /-- The visit waits for an injected conversion, or for XIN, to begin again. -/
  broken : Bool := false
  /-- The next result carries BREAK (R422). -/
  brk : Bool := false
  /-- Entries that have raised OPEN_WIRE (R407). -/
  owSeen : List Nat := []
  rseq : Nat := 0
  settled : Nat := 0
  anyOvr : Bool := false
  anyOw : Bool := false
  anyRef : Bool := false
  anyRange : Bool := false
  anyUnsettled : Bool := false
  anyBreak : Bool := false
deriving DecidableEq, Repr

/-- An injected conversion (R415): the job it is for, whether it is the calibration source's, its settings, and when it
started. -/
structure AmuInj where
  jid : Nat
  cal : Bool
  entry : AmuEntry
  started : Option Nat := none
deriving DecidableEq, Repr

/-- A result block's live record (R413). -/
structure AmuLive where
  value : Nat := 0
  time : Nat := 0
  /-- The linearisation curve that formed the value. -/
  curve : Nat := 0
deriving DecidableEq, Repr

/-- One process loop (R423, R424). -/
structure LoopDrv where
  /-- When LOOPn_SET was last written. -/
  setAt : Nat := 0
  /-- Consecutive readings that differ from the commanded current by more than 200 µA. -/
  miss : Nat := 0
  /-- A supply warning or thermal emergency has occurred since power-up. -/
  struck : Bool := false
deriving DecidableEq, Repr

/-- The AMU. -/
structure AmuSt where
  seq : Option AmuSeq := none
  slot : Option AmuInj := none
  /-- The waiting host conversion, waiting calibration-source conversions, and whether one of those has gone ahead of the
  host conversion that waits. -/
  waitHost : Option AmuInj := none
  waitCal : List AmuInj := []
  jumped : Bool := false
  live : KMap AmuLive := []
  pend : Option PendCommit := none
  loops : KMap LoopDrv := []
  /-- Excitation, current sources and open-wire currents are off (R422). -/
  outputsOff : Bool := false
deriving DecidableEq, Repr

end Sys2Proof.Machine
end

