-- ==== Sys2Proof/Machine/StClock.lean ====
section
/-! DEFINITION. Machine/StClock.lean: the state of the synthesisers, the references and the Ernos array beside their
registers ("Clocks, device time and the Ernos array"). -/
namespace Sys2Proof.Machine

/-- The lock detector of one loop (R383): consecutive equal windows, and whether the last window differed by 1. -/
structure LoopSt where
  eq : Nat := 0
  one : Bool := false
deriving DecidableEq, Repr

/-- An ARRAY_ALIGN in progress (R396): its job, the instant t, the devices of its bound, and, once the step's instant has
come, the offset of this device and whether it stepped. -/
structure AlignRun where
  jid : Nat
  t : Nat
  devs : Nat
  passed : Bool := false
  own : Int := 0
  stepped : Bool := false
deriving DecidableEq, Repr

/-- Clocks. References are 0 XIN, 1 REFIN, 2 Ernos; loops are 0 SSYN, 1 CPLL, 2 MPLL. -/
structure ClockSt where
  /-- Consecutive good presence windows of each reference (R382). -/
  good : KMap Nat := []
  loops : KMap LoopSt := []
  pend : Option PendCommit := none
  /-- When the coast in progress began (R386), in `State.phys`. -/
  coastAt : Option Nat := none
  /-- When the selected reference became absent, and when the lock loss began, in `State.phys` (R383). -/
  absentAt : Nat := 0
  lossAt : Nat := 0
  /-- T_loss of the latest lock loss, and T_relock once it has ended (R383), as device times. -/
  lossT : Option Nat := none
  relockT : Option Nat := none
  /-- The end of the clock hold in progress (R125), once T_relock is known. -/
  holdEnd : Option Nat := none
  /-- The loop's reference is back and its step has not been measured (R385). -/
  unmeasured : Bool := false
  /-- When CPLL relocked, in `State.phys`. -/
  cpllAt : Nat := 0
  /-- An ARRAY_ALIGN has aligned the device since its last ROLE commit (R393). -/
  alignedOnce : Bool := false
  /-- When ERNOS_OFFSET was last seen outside the tolerance, in `State.phys`. -/
  offsetBad : Option Nat := none
  /-- The member's upstream port is known (R390). -/
  upstream : Bool := false
  align : Option AlignRun := none
  /-- A step that the head has ordered: its instant and offset (R396). -/
  order : Option (Nat × Int) := none
deriving DecidableEq, Repr

end Sys2Proof.Machine
end

