-- ==== Sys2Proof/Machine/FloatOps.lean ====
section
/-! DEFINITION. Machine/FloatOps.lean: binary32 arithmetic on bit patterns, each operation rounded to nearest even, and the
complex arithmetic that Glimmer writes with it (R207-R209). -/
namespace Sys2Proof.Machine

/-- The sign of a binary32 pattern: set for negative. -/
def neg32 (v : Nat) : Bool := bit v 31

/-- A binary32 pattern with its sign changed. -/
def fneg (v : Nat) : Nat := if neg32 v then v - 2 ^ 31 else v + 2 ^ 31

/-- Infinity with a sign. -/
def inf32 (n : Bool) : Nat := if n then 0xFF800000 else 0x7F800000

/-- Zero with a sign. -/
def zero32 (n : Bool) : Nat := if n then 2 ^ 31 else 0

/-- The binary32 sum. -/
def fadd (a b : Nat) : Nat :=
  if isNan32 a || isNan32 b then nan32 else
  match val32 a, val32 b with
  | some x, some y =>
    let n := x.1 * (y.2 : Int) + y.1 * (x.2 : Int)
    if n = 0 then zero32 (neg32 a && neg32 b) else toBin32 n (x.2 * y.2)
  | none, some _ => a
  | some _, none => b
  | none, none => if neg32 a = neg32 b then a else nan32

/-- The binary32 difference. -/
def fsubb (a b : Nat) : Nat := if isNan32 b then nan32 else fadd a (fneg b)

/-- The binary32 product. -/
def fmul (a b : Nat) : Nat :=
  if isNan32 a || isNan32 b then nan32 else
  let sg := neg32 a != neg32 b
  match val32 a, val32 b with
  | some x, some y => if x.1 = 0 || y.1 = 0 then zero32 sg else toBin32 (x.1 * y.1) (x.2 * y.2)
  | none, some y => if y.1 = 0 then nan32 else inf32 sg
  | some x, none => if x.1 = 0 then nan32 else inf32 sg
  | none, none => inf32 sg

/-- The binary32 quotient. -/
def fdiv (a b : Nat) : Nat :=
  if isNan32 a || isNan32 b then nan32 else
  let sg := neg32 a != neg32 b
  match val32 a, val32 b with
  | some x, some y =>
    if y.1 = 0 then (if x.1 = 0 then nan32 else inf32 sg)
    else if x.1 = 0 then zero32 sg
    else
      let m := x.1.natAbs * y.2
      let d := x.2 * y.1.natAbs
      toBin32 (if sg then -(m : Int) else (m : Int)) d
  | none, some _ => inf32 sg
  | some _, none => zero32 sg
  | none, none => nan32

/-- The binary32 square root of a pattern that is not negative. -/
def fsqrt (a : Nat) : Nat :=
  if isNan32 a then nan32 else
  match val32 a with
  | some x => if x.1 = 0 then a else if x.1 < 0 then nan32 else sqrt32 x.1.toNat x.2
  | none => if neg32 a then nan32 else a

/-- Whether `a < b`; false where either is a NaN. -/
def flt32 (a b : Nat) : Bool :=
  if isNan32 a || isNan32 b then false else
  match val32 a, val32 b with
  | some x, some y => decide (x.1 * (y.2 : Int) < y.1 * (x.2 : Int))
  | none, some _ => neg32 a
  | some _, none => !neg32 b
  | none, none => neg32 a && !neg32 b

/-- The largest whole number at or below a finite value, as binary32. -/
def ffloor (a : Nat) : Nat :=
  match val32 a with
  | some x => toBin32 (x.1 / (x.2 : Int)) 1
  | none => a

/-- A whole number, and a ratio of whole numbers, as binary32. -/
def fint (n : Int) : Nat := toBin32 n 1

/-- Pi and two pi as binary32. -/
def pi32 : Nat := 0x40490FDB
def twoPi32 : Nat := 0x40C90FDB

/-- A complex number of binary32 parts. -/
structure C32 where
  re : Nat := 0
  im : Nat := 0
deriving DecidableEq, Repr

/-- The complex operations, part by part in the order of the definition of a complex product (DEDUCED, assumption 14). -/
def C32.add (a b : C32) : C32 := ⟨fadd a.re b.re, fadd a.im b.im⟩
def C32.sub (a b : C32) : C32 := ⟨fsubb a.re b.re, fsubb a.im b.im⟩
def C32.mul (a b : C32) : C32 :=
  ⟨fsubb (fmul a.re b.re) (fmul a.im b.im), fadd (fmul a.re b.im) (fmul a.im b.re)⟩
def C32.conj (a : C32) : C32 := ⟨a.re, fneg a.im⟩
def C32.scale (a : C32) (k : Nat) : C32 := ⟨fmul a.re k, fmul a.im k⟩
def C32.div (a : C32) (k : Nat) : C32 := ⟨fdiv a.re k, fdiv a.im k⟩
def C32.abs (a : C32) : Nat := fsqrt (fadd (fmul a.re a.re) (fmul a.im a.im))
def C32.isZero (a : C32) : Bool := a.re % 2 ^ 31 = 0 && a.im % 2 ^ 31 = 0
def C32.one : C32 := ⟨0x3F800000, 0⟩

/-- The phase of a vector in radians, binary32: the spec does not fix the arctangent to the bit (free value). -/
def C32.phase (a : C32) : Nat := Config.arith 20 [a.im, a.re] % 2 ^ 32

/-- wrap(x) of R209. -/
def wrap32 (x : Nat) : Nat := fsubb x (fmul twoPi32 (ffloor (fdiv (fadd x pi32) twoPi32)))

end Sys2Proof.Machine
end

