-- ==== Sys2Proof/Machine/StFibre.lean ====
section
/-! DEFINITION. Machine/StFibre.lean: the state of the Beacon outputs, the Glimmer engine and the fibre temperature engine
beside their registers ("Fibre vibration sensing", "Fibre temperature sensing"). Times are full device times in ticks. -/
namespace Sys2Proof.Machine

/-- A slot of a probe program (R194). -/
structure BSlot where
  offset : Nat
  shape : Nat
  mkr : Nat
  level : BitVec 16
  wave : Nat
  len : Nat
  lead : Nat
  lag : Nat
deriving DecidableEq, Repr

/-- A probe program: the cycle length in SCLK cycles, the sample between probes and the slots in use (R194). -/
structure BProg where
  cyc : Nat
  idle : BitVec 16
  slots : List BSlot
deriving DecidableEq, Repr

/-- A play of an output (R196, R198). -/
structure Play where
  /-- The fibre run that owns the output; 0 for a standalone play. -/
  owner : Nat
  bank : Nat
  t0 : Nat
  started : Bool := false
  /-- The next emission: its cycle and slot. -/
  c : Nat := 0
  slot : Nat := 0
  /-- The marker floor (R197). -/
  floor : Nat
  /-- Cycles still to begin; none without end. -/
  left : Option Nat := none
  /-- A bank change: the bank, the boundary at which it applies and its marker floor (R198). -/
  next : Option (Nat × Nat × Nat) := none
  /-- The end of the latest probe. -/
  probeEnd : Nat := 0
  /-- The play stops at this instant. -/
  stopAt : Option Nat := none
  /-- Stopped by a clock fault (R222). -/
  held : Bool := false
deriving DecidableEq, Repr

/-- An open marker window: the marker, the cycle and slot, and the instant of its fall (R197). -/
structure MkWin where
  mkr : Nat
  c : Nat
  slot : Nat
  fall : Nat
deriving DecidableEq, Repr

/-- A Beacon output (R192-R198). -/
structure BeaconSt where
  bank0 : Option BProg := none
  bank1 : Option BProg := none
  /-- The waveform memory: an unlisted sample has not been loaded, and what it holds is not known (R193). -/
  wave : KMap (Option (BitVec 16)) := []
  play : Option Play := none
  /-- A play that a later commit scheduled while this one finishes its last probe (R198). -/
  after : Option Play := none
  wins : List MkWin := []
  /-- The direction line: the side's second marker while a double-ended run drives it (R239). -/
  dir : Option Bool := none
deriving DecidableEq, Repr

/-- A BEACON_LOAD in progress: its output, whether its program block has been read, and the program (R201). -/
structure BLoad where
  jid : Nat
  out : Nat
  bank : Nat
  checked : Bool
  prog : Option BProg
  first : Nat
  count : Nat
  /-- Samples written so far. -/
  done : Nat := 0
deriving DecidableEq, Repr

/-- A span of an input's words that a fibre engine has seen: start, span, status, and whether a code was a clip code. -/
structure FWord where
  t : Nat
  span : Nat
  status : Nat
  clip : Bool
  /-- The codes, for the temperature engine. -/
  codes : List Int
deriving DecidableEq, Repr

/-- A Glimmer tone (R225). -/
structure GTone where
  freq : Nat
  slot : Nat
  shift : Nat
  coefs : List (Int × Int)
deriving DecidableEq, Repr

/-- The settings of a FIBRE_VIB_RUN (R224, R225). -/
structure GCfg where
  bank : Nat := 0
  output : Nat := 0
  format : Nat := 0
  qual : Bool := false
  posFirst : Nat := 0
  posCount : Nat := 0
  gauge : Nat := 0
  zone : Nat := 1
  tones : List GTone := []
  delay : Nat := 0
  track : Nat := 4
  hp : Nat := 0
  decMean : Nat := 1
  decFir : Nat := 1
  fir : List Nat := []
  fadeMax : Nat := 1
  fadeLevel : Nat := 0
  strain : Nat := 0
  frameSamples : Nat := 1
  frameSlots : Nat := 2
  frameAddr : Nat := 0
  /-- CYCLE and N_SLOTS of the bank. -/
  cyc : Nat := 64
  nSlots : Nat := 1
deriving DecidableEq, Repr

/-- One tone's trace of an emission (R204, R206). -/
structure GTrace where
  tone : Nat
  even : List (Int × Int)
  odd : List (Int × Int)
  /-- It could not be processed in time (R222). -/
  late : Bool
  /-- Its retained words were damaged (R223). -/
  damaged : Bool
  /-- Positions whose state area failed its CRC-16 (R223). -/
  stateErr : List Nat
deriving DecidableEq, Repr

/-- An emission whose traces are awaited. -/
structure GEmis where
  c : Nat
  slot : Nat
  te : Nat
  got : List GTrace := []
deriving DecidableEq, Repr

/-- The state of one position and slot (R207, R208). -/
structure GSlotSt where
  g : List C32 := []
  v : Option C32 := none
  a : C32 := {}
deriving DecidableEq, Repr

/-- The state of one position (R207-R209). -/
structure GPos where
  slots : List GSlotSt := []
  wPrev : Option C32 := none
  phi : Nat := 0
  /-- The phase of the last good sample; none before the first. -/
  good : Option Nat := none
  run : Nat := 0
  lost : Bool := false
deriving DecidableEq, Repr

/-- The state of one zone's filters (R213), and what its quality block counts (R220): since the last output, and over the
outputs of the frame in progress. -/
structure GZone where
  x : Option Nat := none
  y : Nat := 0
  sum : Nat := 0
  /-- The latest means, newest first. -/
  us : List Nat := []
  q : Option Nat := none
  flags : Nat := 0
  valid : Nat := 0
  total : Nat := 0
  fFlags : Nat := 0
  fValid : Nat := 0
  fTotal : Nat := 0
deriving DecidableEq, Repr

/-- A frame that is complete: its header flags, its data and quality block, its header, and its anchor. -/
structure GFrame where
  seq : Nat
  flags : Nat
  header : Bytes
  body : Bytes
  anchor : Nat
deriving DecidableEq, Repr

/-- A FIBRE_VIB_RUN in progress on a fibre. -/
structure GRun where
  jid : Nat
  sq : Nat
  tag : Nat
  cfg : GCfg
  /-- Words seen of the even and the odd input. -/
  histE : List FWord := []
  histO : List FWord := []
  pending : List GEmis := []
  pos : List GPos := []
  zones : List GZone := []
  /-- Raw samples since the run started or resumed, and the cycle at which it did. -/
  n : Nat := 0
  c0 : Option Nat := none
  /-- The frame in progress: outputs, the first one's time, the first raw sample's cycle, the latest emission. -/
  outs : List (List Nat) := []
  tFirst : Nat := 0
  cycle0 : Nat := 0
  /-- Cycles of the raw samples whose means the FIR still holds, newest first. -/
  cycles : List Nat := []
  lastTe : Nat := 0
  brk : Bool := false
  /-- Frames formed, and those not yet written, oldest first. -/
  seq : Nat := 0
  frames : List GFrame := []
  /-- The anchor of the last frame formed (R221). -/
  anchor : Nat := 0
  hold : Bool := false
  /-- No further raw sample comes. -/
  done : Bool := false
deriving DecidableEq, Repr

/-- The settings of a FIBRE_TEMP_RUN (R245, R246). -/
structure FtCfg where
  dbl : Bool := false
  lantern : Bool := false
  unit : Nat := 0
  bank : Nat := 0
  raw : Bool := false
  qual : Bool := false
  start : Nat := 0
  nAcc : Nat := 1
  nRun : Nat := 0
  first : Nat := 0
  len : Nat := 64
  zoneFirst : Nat := 0
  nZones : Nat := 1
  zone : Nat := 1
  refMode : Nat := 0
  delay : Nat := 0
  bgFirst : Nat := 0
  bgCount : Nat := 16
  gamma : Nat := 0
  c : Nat := 0
  dalpha : Nat := 0
  loopEnd : Nat := 0
  frameAddr : Nat := 0
  frameSlots : Nat := 2
  settle : Nat := 0
  /-- The reference blocks (R246). -/
  refs : List Bytes := []
deriving DecidableEq, Repr

/-- The means of an accumulation, by position set: zones, then references: each S and A as exact fractions. -/
structure FtMeans where
  n : Nat
  sets : List ((Int × Nat) × (Int × Nat))
  tFirst : Nat
  tLast : Nat
  anchor : Nat
  /-- A sum area or kept means failed their CRC-16 (R244). -/
  bad : Bool
deriving DecidableEq, Repr

/-- A FIBRE_TEMP_RUN in progress on an instance. -/
structure FtRun where
  jid : Nat
  sq : Nat
  tag : Nat
  cfg : FtCfg
  histE : List FWord := []
  histO : List FWord := []
  /-- Emissions whose trace is awaited, oldest first, each with whether a direction settle covers it. -/
  pending : List (Nat × Bool) := []
  /-- The last accepted emission (R231). -/
  last : Option Nat := none
  /-- The accumulation in progress: its number, the number of the accumulation that emissions now join, emissions assigned to that one,
   emissions taken, clean traces, its first and
  last emission and its sum entries. -/
  k : Nat := 0
  kE : Nat := 0
  assigned : Nat := 0
  taken : Nat := 0
  clean : Nat := 0
  tFirst : Nat := 0
  tLast : Nat := 0
  areaS : List Int := []
  areaA : List Int := []
  /-- Emissions of the direction settle still to come, and the direction. -/
  settle : Nat := 0
  dir : Bool := false
  /-- The direction line is to change: at this instant. -/
  dirDue : Option Nat := none
  /-- The latest means of each direction (R239). -/
  fwd : Option FtMeans := none
  rev : Option FtMeans := none
  /-- C and Δα as the previous frame used them, exactly. -/
  cNow : Option ((Int × Nat) × (Int × Nat)) := none
  brk : Bool := false
  seq : Nat := 0
  hold : Bool := false
  done : Bool := false
deriving DecidableEq, Repr

/-- The fibre engines. -/
structure FibreSt where
  beacons : KMap BeaconSt := []
  loads : List BLoad := []
  glims : KMap (Option GRun) := []
  fts : KMap (Option FtRun) := []
  /-- Anchors of the frames whose elements are under way, oldest first: fibre 0, 1, instance 0, 1. -/
  anchors : KMap (List Nat) := []
deriving DecidableEq, Repr

end Sys2Proof.Machine
end

