-- ==== Sys2Proof/Machine/StGlint.lean ====
section
/-! DEFINITION. Machine/StGlint.lean: the state of the Glint timing inputs beside their registers ("Glint timing inputs").
Times are full device times in ticks. -/
namespace Sys2Proof.Machine

/-- An input's stamping path (R253, R255, R256). -/
structure GlIn where
  /-- When interpolators A and B are free again. -/
  freeA : Nat := 0
  freeB : Nat := 0
  /-- The FIFO's fill at its slowest drain, as of `lvlAt`, in stamps scaled by the ticks of a second. -/
  lvl : Nat := 0
  lvlAt : Nat := 0
  /-- After a clock hold: the input does not stamp until it has calibrated; then it stamps from `from'`. -/
  wait : Bool := false
  from' : Nat := 0
  /-- The last calibration, and from when its scale applies. -/
  calAt : Nat := 0
  scaleAt : Nat := 0
deriving DecidableEq, Repr

/-- A stamp that a measurement has taken (R252). -/
structure GStamp where
  t : Nat
  inp : Nat
  rise : Bool
deriving DecidableEq, Repr

/-- What a stop entry has gathered (R261, R262). -/
structure StopAcc where
  n : Nat := 0
  mn : Int := 0
  mx : Int := 0
  sum : Int := 0
  sq : Nat := 0
  miss : Nat := 0
  rev : Nat := 0
  near : Bool := false
  /-- The stamps already paired. -/
  used : List Nat := []
deriving DecidableEq, Repr

/-- A measurement (R259, R260). -/
structure Meas where
  tg : Nat
  /-- The window end, once it has closed. -/
  wend : Option Nat := none
  wrap : Bool := false
  /-- The window holds its end itself: the 2^47 limit or a fault ended it there (R259, R270). -/
  incl : Bool := false
  brk : Bool := false
  stopped : Bool := false
  /-- Openings ignored while it is open (R258). -/
  skips : Nat := 0
  stamps : List GStamp := []
  /-- Stamps lost on the measurement's inputs: input and time (R253, R255). -/
  lost : List (Nat × Nat) := []
  /-- Edges counted by the prescaler of each input (R263). -/
  pre : KMap Nat := []
  /-- Accepted starts, and those whose cycle is still open, oldest first. -/
  starts : Nat := 0
  lastStart : Option Nat := none
  cycles : List Nat := []
  startSkip : Nat := 0
  accs : List StopAcc := []
deriving DecidableEq, Repr

/-- A GLINT_MEASURE in progress (R272, R273). -/
structure GlRun where
  jid : Nat
  sq : Nat
  tag : Nat
  group : Nat
  clsF : Bool
  signed : Bool
  stampsOn : Bool
  startIn : Nat
  mask : Nat
  stops : List Nat
  /-- P. -/
  presc : Nat
  gateSrc : Nat
  pol : Nat
  ret : Nat
  nGates : Nat
  nCycles : Nat
  span : Nat
  lead : Nat
  gateLen : Nat
  rate : Nat
  resAddr : Nat
  resSlots : Nat
  stampAddr : Nat
  stampSize : Nat
  limit : Nat
  /-- The inputs taken (R274), and those whose stamps are delivered. -/
  takes : List Nat
  delivers : List Nat
  armAt : Nat
  armed : Bool := false
  gates : Nat := 0
  seq : Nat := 0
  /-- Stamp entries delivered. -/
  sent : Nat := 0
  meas : Option Meas := none
  /-- Measurements that have ended and await their result. -/
  ended : List Meas := []
  brk : Bool := false
  hold : Bool := false
  /-- No further gate is taken, and why: the limit has ended the job. -/
  closed : Bool := false
  limited : Bool := false
  /-- The close of the last gate. -/
  lastClose : Option Nat := none
deriving DecidableEq, Repr

/-- A group's result registers (R269). -/
structure GlGroup where
  live : List Word := []
  latch : List Word := []
  idx : Nat := 0
deriving DecidableEq, Repr

/-- Glint. -/
structure GlintSt where
  ins : KMap GlIn := []
  runs : List GlRun := []
  groups : KMap GlGroup := []
  pend : Option PendCommit := none
  /-- No stamp is taken: from T_loss to the end of the clock hold (R270). -/
  holding : Bool := false
deriving DecidableEq, Repr

end Sys2Proof.Machine
end

