-- ==== Sys2Proof/Machine/StHbm.lean ====
section
/-! DEFINITION. Machine/StHbm.lean: the state of the two HBM3E stacks and their controllers beside their registers
("Record-store memory controller"). Times are in `State.phys`. -/
namespace Sys2Proof.Machine

/-- A request for one burst (R359, R368): its port, its burst's store address, byte enables and data of a write, its
integrity type, its arrival and its deadline. -/
structure HbmReq where
  port : Nat
  write : Bool
  addr : Nat
  mask : BitVec 64 := 0
  data : Bytes := []
  crc : Bool
  arrival : Nat
  deadline : Nat
  /-- Order of arrival, over all requests. -/
  seq : Nat
deriving DecidableEq, Repr

/-- One pseudo-channel (R366, R367, R369, R370). -/
structure HbmPc where
  priv : List HbmReq := []
  rd : List HbmReq := []
  wr : List HbmReq := []
  /-- Requests held at their ports, in arrival order. -/
  held : List HbmReq := []
  /-- Reads whose column command has issued, with the data and spare bits read, oldest first. -/
  flight : List (HbmReq × Bytes × Nat) := []
  drain : Bool := false
  /-- Open rows by bank, as row + 1. -/
  rows : KMap Nat := []
  /-- Refreshes due: bank, and whether it can no longer be postponed. -/
  due : List (Nat × Bool) := []
  /-- Queued neighbour refreshes: bank and activated row, oldest first. -/
  nr : List (Nat × Nat) := []
deriving DecidableEq, Repr

/-- What a completed read hands to its port (R375): the data as read and the damaged indication. -/
structure HbmResp where
  port : Nat
  addr : Nat
  data : Bytes
  damaged : Nat
deriving DecidableEq, Repr

/-- The stacks. A byte not listed in `mem` reads by its stack's fill: 0 is all zero, any other number names an undefined
fill. -/
structure HbmSt where
  mem : Memory := []
  fill : KMap Nat := []
  /-- Spare bits of each burst, by burst number (R373). -/
  spare : KMap Nat := []
  pcs : KMap HbmPc := []
  /-- Lane centres in taps, by stack * 256 + lane * 2 + direction (R363, R364). -/
  centres : KMap Nat := []
  pend : KMap (Option PendCommit) := []
  /-- In self-refresh for an MPLL loss, and for a supply warning or thermal emergency (R376). -/
  mpllHold : Bool := false
  stopHold : Bool := false
  seq : Nat := 0
  /-- The latest read that completed, as its port receives it. -/
  last : Option HbmResp := none
deriving DecidableEq, Repr

end Sys2Proof.Machine
end

