-- ==== Sys2Proof/Machine/StLumen.lean ====
section
/-! DEFINITION. Machine/StLumen.lean: the state of the Lumen tiles and of the Lumen pool beside their registers
("Lumen signal-processing tiles", "Lumen pool and on-die memory test"). Cycles are CCLK cycles of a tile's run. -/
namespace Sys2Proof.Machine

/-- An address register set (R279). -/
structure AReg where
  addr : Nat := 0
  base : Nat := 0
  len : Nat := 0
  step : Int := 0
deriving DecidableEq, Repr

/-- The effect of an issued bundle that later bundles come to see (R283, R286, R287). Registers are physical ones: 0-31
static, 32-63 rotating. -/
inductive TEff where
  | reg (r : Nat) (v : DWord)
  | lane (r i : Nat) (v : BitVec 16)
  | high (r : Nat) (v : Word)
  /-- The accumulator as ACCST and EXT see it. -/
  | acc (n : Nat) (v : Int)
  /-- Field 0 ADDR, 1 BASE, 2 LEN, 3 STEP of an address register. -/
  | adr (n field : Nat) (v : Int)
  | flags (z n : Bool)
  | ie (on : Bool)
  /-- A whole SR. -/
  | sr (v : Nat)
  /-- Sticky SR bits that set. -/
  | sticky (v : Nat)
  /-- A special register by its index in R298 (1 IPEND: bits to clear). -/
  | spec (i v : Nat)
deriving DecidableEq, Repr

/-- An active LOOP level (R279, R294): `step` is the ring step, 0 without ROT. -/
structure LoopLvl where
  start : Nat
  stop : Nat
  left : Nat
  step : Nat
deriving DecidableEq, Repr

/-- What follows the two delay slots of a branch (R288). -/
inductive TJump where
  | seq
  | to (pc : Nat)
  | reti
  | brk
deriving DecidableEq, Repr

/-- Why a unit issues nothing (R299, R325); `parity` waits for the recovery of R310. -/
inductive Stall where
  | none | waitin | waitout | pwait | hold | parity
deriving DecidableEq, Repr

/-- A PLD or PST that has not completed (R309, R321): its pool byte address, view and data; a PLD's target register. -/
structure PoolReq where
  target : Option Nat
  addr : Nat
  view : Nat
  data : DWord
deriving DecidableEq, Repr

/-- An input item that a tile holds (R306, R307). -/
structure Item where
  slot : Nat
  hdr : List (BitVec 16)
  data : List (BitVec 16)
  time : Nat
  flagged : Bool
  taken : Bool := false
  /-- Outputs of the tile delivered when it was taken (R310). -/
  delAt : Nat := 0
deriving DecidableEq, Repr

/-- An item of a source that the feeder has not yet written (R305, R307): its elements, the bits of its header, the
exponent of R219, and its time. -/
structure FeedItem where
  data : List (BitVec 16)
  first : Bool := false
  last : Bool := false
  flagged : Bool := false
  damaged : Bool := false
  brk : Bool := false
  exp : Nat := 0
  time : Nat := 0
deriving DecidableEq, Repr

/-- An output that PUTOUT has committed and that is not yet delivered (R308). -/
structure Commit where
  slot : Nat
  time : Nat
  flagged : Bool
deriving DecidableEq, Repr

/-- One tile. The fields from `pc` to `stall` count for the lead tile of a unit (R304). -/
structure TileSt where
  imem : KMap DWord := []
  x : KMap (BitVec 16) := []
  y : KMap (BitVec 16) := []
  c : KMap (BitVec 16) := []
  /-- The loaded image's ENTRY and VEC (R312), and the identifier of its retained copy, 0 for none (R313). -/
  entry : Nat := 0
  vec : Nat := 0
  image : Nat := 0
  /-- S0-S31 as 0-31 and the physical rotating registers as 32-63. -/
  regs : KMap DWord := []
  roff : Nat := 0
  /-- The accumulators as MAC4 and MACP see them, and as ACCST and EXT see them (R287). -/
  accM : KMap Int := []
  accS : KMap Int := []
  aregs : KMap AReg := []
  sr : Nat := 0
  ipend : Nat := 0
  imask : Nat := 0
  spc : Nat := 0
  ssr : Nat := 0
  sroff : Nat := 0
  tcmp : Nat := 0
  /-- Levels and events in the 2-cycle synchroniser: the cycle they reach IPEND, the bit, its value (R299). -/
  sync : List (Nat × Nat × Bool) := []
  /-- Effects not yet seen: the key is twice the first cycle that sees it, and 1 more unless it is a post-modification. -/
  pend : List (Nat × TEff) := []
  cyc : Nat := 0
  /-- Sticky bits set since they were last copied to LUMEN_Tt_STAT. -/
  raised : Nat := 0
  /-- PLD and PST requests outstanding, oldest first; data of completed PLDs; some access failed its parity. -/
  reqs : List PoolReq := []
  got : List (Nat × DWord) := []
  poolBad : Bool := false
  /-- The run that holds the tile, by its job (0 for none), and the unit's lead tile. -/
  run : Nat := 0
  lead : Nat := 0
  live : Bool := false
  pc : Nat := 0
  delay : Option (Nat × TJump) := none
  loops : List LoopLvl := []
  /-- A REP in progress: repetitions left and ring step. -/
  rep : Option (Nat × Nat) := none
  stall : Stall := .none
  /-- Counted cycles since the last take, once there was one (R306). -/
  since : Nat := 0
  timed : Bool := false
  /-- Items held, oldest first; host items that have come so far (SRC 0), and the place in a record source that the next
  one comes from: how many of the tile's segments are done, and the piece of the present one (SRC 1). -/
  held : List Item := []
  fed : Nat := 0
  fedEntry : Nat := 0
  fedPiece : Nat := 0
  seq : Nat := 0
  lostNext : Bool := false
  breakNext : Bool := false
  /-- A host item has been asked for (SRC 0); items that have arrived and are not yet written (SRC 0, 2 and 3). -/
  asked : Bool := false
  /-- The source has no further item for the tile. -/
  dry : Bool := false
  arrived : List FeedItem := []
  /-- Output ring: slots committed so far, slots not free, outputs since the last WAITIN, commits not delivered, outputs
  delivered, and commits of a rerun still to be skipped (R308, R310). -/
  outCount : Nat := 0
  outBusy : Nat := 0
  outs : Nat := 0
  commits : List Commit := []
  delivered : Nat := 0
  skip : Nat := 0
  rerun : Bool := false
deriving DecidableEq, Repr

/-- An admitted TILE_RUN (R314, R315). -/
structure RunSt where
  jid : Nat
  first : Nat
  /-- Gang size G and the number of tiles N_T. -/
  g : Nat
  nt : Nat
  src : Nat
  recomp : Bool
  inBase : Nat
  itemElems : Nat
  inSlots : Nat
  inHdr : Nat
  outBase : Nat
  outElems : Nat
  outSlots : Nat
  outPerIn : Nat
  dest : Nat
  destSlots : Nat
  srcAddr : Nat
  nItems : Nat
  /-- The job of a named source (SRC 1-3). -/
  srcJid : Nat
  firstEntry : Nat
  nEntries : Nat
  zPer : Nat
  maxCycles : Nat
  poolBase : Nat
  poolSize : Nat
  /-- The job of SRC 2 or 3 gives no further item. -/
  srcOver : Bool := false
  /-- Outputs delivered, and what the final DETAIL and STATUS report (R317). -/
  outputs : Nat := 0
  overrun : Bool := false
  recomputed : Bool := false
  lost : Bool := false
  program : Bool := false
  flagged : Bool := false
  integrity : Bool := false
deriving DecidableEq, Repr

/-- A retained image (R313): its identifier (the loading job), its bytes and its pool pages. -/
structure ImageSt where
  id : Nat
  bytes : Bytes
  pages : List Nat
deriving DecidableEq, Repr

/-- The tiles and the runs. -/
structure LumenSt where
  tiles : KMap TileSt := []
  runs : List RunSt := []
  images : List ImageSt := []
deriving DecidableEq, Repr

/-- A march test in progress (R330, R333). -/
structure MarchRun where
  sides : Nat
  preserving : Bool
  /-- The start-up test, which covers the whole pool (R332). -/
  startup : Bool
  began : Nat
deriving DecidableEq, Repr

/-- The pool. A byte not listed in `mem` reads by its page's fill: 0 is all zero, any other number names an undefined
fill. -/
structure PoolSt where
  mem : Memory := []
  fill : KMap Nat := []
  /-- Pages that a job or a retained image holds, with the job that took them. -/
  owner : KMap Nat := []
  /-- The management reserve and the retired pages (R322, R331). -/
  reserve : List Nat := []
  retired : List Nat := []
  march : Option MarchRun := none
deriving DecidableEq, Repr

end Sys2Proof.Machine
end

