-- ==== Sys2Proof/Machine/StMgmt.lean ====
section
/-! DEFINITION. Machine/StMgmt.lean: the state of the management core, the image offers, the life ledger and the power and
thermal monitors beside their registers ("Management core, Eclipse handover and the life ledger", "Power, heat, start-up
and package"). -/
namespace Sys2Proof.Machine

/-- The life ledger (R443-R446). Field codes: 0-7 the hour buckets, 8 Glare, 9 + k doubling counter k. -/
structure LedgerSt where
  /-- Logical bits that read 1, outside the factory region. -/
  otp : KMap Bool := []
  /-- Logical bits whose burn failed its verify: passed over from then on. -/
  failed : List Nat := []
  /-- Fine counters of fields 0-8, in seconds (R444). -/
  fine : KMap Nat := []
  /-- Seconds spent in each bucket, and the junction histogram, this session (R448). -/
  secs : KMap Nat := []
  hist : KMap Nat := []
  /-- Session counts and power-up baselines of the doubling counters (R445). -/
  counts : KMap Nat := []
  base : KMap Nat := []
  /-- Fields whose burn is queued, oldest first, and the burn in progress: field, logical bit, start (R446). -/
  queue : List Nat := []
  burning : Option (Nat × Nat × Nat) := none
  /-- The next second's sample (R443). -/
  nextSecond : Nat := 0
  /-- The ledger session is open (R470). -/
  session : Bool := false
deriving DecidableEq, Repr

/-- The stages of an offer (R429-R438). -/
inductive OfferStage where
  /-- The image is being downloaded. -/
  | download
  /-- The digest matched; the copy and the handover follow. -/
  | checked
  /-- The core restarts: the new image is verified, or the previous one is started again. -/
  | handover
  | probation
  /-- Confirmed, with reports of other devices still awaited (R441). -/
  | reporting
deriving DecidableEq, Repr

/-- An image offer (R430-R442). Sources: 0 host, 1 ERN_UP, 2 ERN_DN. -/
structure Offer where
  src : Nat
  /-- The host job, 0 for a forwarded offer. -/
  jid : Nat
  version : Nat
  digest : Bytes
  size : Nat
  forward : Bool
  stage : OfferStage := .download
  /-- The staged image (R432). -/
  image : Bytes := []
  /-- Offers of an equal digest that joined this one: source and job (R434). -/
  joined : List (Nat × Nat) := []
  /-- Other devices that received the image, and that installed it (R433). -/
  reached : Nat := 0
  installed : Nat := 0
  /-- Every device that received the offer has reported. -/
  allIn : Bool := false
  /-- An outcome that the end of the freeze carries out: the code (R442). -/
  due : Option Nat := none
  /-- A supply warning or thermal emergency came during the handover (R439). -/
  struck : Bool := false
deriving DecidableEq, Repr

/-- A handover record as the host can know it (R437): the layout version and the writing image's version. -/
structure HandRec where
  layout : Nat
  writer : Nat
deriving DecidableEq, Repr

/-- The management core. -/
structure MgmtSt where
  /-- The boot mailbox (R427), by offset from its base, and whether it is closed. -/
  mail : Memory := []
  mailClosed : Bool := false
  /-- Boot images that arrived and are being verified, oldest first, each with its source. -/
  verifying : List (Nat × Bytes) := []
  slotA : Bytes := []
  slotB : Bytes := []
  /-- The moment the image passed, t_a (R470). -/
  bootAt : Nat := 0
  offers : List Offer := []
  /-- When the freeze began, and the full device time at which probation began. -/
  freezeAt : Nat := 0
  probeAt : Nat := 0
  recX : Option HandRec := none
  recY : Option HandRec := none
  /-- The source of the latest forwarded offer that this device took on, 0 after an offer of its own host: the way back of
  reports that come once the offer has ended here (R433). -/
  relay : Nat := 0
  /-- The restart found a parity error, so the boot ROM waits for an image again (R429). -/
  lostCore : Bool := false
deriving DecidableEq, Repr

/-- The power and thermal monitors (R459-R466) and the start-up (R470). -/
structure PowerSt where
  /-- Sensor readings in 1/64 °C, the latest rail voltages in mV and currents in mA, by index. -/
  temps : KMap Int := []
  volts : KMap (Option Nat) := []
  amps : KMap Nat := []
  /-- Since when the temperatures have been below the warning's end (R462). -/
  coolSince : Option Nat := none
  /-- The next sensor sample and the next power average. -/
  nextSample : Nat := 0
  nextPower : Nat := 0
  /-- The stop of a supply warning lasts (R466), and the pin was or is low up to this time (R465). -/
  supplyHold : Bool := false
  warnEnd : Nat := 0
  /-- A link reset waits for the end of a freeze (R469). -/
  linkDue : Bool := false
  /-- Start-up (R470) is between step 6 and READY, when step 6 began, and which parts are done. -/
  starting : Bool := false
  startAt : Nat := 0
  warmDone : Bool := false
  poolDone : Bool := false
  calDone : Bool := false
deriving DecidableEq, Repr

end Sys2Proof.Machine
end

