-- ==== Sys2Proof/Machine/StPrism.lean ====
section
/-! DEFINITION. Machine/StPrism.lean: the state of a Prism converter channel ("Prism converters and analogue inputs")
beside its registers. Times are full device times in ticks. -/
namespace Sys2Proof.Machine

/-- An accepted ENABLE, RATE and PAIR change that waits for its first word (R79). -/
structure CfgReq where
  enable : Nat
  rate : Nat
  pair : Nat
  /-- The commit's instant plus 2 µs. -/
  due : Nat
deriving DecidableEq, Repr

/-- A pending range or trim change (R87, R89). -/
structure RangeReq where
  range : Nat
  fine : Nat
  offset : Nat
  immediate : Nat
  /-- The commit's instant plus 64 ns. -/
  due : Nat
  /-- The change applies with the configuration that the same commit enables, at its first word (R89). -/
  withEnable : Bool
deriving DecidableEq, Repr

/-- One analogue channel. -/
structure PrismCh where
  cfgPend : Option CfgReq := none
  rangePend : Option RangeReq := none
  /-- Words issued since the current configuration began (R87). -/
  idx : Nat := 0
  /-- The device time of the next word (R21). -/
  nextT : Nat := 0
  /-- A time step's whole cycles, which move the boundary after the word in progress (R389). -/
  shift : Int := 0
  /-- Words that start before this time carry status 10 (R88). -/
  settleEnd : Nat := 0
  /-- The overrange event in progress (R83): its first and last clipped samples, whether the detector has tripped since the
  first, and whether it had by the last. -/
  ovrFirst : Option Nat := none
  ovrLast : Nat := 0
  ovrTrip : Bool := false
  ovrLong : Bool := false
  /-- The channel's own detector is tripped (R84). -/
  tripped : Bool := false
  /-- The neighbour's detector as this channel's words see it: tripped, and when it last cleared. -/
  nbrTripped : Bool := false
  nbrClear : Option Nat := none
  /-- The previous word carried status 01 for the neighbour's overdrive; the previous word carried status 11. -/
  nbrRun : Bool := false
  clkRun : Bool := false
  /-- The last word accumulated by the estimators, and the later of the last enable and BG_EN's last setting (R92). -/
  lastAcc : Option Nat := none
  bgSince : Nat := 0
  /-- The last instant at which an update was scheduled and handled (R93). -/
  calAt : Nat := 0
  /-- Its calibration has begun, and words go on up to the next bank-aligned one (R99). -/
  isolating : Bool := false
  /-- A lock loss cut its calibration, and it reconnects once the clock is clean (R102). -/
  reconn : Bool := false
  /-- BG_CONVERGED has been 1 since the last enable, rate change and installed foreground set (R95). -/
  converged : Bool := false
  /-- The number of the coefficient set held for each range, and the sets before a foreground calibration (R94, R99). -/
  sets : List Nat := [0, 0, 0, 0]
  oldSets : List Nat := [0, 0, 0, 0]
deriving DecidableEq, Repr

/-- A CALIBRATE job in progress (R99). -/
structure CalRun where
  jid : Nat
  keepOnFail : Bool
  mask : Nat
  /-- Channels still to be calibrated, ascending; the first is in progress once the source level is known. -/
  todo : List Nat
  /-- The calibration source level has been read, in µV. -/
  level : Option Int := none
  passed : List Nat := []
  failed : List Nat := []
  /-- Report entries so far (R98). -/
  report : Bytes := []
deriving DecidableEq, Repr

/-- The four channels and the calibration in progress. -/
structure PrismSt where
  chs : KMap PrismCh := []
  cal : List CalRun := []
deriving DecidableEq, Repr

end Sys2Proof.Machine
end

