-- ==== Sys2Proof/Machine/State.lean ====
section
/-! DEFINITION. Machine/State.lean: the whole state of the block, its reset, and the reasons a step can stop.
The registers stand in one sparse file keyed by their BAR0 address (`regs`; `act` holds the active copies of the RWS
fields, R14); the rest of the machine's state stands block by block. `pending` is the queue of waiting commands. -/
namespace Sys2Proof.Machine

/-- No event of the spec stops the model with a fault: a bad access completes (R10), an unmapped one reads 0 (R30), and
an error of the outside world is recorded in a status, a counter or an event. So there is no constructor. -/
inductive Fault where
deriving DecidableEq, Repr

/-- Why a command has no meaning here. -/
inductive Refusal where
  /-- Raised by an arm of `exec` whose command is not modelled yet. Safe: the model stops. -/
  | notModelled (mnemonic : String)
deriving DecidableEq, Repr

/-- The state of the block. -/
structure State where
  /-- The commands that wait, first in first out. -/
  pending : List Instr := []
  /-- Elapsed time in ticks since the state after cold reset; it never steps (the model's own clock). -/
  phys : Nat := 0
  /-- Full device time in ticks: EPOCH times 2^64 plus the stamp (R6, R7). -/
  devTime : Nat := 0
  /-- The device-time counter runs (R381). -/
  running : Bool := false
  /-- All core clocks are lost: nothing happens until POR_N (R387). -/
  dead : Bool := false
  /-- Register words that differ from their reset words; for an RWS field, the shadow copy (R13, R14). -/
  regs : Regs := []
  /-- Active copies of the registers with RWS fields (R14). -/
  act : Regs := []
  /-- Read latches of the register pairs, by the LO register's address (R12). -/
  rlatch : KMap Word := []
  /-- Write latches of the register pairs, by the LO register's address (R12). -/
  wlatch : KMap Word := []
  /-- What has gone out of the block, oldest first (the model's own record). -/
  out : List Output := []
  /-- The count of free values taken (the model's own field: each is a fresh value of `Config`). -/
  freeCtr : Nat := 0
  /-- The host interface: link, rings, job table, mover channels. -/
  host : HostSt := {}
  /-- Prism channels and calibration. -/
  prism : PrismSt := {}
  /-- Lantern. -/
  lan : LanternSt := {}
  /-- Lumen tiles. -/
  lumen : LumenSt := {}
  /-- The Lumen pool. -/
  pool : PoolSt := {}
  /-- The management core and image offers. -/
  mgmt : MgmtSt := {}
  /-- The life ledger. -/
  ledger : LedgerSt := {}
  /-- The power and thermal monitors, and start-up. -/
  power : PowerSt := {}
  /-- Clocks, references and the Ernos array. -/
  clk : ClockSt := {}
  /-- The HBM3E stacks and their controllers. -/
  hbm : HbmSt := {}
  /-- The auxiliary measurement unit and the process loops. -/
  amu : AmuSt := {}
  /-- The record store and Afterglow. -/
  record : RecordSt := {}
  /-- Beacon, Glimmer and the fibre temperature engine. -/
  fibre : FibreSt := {}
  /-- The Glint timing inputs. -/
  glint : GlintSt := {}
deriving DecidableEq, Repr

/-- The machine right after a cold reset (R468): every register at its reset word, device time at 0 and not running
(R381), the Glare bucket full (HOST_BUCKET's reset value, R74), no job, no command waiting. -/
def State.reset : State := {}

end Sys2Proof.Machine
end

