-- ==== Sys2Proof/Machine/Ops.lean ====
section
/-! DEFINITION. Machine/Ops.lean: the named operations over registers, latches, device time, the output record and the
event ring, which every meaning is written with. -/
namespace Sys2Proof.Machine

/-- A meaning as an outcome. Its effect is on everything but the queue of commands; a device that has lost every core clock
does nothing until POR_N (R387). -/
def live (s : State) (f : State → State) : Host.Outcome State Fault Refusal :=
  .next (if s.dead then s else { f s with pending := s.pending })

/-- The value of register field `f`, instance `i`, `j`: the stored or shadow copy. -/
def State.rd (s : State) (f : Fld) (i : Nat := 0) (j : Nat := 0) : Nat := s.regs.rd f i j

/-- Sets register field `f`, instance `i`, `j`. -/
def State.wr (s : State) (f : Fld) (v : Nat) (i : Nat := 0) (j : Nat := 0) : State :=
  { s with regs := s.regs.wr f i j v }

/-- The active copy of an RWS field (R14). -/
def State.ract (s : State) (f : Fld) (i : Nat := 0) (j : Nat := 0) : Nat := s.act.rd f i j

/-- Sets the active copy of an RWS field. -/
def State.wact (s : State) (f : Fld) (v : Nat) (i : Nat := 0) (j : Nat := 0) : State :=
  { s with act := s.act.wr f i j v }

/-- Whether a one-bit field is 1. -/
def State.flag (s : State) (f : Fld) (i : Nat := 0) (j : Nat := 0) : Bool := s.rd f i j != 0

/-- Sets a one-bit field; for a W1C flag, hardware's set (R15). -/
def State.setf (s : State) (f : Fld) (i : Nat := 0) (j : Nat := 0) : State := s.wr f 1 i j

/-- Clears a field. -/
def State.clrf (s : State) (f : Fld) (i : Nat := 0) (j : Nat := 0) : State := s.wr f 0 i j

/-- Counts `n` events in a counter field, which saturates at its width (R16). -/
def State.count (s : State) (f : Fld) (n : Nat := 1) (i : Nat := 0) (j : Nat := 0) : State :=
  s.wr f (min (s.rd f i j + n) (f.span - 1)) i j

/-- Raises a recorded maximum to `v`, held at its width. -/
def State.maxTo (s : State) (f : Fld) (v : Nat) (i : Nat := 0) (j : Nat := 0) : State :=
  s.wr f (min (max (s.rd f i j) v) (f.span - 1)) i j

/-- Writes a 64-bit value to a register pair (R12). -/
def State.wr64 (s : State) (lo hi : Fld) (v : Nat) (i : Nat := 0) : State :=
  (s.wr lo (v % 2 ^ 32) i).wr hi (v / 2 ^ 32) i

/-- The 64-bit value of a register pair. -/
def State.rd64 (s : State) (lo hi : Fld) (i : Nat := 0) : Nat := s.rd lo i + 2 ^ 32 * s.rd hi i

/-- The 64-bit value of a pair's active copies. -/
def State.ract64 (s : State) (lo hi : Fld) (i : Nat := 0) : Nat := s.ract lo i + 2 ^ 32 * s.ract hi i

/-- The stored word of the register at `a`, with its reset word `d`. -/
def State.word (s : State) (a : Nat) (d : Word := 0) : Word := kget s.regs a d

/-- The registers of `m` from `lo` up to `hi` that hold RWS fields. -/
def shadowRows (m : Regs) (lo hi : Nat) : Regs :=
  m.filter (fun c => decide (lo ≤ c.1 ∧ c.1 < hi) &&
    (match findReg regTable c.1 with | some (r, _) => r.shadowed | none => false))

/-- The shadow values of a block's registers from `lo` up to `hi`, as a COMMIT takes them (R14). -/
def State.shadow (s : State) (lo hi : Nat) : Regs := shadowRows s.regs lo hi

/-- The active values of a block's registers from `lo` up to `hi`. -/
def State.active (s : State) (lo hi : Nat) : Regs := shadowRows s.act lo hi

/-- Transfers shadow values taken by a COMMIT to the active logic (R14). -/
def State.applyShadow (s : State) (lo hi : Nat) (snap : Regs) : State :=
  { s with act := snap.foldl (fun a c => kput a c.1 c.2) (kclear s.act lo hi) }

/-- The device-time stamp of a control event: the SCLK cycle that follows it, or falls with it (R6, R27). -/
def State.stamp (s : State) : Nat := roundUp s.devTime cycle % 2 ^ 64

/-- The present SCLK boundary, or the next one, as a full device time (R27). -/
def State.boundary (s : State) : Nat := roundUp s.devTime cycle

/-- The first SCLK boundary at least `d` ticks from now. -/
def State.boundaryAfter (s : State) (d : Nat) : Nat := roundUp (s.devTime + d) cycle

/-- The EPOCH count (R7). -/
def State.epoch (s : State) : Nat := s.devTime / 2 ^ 64 % 2 ^ 32

/-- Appends to the output record. -/
def State.emit (s : State) (o : Output) : State := { s with out := s.out ++ [o] }

/-- Takes a free value: the index of the fresh value, and the state with the count advanced. -/
def State.fresh (s : State) : Nat × State := (s.freeCtr, { s with freeCtr := s.freeCtr + 1 })

/-- Applies `f` to the host interface. -/
def State.onHost (s : State) (f : HostSt → HostSt) : State := { s with host := f s.host }

/-- Submission ring `n`. -/
def State.sq (s : State) (n : Nat) : SqRing := kget s.host.sqs n {}

/-- Replaces submission ring `n`. -/
def State.setSq (s : State) (n : Nat) (r : SqRing) : State := s.onHost (fun h => { h with sqs := kset h.sqs n r {} })

/-- Completion ring `m`. -/
def State.cq (s : State) (m : Nat) : CqRing := kget s.host.cqs m {}

/-- Replaces completion ring `m`. -/
def State.setCq (s : State) (m : Nat) (r : CqRing) : State := s.onHost (fun h => { h with cqs := kset h.cqs m r {} })

/-- The number of slots of a ring: values outside `lo` to `hi` act as 4 (R74). -/
def ringSize (log2 lo hi : Nat) : Nat := if lo ≤ log2 ∧ log2 ≤ hi then 2 ^ log2 else 16

/-- Whether count `head` is valid against `tail` for a ring of `size` slots (R41, R481). -/
def countOk (tail head size : Nat) : Bool := decide ((tail + 2 ^ 32 - head) % 2 ^ 32 ≤ size)

/-- The free slots of a ring. -/
def ringFree (tail head size : Nat) : Nat := size - (tail + 2 ^ 32 - head) % 2 ^ 32

/-- The OWN bit of the pass that count `tail` is in: 1 on the first pass (R52). -/
def ringPhase (tail size : Nat) : Nat := if tail / size % 2 = 0 then 1 else 0

/-- BAR0 address of the MSI-X vector table (R71). -/
def msixTable : Nat := 0x180000

/-- BAR0 address of the MSI-X pending-bit array (R71). -/
def msixPba : Nat := 0x188000

/-- Vector `v`'s control word; masked after reset (PRESUMED, the PCIe specification's reset value). -/
def State.vectorMasked (s : State) (v : Nat) : Bool := bit (s.word (msixTable + 16 * v + 12) 1).toNat 0

/-- Signals MSI-X vector `v`: a message, or the pending bit where the vector is masked (R72). -/
def State.signal (s : State) (v : Nat) : State :=
  if s.vectorMasked v then
    let a := msixPba + 4 * (v / 32)
    { s with regs := kset s.regs a (s.word a ||| BitVec.ofNat 32 (2 ^ (v % 32))) 0 }
  else
    s.emit (.msix v ((s.word (msixTable + 16 * v)).toNat + 2 ^ 32 * (s.word (msixTable + 16 * v + 4)).toNat)
      (s.word (msixTable + 16 * v + 8)).toNat)

/-- The number of slots of the event ring (R74). -/
def State.evSize (s : State) : Nat := ringSize (s.rd F.HOST_EVQ_CTRL_SIZE_LOG2) 4 12

/-- The free slots of the event ring, judged from its last valid head word (R481). -/
def State.evFree (s : State) : Nat := ringFree s.host.evq.tail s.host.evq.head s.evSize

/-- Writes one event record: bytes 8 to 31, then bytes 0 to 7, then the signal (R52, R73). A severity-2 event also
sets POWER_ALERT.SEV2 (R472). -/
def State.writeEvent (s : State) (sev code src d0 d1 : Nat) : State :=
  let e := s.host.evq
  let base := (s.rd F.HOST_EVQ_BASE_LO_ADDR) * 32 + 2 ^ 32 * s.rd F.HOST_EVQ_BASE_HI_ADDR
  let slot := base + 32 * (e.tail % s.evSize)
  let w0 := ringPhase e.tail s.evSize * 2 ^ 63 + sev % 256 * 2 ^ 48 + code % 2 ^ 16 * 2 ^ 32 + src % 2 ^ 32
  let s := s.emit (.hostWrite (slot + 8) (leBytes 8 d0 ++ leBytes 8 d1 ++ leBytes 8 s.stamp))
  let s := s.emit (.hostWrite slot (leBytes 8 w0))
  let s := s.onHost (fun h => { h with evq := { e with tail := (e.tail + 1) % 2 ^ 32 } })
  let s := if sev = 2 then s.setf F.POWER_ALERT_SEV2 else s
  s.signal (s.rd F.HOST_EVQ_CTRL_VECTOR)

/-- Counts an event that is not written (R73). -/
def State.loseEvent (s : State) : State :=
  (s.count F.HOST_EVQ_LOST_COUNT).onHost (fun h => { h with evq := { h.evq with lostSince := h.evq.lostSince + 1 } })

/-- Writes the EVQ_OVERFLOW event where events were lost and the ring is in use with space (R73). -/
def State.overflowEvent (s : State) : State :=
  if s.flag F.HOST_CTRL_EVQ_EN && decide (0 < s.host.evq.lostSince) && decide (0 < s.evFree) then
    let n := s.host.evq.lostSince
    (s.onHost (fun h => { h with evq := { h.evq with lostSince := 0 } })).writeEvent 1 3 0 n 0
  else s

/-- Raises an asynchronous event (R73): written where the event ring is in use and has space, counted as lost otherwise. -/
def State.raise (s : State) (sev code src d0 d1 : Nat) : State :=
  if s.flag F.HOST_CTRL_EVQ_EN then
    let s := s.overflowEvent
    if 0 < s.evFree then s.writeEvent sev code src d0 d1 else s.loseEvent
  else s.loseEvent

/-- RING_ERROR (R73). -/
def State.ringError (s : State) (src cause count ring : Nat) : State :=
  s.raise 2 1 src cause (count % 2 ^ 32 + 2 ^ 32 * (ring % 2 ^ 32))

/-- A register read as an outcome: a device that has lost every core clock answers 0xFFFF_FFFF (R387). -/
def liveRead (s : State) (addr : Nat) (f : State → State) : Host.Outcome State Fault Refusal :=
  .next (if s.dead then s.emit (.readData addr 0xFFFFFFFF) else { f s with pending := s.pending })

end Sys2Proof.Machine
end

