-- ==== Sys2Proof/Machine/Ledger.lean ====
section
/-! DEFINITION. Machine/Ledger.lean: the life ledger (R443-R447). -/
namespace Sys2Proof.Machine

/-- The first logical bit and the length of a field: hour buckets 0-7, Glare 8, doubling counter k as 9 + k (R443). -/
def ledgerField (f : Nat) : Nat × Nat :=
  if f < 8 then (8192 + 1024 * f, 1024) else if f = 8 then (16384, 1024) else (17408 + 32 * (f - 9), 32)

/-- A field's value: how many of its logical bits read 1 (R443). -/
def State.ledgerBits (s : State) (f : Nat) : Nat :=
  let r := ledgerField f
  countP (fun c => decide (r.1 ≤ c.1 ∧ c.1 < r.1 + r.2) && c.2) s.ledger.otp

/-- The next logical bit of a field to burn: neither burnt nor passed over after a failed burn. -/
def State.ledgerNext (s : State) (f : Nat) : Option Nat :=
  let r := ledgerField f
  ((List.range r.2).map (· + r.1)).find? (fun b => !kget s.ledger.otp b false && !s.ledger.failed.contains b)

/-- Burns of a field that are queued or running. -/
def State.ledgerWaiting (s : State) (f : Nat) : Nat :=
  countP (fun x => x = f) s.ledger.queue + (match s.ledger.burning with | some b => b2n (b.1 = f) | none => 0)

/-- Nominal rail voltages in mV, by rail code (R454). -/
def railNominal : List Nat := [700, 800, 1100, 400, 1800, 1000, 1800, 1200, 1800, 3300, 5000]

/-- The latest reading of rail `r` lies more than `pct` per cent below nominal, or with `both` on either side of it. -/
def State.railOff (s : State) (r pct : Nat) (both : Bool) : Bool :=
  match kget s.power.volts r none with
  | none => false
  | some v =>
    let n := railNominal.getD r 0
    decide (pct * n < 100 * (n - v)) || (both && decide (pct * n < 100 * (v - n)))

/-- A rail is below margin (R464). -/
def State.railsLow (s : State) : Bool := (List.range 11).any (fun r => s.railOff r 3 false)

/-- A rail is more than 5 % from nominal (R464). -/
def State.railsOut (s : State) : Bool := (List.range 11).any (fun r => s.railOff r 5 true)

/-- A supply warning is in force: SUPPLY_WARN_N is low, or a rail is out (R465). -/
def State.supplyNow (s : State) : Bool := s.power.supplyHold && (decide (s.phys < s.power.warnEnd) || s.railsOut)

/-- Ledger burns wait: a freeze, a supply warning or a rail below margin (R446). -/
def State.ledgerHeld (s : State) : Bool :=
  s.host.frozen || s.supplyNow || s.flag F.POWER_STAT_MARGIN

/-- LEDGER_STAT, LEDGER_QUEUE and LEDGER_BURNT follow the ledger (R452). -/
def State.ledgerRegs (s : State) : State :=
  let busy := !s.ledger.queue.isEmpty || s.ledger.burning.isSome
  let s := s.wr F.LEDGER_STAT_BUSY (b2n busy)
  let s := s.wr F.LEDGER_STAT_DEFERRED (b2n (!s.ledger.queue.isEmpty && s.ledger.burning.isNone && s.ledgerHeld))
  (s.wr F.LEDGER_QUEUE_BURNS s.ledger.queue.length).wr F.LEDGER_BURNT_BITS (countP (·.2) s.ledger.otp)

/-- Whether the next bit of a field is due (R444, R445): a fine counter of 256 h, or a doubling counter at 2^b. -/
def State.ledgerDue (s : State) (f : Nat) : Bool :=
  let b := s.ledgerBits f + s.ledgerWaiting f
  if f < 9 then decide (921600 ≤ kget s.ledger.fine f 0) && (s.ledgerNext f).isSome
  else decide (b < 32 ∧ 2 ^ b ≤ kget s.ledger.base (f - 9) 0 + kget s.ledger.counts (f - 9) 0)

/-- Queues a field's burn, if it is due and fewer than 16 wait (R446); a fine counter then falls by 256 h. -/
def State.ledgerQueue (s : State) (f : Nat) : State :=
  if s.ledgerDue f && decide (s.ledger.queue.length < 16) then
    { s with ledger := { s.ledger with
        queue := s.ledger.queue ++ [f]
        fine := if f < 9 then kset s.ledger.fine f (kget s.ledger.fine f 0 - 921600) 0 else s.ledger.fine } }
  else s

/-- Queues every burn that is due. -/
def State.ledgerCheck (s : State) : State := ((List.range 27).foldl State.ledgerQueue s).ledgerRegs

/-- Doubling counter `k` counts `n` events (R445). -/
def State.ledgerAdd (s : State) (k : Nat) (n : Nat := 1) : State :=
  ({ s with ledger := { s.ledger with counts := kset s.ledger.counts k (kget s.ledger.counts k 0 + n) 0 } }).ledgerCheck

/-- Doubling counters by name (R445). -/
def ctrPower : Nat := 0
def ctrOverrange (n : Nat) : Nat := 1 + n
def ctrLock (p : Nat) : Nat := 5 + p
def ctrHbm : Nat := 8
def ctrPool : Nat := 9
def ctrTile : Nat := 10
def ctrPenumbra : Nat := 11
def ctrHist : Nat := 12
def ctrMgmt : Nat := 13
def ctrDeclined : Nat := 14
def ctrMiss : Nat := 15
def ctrEmerg : Nat := 16
def ctrHandover : Nat := 17

/-- The seconds that a field stands for: burnt bits and the fine counter (R447). -/
def State.ledgerSecs (s : State) (f : Nat) : Nat := 921600 * s.ledgerBits f + kget s.ledger.fine f 0

/-- Weights w_0 to w_7 in hundredths (R447). -/
def lifeWeights : List Nat := [4, 8, 16, 30, 55, 100, 140, 200]

/-- GLOBAL_LIFE (R447), rounded down. -/
def State.life (s : State) : Nat :=
  let h := (List.range 8).map s.ledgerSecs
  let wear := sumL ((List.range 8).map (fun b => lifeWeights.getD b 0 * h.getD b 0))
  min ((wear + (100 * s.ledgerSecs 8 - 10 * sumL h)) / (36 * 219150)) 0xFFFF

/-- The junction-temperature bucket of a reading in 1/64 °C (R443). -/
def lifeBucket (t : Int) : Nat :=
  if t < 50 * 64 then 0 else if t < 60 * 64 then 1 else if t < 70 * 64 then 2 else if t < 80 * 64 then 3
  else if t < 90 * 64 then 4 else if t < 95 * 64 then 5 else if t < 100 * 64 then 6 else 7

/-- The junction histogram's bin of a reading in 1/64 °C (R448). -/
def lifeBin (t : Int) : Nat := if t < 0 then 0 else min (t / 128).toNat 63

end Sys2Proof.Machine
end

