-- ==== Sys2Proof/Machine/Jobs.lean ====
section
/-! DEFINITION. Machine/Jobs.lean: the job table, completion records, their hold and release, signalling, and the end of
a job ("Jobs, rings and the delivery promise"). -/
namespace Sys2Proof.Machine

/-- Bits `hi` to `lo` of the descriptor header word (R47). -/
def Job.hdr (j : Job) (hi lo : Nat) : Nat := bitsAt j.desc 0 8 hi lo

/-- KIND (R47). -/
def Job.kind (j : Job) : Nat := j.hdr 55 48

/-- TAG (R47). -/
def Job.tag (j : Job) : Nat := j.hdr 47 32

/-- KFLAGS (R47). -/
def Job.kflags (j : Job) : Nat := j.hdr 15 8

/-- AUTO_RESUME (R47). -/
def Job.autoResume (j : Job) : Bool := j.hdr 2 2 = 1

/-- Little-endian payload field of `n` bytes at byte `o` of the descriptor. -/
def Job.fld (j : Job) (o n : Nat) : Nat := fieldAt j.desc o n

/-- Bits `hi` to `lo` of the payload field of `n` bytes at byte `o`. -/
def Job.bits (j : Job) (o n hi lo : Nat) : Nat := bitsAt j.desc o n hi lo

/-- The job with identifier `jid`. -/
def State.job? (s : State) (jid : Nat) : Option Job := s.host.jobs.find? (fun j => j.jid = jid)

/-- The job of ring `sq` with TAG `tag` that is admitted, the oldest first. -/
def State.jobOf? (s : State) (sq tag : Nat) : Option Job :=
  s.host.jobs.find? (fun j => j.sq = sq && j.tag = tag && j.admitted)

/-- Applies `f` to the job with identifier `jid`. -/
def State.updJob (s : State) (jid : Nat) (f : Job → Job) : State :=
  s.onHost (fun h => { h with jobs := h.jobs.map (fun j => if j.jid = jid then f j else j) })

/-- Mover channel `c`. -/
def State.chan (s : State) (c : Nat) : Chan := kget s.host.chans c {}

/-- Replaces mover channel `c`. -/
def State.setChan (s : State) (c : Nat) (x : Chan) : State :=
  s.onHost (fun h => { h with chans := kset h.chans c x {} })

/-- The channels that a job holds (R337). -/
def State.chansOf (s : State) (jid : Nat) : List Nat :=
  (s.host.chans.filter (fun c => c.2.st ≠ .free ∧ c.2.jid = jid)).map (·.1)

/-- STATUS codes (R479). -/
def stDone : Nat := 0x01
def stPartial : Nat := 0x02
def stFlagged : Nat := 0x03
def stAborted : Nat := 0x10
def stMissed : Nat := 0x11
def stClock : Nat := 0x12
def stIntegrity : Nat := 0x13
def stAddress : Nat := 0x20
def stDescriptor : Nat := 0x21
def stState : Nat := 0x40
def stConflict : Nat := 0x41
def stSpace : Nat := 0x42
def stBandwidth : Nat := 0x43
def stPower : Nat := 0x44

/-- The final STATUS: the first that applies in the list of R56; `special` is a status its KIND's chapter names (R479). -/
def Job.finalStatus (j : Job) (late : Bool) : Nat :=
  if j.fStopped then stMissed
  else if j.fAddress then stAddress
  else if j.fIntegrity then stIntegrity
  else if j.fClock then stClock
  else if j.fAborted then stAborted
  else match j.special with
    | some v => v
    | none =>
      if late then stMissed
      else if j.fPartial then stPartial
      else if j.fFlagged then stFlagged
      else stDone

/-- Adds the stretch of `dt` ticks from `t` to a list of host stalls. -/
def addStall (t dt : Nat) : List (Nat × Nat) → List (Nat × Nat)
  | [] => [(t, t + dt)]
  | x :: r => if x.2 = t then (x.1, t + dt) :: r else (t, t + dt) :: x :: r

/-- Host stall time since instant `t` (R67). -/
def Job.stallSince (j : Job) (t : Nat) : Nat := sumL (j.stalls.map (fun x => x.2 - max x.1 t))

/-- Host stall time since the anchor (R67). -/
def Job.stallFin (j : Job) : Nat := match j.anchor with | some a => j.stallSince a | none => 0

/-- LATE: the final record is issued later than anchor plus bound plus the host's stall time (R51, R67). -/
def Job.late (j : Job) (now : Nat) : Bool :=
  j.admitted && (match j.anchor with
    | some a => decide (a + j.bound * tickUs + j.stallFin < now)
    | none => false)

/-- Whether records can be written to ring `m` now: it is enabled, has a free slot, and the link that carries its
records grants posted-write credit (R67). -/
def State.cqOpen (s : State) (m : Nat) : Bool :=
  let r := s.cq m
  r.enable && s.host.credit && decide (0 < ringFree r.tail r.head (ringSize r.sizeLog2 4 16))

/-- Signals ring `m`'s vector and resets both counts (R72). -/
def State.signalCq (s : State) (m : Nat) : State :=
  let r := s.cq m
  (s.setCq m { r with since := 0, oldest := none }).signal r.vector

/-- Frees a job's table entry and channels, and with a general entry lets blocked rings be fetched again (R46, R337). -/
def State.dropJob (s : State) (j : Job) : State :=
  s.onHost (fun h =>
    { h with
      jobs := h.jobs.filter (fun x => x.jid ≠ j.jid)
      chans := h.chans.filter (fun c => c.2.jid ≠ j.jid)
      sqs := if j.abortEntry then h.sqs else h.sqs.map (fun r => (r.1, { r.2 with blocked := false })) })

/-- The four 64-bit words of a completion record (R51). -/
def recWords (j : Job) (r : Rec) (phase status : Nat) (stall late : Bool) (stamp : Nat) : Nat × Nat × Nat × Nat :=
  (phase * 2 ^ 63 + b2n r.final * 2 ^ 62 + b2n stall * 2 ^ 61 + b2n late * 2 ^ 60 + j.kind * 2 ^ 48 + j.tag * 2 ^ 32 +
      status * 2 ^ 24 + (if r.final then min j.residue (2 ^ 24 - 1) else 0),
    j.sq * 2 ^ 58 + (if r.final then min j.delivered (2 ^ 48 - 1) else 0),
    r.detail % 2 ^ 32 * 2 ^ 32 + min r.boundUs (2 ^ 32 - 1),
    stamp)

/-- Issues a record on ring `m` (R51, R52, R56, R72): bytes 8 to 31, then bytes 0 to 7; a late final record is counted;
the final record ends the job. -/
def State.issueRec (s : State) (m : Nat) (r : Rec) : State :=
  match s.job? r.jid with
  | none => s
  | some j =>
    let q := s.cq m
    let size := ringSize q.sizeLog2 4 16
    let late := r.final && j.late s.phys
    let stall := if r.final then decide (0 < j.stallFin) else decide (0 < j.stallSince j.pickup)
    let status := if r.final && j.admitted then j.finalStatus late else r.status
    let w := recWords j r (ringPhase q.tail size) status stall late s.stamp
    let slot := q.base + 32 * (q.tail % size)
    let s := s.emit (.hostWrite (slot + 8) (leBytes 8 w.2.1 ++ leBytes 8 w.2.2.1 ++ leBytes 8 w.2.2.2))
    let s := s.emit (.hostWrite slot (leBytes 8 w.1))
    let s := s.setCq m { q with
      tail := (q.tail + 1) % 2 ^ 32
      since := q.since + 1
      oldest := some (q.oldest.getD s.phys) }
    let s := if late then
        (s.count F.HOST_DEADLINE_MISS_CNT_COUNT).ledgerAdd ctrMiss
      else s
    let s := if r.final then s.dropJob j else s
    let irq := r.irq || (if r.final then j.hdr 0 0 = 1 else j.hdr 1 1 = 1)
    if irq || (q.coalCount ≠ 0 && decide (q.coalCount ≤ q.since + 1)) then s.signalCq m else s

/-- Hands a record to its job's ring: written, or held behind the records already held (R55, R67). -/
def State.putRec (s : State) (r : Rec) : State :=
  match s.job? r.jid with
  | none => s
  | some j =>
    let q := s.cq j.cq
    if s.cqOpen j.cq && q.held.isEmpty then s.issueRec j.cq r
    else s.setCq j.cq { q with
      held := q.held ++ [r]
      fullStall := q.fullStall || (q.enable && decide (ringFree q.tail q.head (ringSize q.sizeLog2 4 16) = 0)) }

/-- A job's final record; an aborted job that held mover channels signals its ring at once (R348). -/
def Job.finalRec (j : Job) : Rec := ⟨j.jid, true, stDone, j.detail, j.bound, j.fAborted && !j.demand.movers.isEmpty⟩

/-- An ABORT whose targets have all had their final records hands over its own (R70). -/
def State.abortReady (s : State) : Option Job :=
  s.host.jobs.find? (fun j => j.ending && !j.finalSent && !j.waits.isEmpty && j.waits.all (fun w => (s.job? w).isNone))

/-- Hands over the final records of at most `n` ABORT jobs that wait for nothing more (R70). -/
def State.abortsDone (s : State) : Nat → State
  | 0 => s
  | n + 1 =>
    match s.abortReady with
    | none => s
    | some j => ((s.updJob j.jid (fun j => { j with finalSent := true })).putRec j.finalRec).abortsDone n

/-- Hands over a record, and after a final record those that waited for it (R70). -/
def State.sendRec (s : State) (r : Rec) : State :=
  let s := s.putRec r
  if r.final then s.abortsDone s.host.jobs.length else s

/-- Writes held records of ring `m`, oldest first, while it is open; at most `n` of them. -/
def State.pumpCq (s : State) (m : Nat) : Nat → State
  | 0 => s
  | n + 1 =>
    match (s.cq m).held with
    | [] => s
    | r :: rs =>
      if s.cqOpen m then ((s.setCq m { s.cq m with held := rs }).issueRec m r).pumpCq m n else s

/-- Writes what ring `m`'s hold can release now, and the final records that waited for those (R67, R70). -/
def State.pumpRing (s : State) (m : Nat) : State :=
  let s := s.pumpCq m (s.cq m).held.length
  s.abortsDone s.host.jobs.length

/-- Writes what every ring's hold can release now. -/
def State.pumpAll (s : State) : State :=
  let s := s.host.cqs.foldl (fun s c => s.pumpCq c.1 c.2.held.length) s
  s.abortsDone s.host.jobs.length

/-- Writes a job's final record if its work is complete, none of its channels is ACTIVE (R337) and the secondary link
has been flushed (R33); the flush's zero-length read is issued here. -/
def State.tryFinal (s : State) (jid : Nat) : State :=
  match s.job? jid with
  | none => s
  | some j =>
    if !j.ending || j.finalSent || j.zeroRead then s
    else if (s.chansOf jid).any (fun c => (s.chan c).st = .active) then s
    else if j.waits.any (fun w => (s.job? w).isSome) then s
    else if j.secondary then (s.updJob jid (fun j => { j with zeroRead := true })).emit .zeroRead
    else
      (s.updJob jid (fun j => { j with finalSent := true })).sendRec j.finalRec

/-- Declares a job's work complete: `f` sets its last fields, and its final record follows (R55). A job whose anchor has
not passed is anchored now unless it was cut short. -/
def State.endJob (s : State) (jid : Nat) (f : Job → Job) : State :=
  (s.updJob jid (fun j => if j.ending then j else { (f j) with ending := true, elems := [] })).tryFinal jid

/-- Sets a job's anchor to the present, once (R65). -/
def State.anchorNow (s : State) (jid : Nat) : State :=
  s.updJob jid (fun j => { j with anchor := some (j.anchor.getD s.phys) })

/-- The records of a descriptor that is not admitted (R54): the admission record and at once the final record. -/
def State.refuse (s : State) (jid status account shortfall : Nat) : State :=
  let d := account * 2 ^ 24 + min shortfall (2 ^ 24 - 1)
  let s := s.updJob jid (fun j => { j with decided := true, ending := true, finalSent := true })
  let s :=
    if status = stBandwidth then s.count F.HOST_REFUSE_BW_CNT_COUNT
    else if status = stSpace then s.count F.HOST_REFUSE_SPACE_CNT_COUNT
    else if status = stPower then s.count F.HOST_REFUSE_POWER_CNT_COUNT
    else if status = stState then s.count F.HOST_REFUSE_STATE_CNT_COUNT
    else if status = stConflict then s.count F.HOST_REFUSE_CONFLICT_CNT_COUNT
    else if status = stDescriptor ∨ status = stAddress then s.count F.HOST_DESC_ERR_CNT_COUNT
    else s
  (s.sendRec ⟨jid, false, status, d, 0, false⟩).sendRec ⟨jid, true, status, d, 0, false⟩

/-- Counts host stall time of `dt` ticks for every job whose ring or link is stopped by the host (R67). -/
def State.stallTick (s : State) (dt : Nat) : State :=
  s.onHost (fun h => { h with jobs := h.jobs.map (fun j =>
    if s.cqOpen j.cq then j else { j with stalls := addStall s.phys dt j.stalls }) })

end Sys2Proof.Machine
end

