-- ==== Sys2Proof/Machine/Accounts.lean ====
section
/-! DEFINITION. Machine/Accounts.lean: the accounts of R58, the power floor of R457, the Glare bucket, and the admission
procedure of R63. Bandwidths are in 10 MB/s, power in 0.1 W, bucket energy in 0.1 W ticks. -/
namespace Sys2Proof.Machine

/-- The effective ENABLE, RATE and PAIR of a channel: those of an accepted commit, or the active ones (R457). -/
def State.cfgOf (s : State) (n : Nat) : Nat × Nat × Nat :=
  match (kget s.prism.chs n {}).cfgPend with
  | some c => (c.enable, c.rate, c.pair)
  | none => (s.ract F.PRISM_CHn_CTRL_ENABLE n, s.ract F.PRISM_CHn_CTRL_RATE n, s.ract F.PRISM_CHn_CTRL_PAIR n)

/-- A chiplet's floor power by RATE, in 1/1280 W (R77). -/
def chipletPower (rate : Nat) : Nat := [11520, 6912, 4480, 3200, 2432, 2048, 1792].getD rate 0

/-- Prism and Lantern floor power of the pair of inputs `2 * k`, `2 * k + 1`, in 1/1280 W, for their configurations
(R77, R78, R457). -/
def sidePower (even odd : Nat × Nat × Nat) : Nat :=
  let one (c : Nat × Nat × Nat) : Nat := if c.1 = 0 then 384 else chipletPower c.2.1 + 50 * (128 / 2 ^ c.2.1)
  if even.1 ≠ 0 ∧ even.2.2 ≠ 0 then 26880 + 12800 else one even + one odd

/-- The standing floor in 0.1 W for given channel configurations and a number of playing Beacon outputs (R457). -/
def floorPower (c0 c1 c2 c3 : Nat × Nat × Nat) (playing : Nat) : Nat :=
  ceilDiv (96896 + sidePower c0 c1 + sidePower c2 c3 + 2240 * playing) 128

/-- The standing floor in force (R457). -/
def State.floor (s : State) : Nat :=
  floorPower (s.cfgOf 0) (s.cfgOf 1) (s.cfgOf 2) (s.cfgOf 3)
    (s.ract F.BEACON_Bb_CTRL_PLAY 0 + s.ract F.BEACON_Bb_CTRL_PLAY 1)

/-- The admitted jobs. -/
def State.admittedJobs (s : State) : List Job := s.host.jobs.filter (·.admitted)

/-- Power reserved by jobs. -/
def State.jobPower (s : State) : Nat := sumL (s.admittedJobs.map (·.demand.power))

/-- P_res (R60). -/
def State.pres (s : State) : Nat := s.floor + s.jobPower

/-- What is reserved in an account, over admitted jobs and kept reservations. -/
def State.used (s : State) (f : Demand → Nat) : Nat :=
  sumL (s.admittedJobs.map (fun j => f j.demand)) + sumL (s.host.kept.map (fun k => f k.2))

/-- Every claim held by an admitted job, with the job. -/
def State.claims (s : State) : List (Nat × Claim) :=
  (s.admittedJobs.map (fun j => j.demand.claims.map (fun c => (j.jid, c)))).flatten

/-- Whether an admitted job holds claim `c`. -/
def State.claimed (s : State) (c : Claim) : Bool := s.claims.any (fun x => x.2 = c)

/-- The use an analogue input is owned for, if any (R23). -/
def State.inputUse (s : State) (n : Nat) : Option Use :=
  s.claims.findSome? (fun x => match x.2 with | .input m u => if m = n then some u else none | _ => none)

/-- Mover time reserved on mover `m`. -/
def State.moverUsed (s : State) (m : Nat) : Nat :=
  sumL (s.admittedJobs.map (fun j => sumL ((j.demand.movers.filter (fun x => x.1 / 8 = m)).map (·.2))))

/-- The lowest free channel of mover `m`. -/
def State.freeChan (s : State) (m : Nat) : Option Nat :=
  ((List.range 8).map (· + 8 * m)).find? (fun c => (s.chan c).st = .free)

/-- The channel that admission takes on a side (R336): the least reserved mover with a free channel, lowest number first. -/
def State.pickChan (s : State) (side : Nat) : Option Nat :=
  let ms := (((List.range 4).map (· + 4 * side)).filter (fun m => (s.freeChan m).isSome))
  let best := ms.foldl (fun (b : Option Nat) m =>
    match b with
    | none => some m
    | some x => if s.moverUsed m < s.moverUsed x then some m else some x) none
  best.bind s.freeChan

/-- Bifurcated into two links (R33). -/
def State.bifurcated (s : State) : Bool := s.flag F.HOST_LINK_BIFURCATED

/-- A limit of 0 means the capacity (R74, HOST_ADM_POLICY). -/
def limited (cap lim : Nat) : Nat := if lim = 0 then cap else min cap lim

/-- Reservable device-to-host capacity of a link (R35, R58). -/
def State.d2hCap (s : State) (sec : Bool) : Nat :=
  limited (s.rd (if sec then F.HOST_D2H_CAP_CAP_SEC else F.HOST_D2H_CAP_CAP)) (s.rd F.HOST_ADM_POLICY_D2H_LIMIT)

/-- Reservable host-to-device capacity of a link (R35, R58). -/
def State.h2dCap (s : State) (sec : Bool) : Nat :=
  limited (s.rd (if sec then F.HOST_H2D_CAP_CAP_SEC else F.HOST_H2D_CAP_CAP)) (s.rd F.HOST_ADM_POLICY_H2D_LIMIT)

/-- What a descriptor asks of admission, as its KIND's chapter computes it from the payload and the state (R58, R63).
The demand, the mover charges, the work time and the checks of single accounts may depend on the granted shares. -/
structure Plan where
  malformed : Bool := false
  badAddr : Bool := false
  stateOk : Bool := true
  conflict : Bool := false
  /-- Declared host-link shares: none where the direction is not used, 0 for a grant under R59. -/
  d2h : Option Nat := none
  h2d : Option Nat := none
  /-- The part of the host bytes that side B moves (R36). -/
  fracB : Q := ⟨0, 1⟩
  demand : Nat → Nat → Demand := fun _ _ => {}
  /-- Sides whose data moves, each with its mover charge and its reserved mover rate (R336, R339). -/
  movers : Nat → Nat → List (Nat × Nat × Nat) := fun _ _ => []
  /-- Account checks of the KIND's own: account code and shortfall. -/
  specials : Nat → Nat → List (Nat × Nat) := fun _ _ => []
  /-- W in µs (R64). -/
  work : Nat → Nat → Q := fun _ _ => ⟨0, 1⟩
  /-- S: bytes moved after the anchor, and whether toward the host (R64). -/
  bytes : Nat := 0
  toHost : Bool := true
  /-- D in ticks; none is infinite. -/
  dur : Nat → Nat → Option Nat := fun _ _ => some 0
  /-- D is `dur` plus the bound. -/
  durIsBound : Bool := false

/-- The outcome of the admission arithmetic. -/
inductive Verdict where
  | refused (status account shortfall : Nat)
  | granted (d : Demand) (d2h h2d bound : Nat) (dur : Option Nat) (chans : List (Nat × Nat))

/-- One link's part of a share: in bifurcation the secondary link carries side B's part (R36). -/
def sharePart (bf sec : Bool) (fracB : Q) (share : Nat) : Nat :=
  if !bf then (if sec then 0 else share)
  else if sec then ceilDiv (share * fracB.num) fracB.den
  else ceilDiv (share * (fracB.den - fracB.num)) fracB.den

/-- Whether a link carries part of a job's transfers (R36). -/
def linkUsed (bf sec : Bool) (fracB : Q) : Bool :=
  if !bf then !sec else if sec then decide (0 < fracB.num) else decide (fracB.num < fracB.den)

/-- The grant on each link for a declared share (R59): the share itself, or with a share of 0 the free capacity, at most
16 GB/s, of each link used. The third component is a shortfall where less than 1 GB/s is free. -/
def grantShare (bf : Bool) (fracB : Q) (req : Option Nat) (freePri freeSec : Nat) : Nat × Nat × Option Nat :=
  match req with
  | none => (0, 0, none)
  | some 0 =>
    let p := if linkUsed bf false fracB then min freePri 1600 else 0
    let q := if linkUsed bf true fracB then min freeSec 1600 else 0
    let short := if linkUsed bf false fracB && decide (freePri < 100) then some (100 - freePri)
      else if linkUsed bf true fracB && decide (freeSec < 100) then some (100 - freeSec) else none
    (p, q, short)
  | some r => (sharePart bf false fracB r, sharePart bf true fracB r, none)

/-- Inserts a projected end in rising order. -/
def insertEnd (x : Nat × Nat) : List (Nat × Nat) → List (Nat × Nat)
  | [] => [x]
  | y :: ys => if x.1 ≤ y.1 then x :: y :: ys else y :: insertEnd x ys

/-- The Glare bucket's capacity, 1,500 J (R60). -/
def bucketCap : Nat := 15000 * tickS

/-- The lowest level of the projected bucket up to the last finite end (R61): `ends` lists the ends in rising order, each
with the power that ends there. -/
def bucketMin (t : Nat) (p : Nat) (level low : Int) : List (Nat × Nat) → Int
  | [] => low
  | (e, w) :: r =>
    let l := level + (2150 - (p : Int)) * ((e - t : Nat) : Int)
    let l := if (bucketCap : Int) < l then (bucketCap : Int) else l
    bucketMin (max t e) (p - w) l (if l < low then l else low) r

/-- The projected end of an admitted job: admission time plus D plus its bound (R61). -/
def Job.projEnd (j : Job) : Option Nat := j.dur.map (fun d => j.admitAt + d + j.bound * tickUs)

/-- The power ceiling (R58). -/
def State.ceiling (s : State) : Nat := if s.flag F.HOST_CTRL_GLARE_EN then 2480 else 2150

/-- How far P_res with `power` more would lie above its value at the onset of the thermal warning, while that lasts; a
job of no power does not raise P_res (R62). -/
def State.thermShort (s : State) (power : Nat) : Option Nat :=
  match s.host.thermLimit with
  | some l => if 0 < power ∧ l < s.pres + power then some (s.pres + power - l) else none
  | none => none

/-- The power test of R61: the account that fails and its shortfall. -/
def State.powerTest (s : State) (power : Nat) (dur : Option Nat) (bound : Nat) : Option (Nat × Nat) :=
  let p := s.pres + power
  if s.ceiling < p then some (0x0C, p - s.ceiling) else
  match s.thermShort power with
  | some x => some (0x0C, x)
  | none =>
  let jobs := s.admittedJobs.map (fun j => (j.projEnd, j.demand.power))
  let all := (dur.map (fun d => s.phys + d + bound * tickUs), power) :: jobs
  let ends := all.foldl (fun l x => match x.1 with
    | some e => insertEnd (max e s.phys, x.2) l
    | none => l) []
  let openLevel := s.floor + sumL (all.filterMap (fun x => if x.1.isNone then some x.2 else none))
  if 2150 < openLevel then some (0x0D, 0xFFFFFF) else
  let m := bucketMin s.phys p s.host.bucket s.host.bucket ends
  if m < 0 then some (0x0D, ceilDiv (-m).toNat tickS) else none

/-- B in µs (R64): W + S / R + M + H, rounded up; `r` is the share in 10 MB/s. -/
def boundUs (w : Q) (bytes r : Nat) : Nat :=
  let t := (w.add ⟨1200, 100⟩)
  if bytes = 0 then t.ceil else ((t.add ⟨1792, 100⟩).add ⟨bytes, 10 * max r 1⟩).ceil

/-- Whether account `a` of capacity `cap` cannot carry the demand, and its shortfall (R63). -/
def State.beyond (s : State) (d : Demand) (a cap : Nat) (f : Demand → Nat) : Option (Nat × Nat) :=
  if cap < s.used f + f d then some (a, s.used f + f d - cap) else none

/-- The first account among 0x03 to 0x0B that cannot carry the demand (R58, R63). `short9`, `shortA` and `moverShort` are
the shortfalls found while the shares and channels were chosen (R59, R336). -/
def State.accountTest (s : State) (d : Demand) (specials : List (Nat × Nat)) (short9 shortA moverShort : Option Nat) :
    Option (Nat × Nat) :=
  let spec (a : Nat) : Option (Nat × Nat) := specials.find? (fun x => x.1 = a)
  [s.beyond d 3 24512 (·.store0), s.beyond d 3 24576 (·.store1), spec 3, spec 4,
   s.beyond d 5 81920 (·.hbm0), spec 5, s.beyond d 6 81920 (·.hbm1), spec 6,
   s.beyond d 7 46080 (·.xab), s.beyond d 8 46080 (·.xba),
   short9.map (fun x => (9, x)), s.beyond d 9 (s.d2hCap false) (·.d2h), s.beyond d 9 (s.d2hCap true) (·.d2hSec), spec 9,
   shortA.map (fun x => (10, x)), s.beyond d 10 (s.h2dCap false) (·.h2d), s.beyond d 10 (s.h2dCap true) (·.h2dSec), spec 10,
   moverShort.map (fun x => (11, x)), spec 11].findSome? id

/-- The refusal status of an account (R58). -/
def statusOf (a : Nat) : Nat :=
  if a ≤ 1 then stState else if a = 2 then stConflict else if a ≤ 4 then stSpace
  else if a = 0x0C ∨ a = 0x0D then stPower else stBandwidth

/-- Channels for the sides whose data moves, or the shortfall of account 0x0B (R336). -/
def State.pickChans (s : State) : List (Nat × Nat × Nat) → List (Nat × Nat) × Option Nat
  | [] => ([], none)
  | (side, charge, rate) :: r =>
    match s.pickChan side with
    | none => ([], some charge)
    | some c =>
      let u := s.moverUsed (c / 8) + charge
      if 9216 < u then ([], some (u - 9216))
      else
        let rest := s.pickChans r
        ((c, rate) :: rest.1, rest.2)

/-- Whether the job's host wishes a deadline class that bound `b` exceeds, and by how much (R63). -/
def deadlineShort (cls b : Nat) : Option Nat :=
  if cls ≠ 0 ∧ 2 ^ (cls - 1) < b then some (b - 2 ^ (cls - 1)) else none

/-- The header rules of R48: reserved bits, DEADLINE_CLASS, and a TAG already in the job table for the ring. The KIND
itself is judged where its descriptor is decided. -/
def State.headerBad (s : State) (j : Job) : Bool :=
  j.hdr 62 56 ≠ 0 || j.hdr 7 3 ≠ 0 || decide (32 < j.hdr 31 24) ||
    s.host.jobs.any (fun x => x.sq = j.sq && x.tag = j.tag && decide (x.jid < j.jid))

/-- The admission arithmetic of R63 on a plan. -/
def State.judge (s : State) (j : Job) (p : Plan) : Verdict :=
  if s.headerBad j || p.malformed then .refused stDescriptor 0 0
  else if p.badAddr then .refused stAddress 0 0
  else if !s.flag F.GLOBAL_STATUS_READY || !p.stateOk then .refused stState 1 0
  else if p.conflict then .refused stConflict 2 0
  else
    let bf := s.bifurcated
    let free (cap : Nat) (f : Demand → Nat) : Nat := cap - s.used f
    let gd := grantShare bf p.fracB p.d2h (free (s.d2hCap false) (·.d2h)) (free (s.d2hCap true) (·.d2hSec))
    let gh := grantShare bf p.fracB p.h2d (free (s.h2dCap false) (·.h2d)) (free (s.h2dCap true) (·.h2dSec))
    let rd := match p.d2h with | some 0 => gd.1 + gd.2.1 | some r => r | none => 0
    let rh := match p.h2d with | some 0 => gh.1 + gh.2.1 | some r => r | none => 0
    let mv := s.pickChans (p.movers rd rh)
    let d := { p.demand rd rh with d2h := gd.1, d2hSec := gd.2.1, h2d := gh.1, h2dSec := gh.2.1 }
    let d := { d with movers := (mv.1.zip (p.movers rd rh)).map (fun x => (x.1.1, x.2.2.1)) }
    match s.accountTest d (p.specials rd rh) gd.2.2 gh.2.2 mv.2 with
    | some (a, x) => .refused (statusOf a) a x
    | none =>
      let b := boundUs (p.work rd rh) p.bytes (if p.toHost then rd else rh)
      let dur := if p.durIsBound then (p.dur rd rh).map (· + b * tickUs) else p.dur rd rh
      match s.powerTest d.power dur b with
      | some (a, x) => .refused stPower a x
      | none =>
        match deadlineShort (j.hdr 31 24) b with
        | some x => .refused stBandwidth 0x0E x
        | none => .granted d rd rh b dur mv.1

/-- Carries out a verdict: the two records of a refusal (R54), or the reservation, the channels and the admission record
(R53, R63). The second component says whether the job was admitted. -/
def State.carryOut (s : State) (jid : Nat) : Verdict → State × Bool
  | .refused st a x => (s.refuse jid st a x, false)
  | .granted d rd rh b dur chans =>
    let s := s.updJob jid (fun j => { j with
      decided := true, admitted := true, admitAt := s.phys, demand := d
      grantD2h := rd, grantH2d := rh, bound := b, dur := dur })
    let s := chans.foldl (fun s c => s.setChan c.1
      { st := .held, jid := jid, rate := c.2, credit := 262144 * 6553600, creditAt := s.phys }) s
    (s.sendRec ⟨jid, false, 0, rd % 2 ^ 16 * 2 ^ 16 + rh % 2 ^ 16, b, false⟩, true)

/-- The descriptor that admission decides next (R57): an ABORT before all others, then the highest PRIORITY, then the
first picked up; none while a handover freezes admission (R435). -/
def State.nextDecision (s : State) : Option Job :=
  if s.host.frozen then none else
  let w := s.host.jobs.filter (fun j => !j.decided)
  match w.find? (fun j => j.kind = 0x7F) with
  | some j => some j
  | none => w.foldl (fun (b : Option Job) j => match b with
      | none => some j
      | some x => if x.hdr 23 16 < j.hdr 23 16 then some j else some x) none

/-- The decision of the next descriptor if its KIND is `kind`: admission on the plan `plan`, and `start` on the job where
it is admitted. Any other descriptor waits for its own decision. -/
def State.admission (s : State) (kind : Nat) (plan : Job → Plan) (start : State → Job → State) : State :=
  match s.nextDecision with
  | none => s
  | some j =>
    if j.kind ≠ kind then s else
    let r := s.carryOut j.jid (s.judge j (plan j))
    if r.2 then
      match r.1.job? j.jid with
      | some k => start r.1 k
      | none => r.1
    else r.1

/-- The share of stack bandwidth as power, rounded up with the rest of a job's power: 9.0 W times charge over 819.2 GB/s
per stack, 0.5 W times charge over 92.16 GB/s per mover, in 0.1 W as a fraction (R458). -/
def hbmPower (units : Nat) : Q := ⟨90 * units, 81920⟩

/-- Mover power (R458). -/
def moverPower (units : Nat) : Q := ⟨5 * units, 9216⟩

end Sys2Proof.Machine
end

