-- ==== Sys2Proof/Machine/Time.lean ====
section
/-! DEFINITION. Machine/Time.lean: the passing of time. Commands take no time of their own. Time passes on a step with an
empty queue, by one SCLK cycle, and where a command is an event whose instant the rules fix: the clock then first runs
to that instant (DESIGN CHOICE, assumption 1). -/
namespace Sys2Proof.Machine

/-- The Glare bucket after `dt` ticks at the present P_res (R60). -/
def State.bucketAfter (s : State) (dt : Nat) : Nat :=
  min bucketCap (((s.host.bucket : Int) + (2150 - (s.pres : Int)) * (dt : Int)).toNat)

/-- `dt` ticks pass: the bucket changes (R60), host stalls are counted (R67), and device time advances if it runs; at a
wrap of the stamp the EPOCH_WRAP event is written (R7). -/
def State.elapse (s : State) (dt : Nat) : State :=
  let b := s.bucketAfter dt
  let s := s.stallTick dt
  let s := { s with phys := s.phys + dt, host := { s.host with bucket := b } }
  if s.running then
    let e := s.devTime / 2 ^ 64
    let s := { s with devTime := s.devTime + dt }
    if s.devTime / 2 ^ 64 ≠ e then s.raise 0 0x3408 0 s.epoch 0 else s
  else s

/-- Runs the clock to device time `t`, or to the first SCLK cycle after it (R27), if it is behind. -/
def State.toDev (s : State) (t : Nat) : State :=
  if s.running ∧ s.devTime < t then s.elapse (roundUp (t - s.devTime) cycle) else s

/-- Runs the elapsed-time clock to `t` if it is behind. -/
def State.toPhys (s : State) (t : Nat) : State := if s.phys < t then s.elapse (t - s.phys) else s

end Sys2Proof.Machine
end

