-- ==== Sys2Proof/Machine/MoverOps.lean ====
section
/-! DEFINITION. Machine/MoverOps.lean: elements, credits and the states of a channel ("Data movers", R335-R350), as every
KIND that moves data uses them. -/
namespace Sys2Proof.Machine

/-- The largest element and the credit cap, 256 KiB (R338, R339). -/
def elemMax : Nat := 262144

/-- Credit units of one byte: a rate of 10 MB/s adds one unit each tick (R339). -/
def creditUnit : Nat := 6553600

/-- A channel's credit at present, in credit units (R339). -/
def State.creditOf (s : State) (c : Nat) : Int :=
  let x := s.chan c
  min (elemMax * creditUnit : Nat) (x.credit + (x.rate * (s.phys - x.creditAt) : Nat))

/-- An element's length. -/
def Elem.len : Elem → Nat
  | .toHost _ d => d.length
  | .fromHost _ n => n
  | .move _ _ _ n => n
  | .produced _ n => n
  | .frame _ d _ => d.length
  | .seg _ n _ _ _ => n

/-- Whether a job's source is a producer: a MOVE from a stream, or an internal producer (R346). -/
def Job.fromStream (j : Job) : Bool := j.kind = 0x40 && j.bits 8 1 1 0 = 2

/-- Whether an element's source is a producer (R346). -/
def Job.elemProduced (j : Job) : Elem → Bool
  | .produced _ _ => true
  | .move _ _ _ _ => j.fromStream
  | _ => false

/-- The count of an element that is not yet READY (R339, R346). -/
def Job.elemCount (j : Job) (e : Elem) : Nat := if j.elemProduced e then min e.len j.produced.length else e.len

/-- Whether an element may become READY, before the credit test (R346). -/
def Job.elemOpen (j : Job) (e : Elem) : Bool :=
  if j.elemProduced e then
    decide (0 < j.produced.length) && (decide (e.len ≤ j.produced.length) || j.prodClosed || j.prodFlush)
  else true

/-- The next element of channel `c`'s job on that channel. -/
def State.nextElem (s : State) (c : Nat) : Option (Job × Elem) :=
  (s.job? (s.chan c).jid).bind (fun j => (j.elems.find? (fun e => e.1 = c)).map (fun e => (j, e.2)))

/-- Removes the first element of channel `c` from a list. -/
def dropFirst (c : Nat) : List (Nat × Elem) → List (Nat × Elem)
  | [] => []
  | e :: es => if e.1 = c then es else e :: dropFirst c es

/-- The channel's element becomes READY: its count is fixed (R339, R346). -/
def State.markReady (s : State) (c : Nat) (j : Job) (e : Elem) : State :=
  (s.setChan c { s.chan c with st := .ready, count := j.elemCount e, readyAt := s.phys, cur := some e }).updJob j.jid
    (fun k => { k with elems := dropFirst c k.elems })

/-- Makes the channel's next element READY if it is open and its credit covers it now (R337, R339). -/
def State.tryReady (s : State) (c : Nat) : State :=
  if (s.chan c).st ≠ .held then s else
  match s.nextElem c with
  | none => s
  | some (j, e) =>
    if j.elemOpen e && decide (((j.elemCount e * creditUnit : Nat) : Int) ≤ s.creditOf c) then s.markReady c j e else s

/-- Whether nothing of a job's transfer is left: no element waits, is READY or is ACTIVE. -/
def State.moved (s : State) (j : Job) : Bool := j.elems.isEmpty && (s.chansOf j.jid).all (fun c => (s.chan c).cur.isNone)

/-- Ends a job whose work is complete when its last element has ended. -/
def State.settle (s : State) (jid : Nat) : State :=
  match s.job? jid with
  | some j => if j.autoEnd && s.moved j then s.endJob jid id else s
  | none => s

/-- The channel a job holds on side `b` (0 or 1). -/
def State.chanOn (s : State) (jid side : Nat) : Nat := ((s.chansOf jid).find? (fun c => c / 32 = side)).getD 0

/-- Appends elements to a job on channel `c`, and readies the first if it can start. -/
def State.queueElems (s : State) (jid c : Nat) (es : List Elem) : State :=
  (s.updJob jid (fun j => { j with elems := j.elems ++ es.map (fun e => (c, e)) })).tryReady c

/-- A run of bytes to host memory at `addr`, cut into elements (R338). -/
def cutOut : Nat → Nat → Bytes → List Elem
  | 0, _, _ => []
  | n + 1, addr, d =>
    if d.isEmpty then [] else .toHost addr (d.take elemMax) :: cutOut n (addr + elemMax) (d.drop elemMax)

/-- The elements that write `d` to host memory at `addr`. -/
def outElems (addr : Nat) (d : Bytes) : List Elem := cutOut (d.length / elemMax + 1) addr d

/-- `len` bytes of host memory at `addr`, cut into elements (R338). -/
def cutIn : Nat → Nat → Nat → List Elem
  | 0, _, _ => []
  | n + 1, addr, len =>
    if len = 0 then [] else .fromHost addr (min len elemMax) :: cutIn n (addr + elemMax) (len - elemMax)

/-- The elements that read `len` bytes of host memory at `addr`. -/
def inElems (addr len : Nat) : List Elem := cutIn (len / elemMax + 1) addr len

/-- Bytes join a job's producer (R346). -/
def State.produce (s : State) (jid : Nat) (d : Bytes) : State :=
  let s := s.updJob jid (fun j => if d.isEmpty then j else
    { j with produced := j.produced ++ d, prodAt := s.phys, prodFlush := false })
  (s.chansOf jid).foldl State.tryReady s

/-- A closed producer that holds nothing ends its job at the next element, which is not run (R347); the list has then not run
out (R356). -/
def State.dryEnd (s : State) (jid : Nat) : State :=
  let s := s.updJob jid (fun j => if j.prodClosed && j.produced.isEmpty && !j.elems.isEmpty then
    { j with elems := [], fPartial := true } else j)
  s.settle jid

/-- A job's producer closes (R347), which is the anchor of a MOVE that follows it (R65). -/
def State.closeProducer (s : State) (jid : Nat) : State :=
  let s := (s.updJob jid (fun j => { j with prodClosed := true })).anchorNow jid
  ((s.chansOf jid).foldl State.tryReady s).dryEnd jid

/-- MOVER_CTRL.FLUSH in ticks (R357). -/
def State.flushTicks (s : State) : Nat := max (s.rd F.MOVER_CTRL_FLUSH) 1 * tickUs

/-- The next READY channel of mover `m`, in cyclic order after the one served last (R338). -/
def State.nextReady (s : State) (m : Nat) : Option Nat :=
  let cur := s.rd F.MOVER_Mm_STAT_CUR m
  ((List.range 8).map (fun i => 8 * m + (cur + 1 + i) % 8)).find? (fun c => (s.chan c).st = .ready)

/-- The ACTIVE channel of mover `m`. -/
def State.activeChan (s : State) (m : Nat) : Option Nat :=
  ((List.range 8).map (· + 8 * m)).find? (fun c => (s.chan c).st = .active)

/-- The host read that an element's start issues: its source range where that is host memory (R343). -/
def State.sourceRead (s : State) (j : Job) : Elem → State
  | .fromHost a n => s.emit (.hostRead a n)
  | .move _ src _ n => if j.bits 8 1 1 0 = 0 then s.emit (.hostRead src n) else s
  | _ => s

/-- Starts channel `c`'s element (R337, R338): WAIT_MAX is in 0.01 µs. -/
def State.grant (s : State) (c : Nat) : State :=
  let x := s.chan c
  let m := c / 8
  let s := s.setChan c { x with st := .active }
  let s := (s.wr F.MOVER_Mm_STAT_CUR (c % 8) m).maxTo F.MOVER_Mm_WAIT_MAX_WAIT ((s.phys - x.readyAt) / 655360) m
  match s.job? x.jid, x.cur with
  | some j, some e => s.sourceRead j e
  | _, _ => s

/-- Ends channel `c`'s element: the credit falls by `moved` bytes, and the channel waits for its next one (R337, R339). -/
def State.freeElem (s : State) (c moved : Nat) : State :=
  let x := s.chan c
  (s.setChan c { x with
    st := .held, cur := none, credit := s.creditOf c - (moved * creditUnit : Nat), creditAt := s.phys }).count
      F.MOVER_Mm_ELEM_CNT_COUNT 1 (c / 8)

/-- Counts bytes that a job wrote to or read from host memory, and notes whether a mover of side B moved them over the
secondary link (R33, R51). -/
def State.delivered (s : State) (jid c n : Nat) : State :=
  s.updJob jid (fun j => { j with
    delivered := j.delivered + n, secondary := j.secondary || (s.bifurcated && decide (32 ≤ c)) })

end Sys2Proof.Machine
end

