-- ==== Sys2Proof/Machine/AgOps.lean ====
section
/-! DEFINITION. Machine/AgOps.lean: how Afterglow counts a window ("Afterglow accumulation", R171-R181). -/
namespace Sys2Proof.Machine

/-- Afterglow of input `n`. -/
def State.ag (s : State) (n : Nat) : AgCh := kget s.record.ag n {}

/-- Replaces Afterglow of input `n`. -/
def State.setAg (s : State) (n : Nat) (x : AgCh) : State :=
  { s with record := { s.record with ag := kset s.record.ag n x {} } }

/-- HIST_EN, SUM_EN, ENV_EN and MASK_EN in force (R172). -/
def State.agOn (s : State) (n : Nat) (f : Fld) : Bool := s.ract f n = 1

/-- Whether any function of Afterglow is enabled on input `n` (R172). -/
def State.agAny (s : State) (n : Nat) : Bool :=
  s.agOn n F.AFTERGLOW_CHn_CTRL_HIST_EN || s.agOn n F.AFTERGLOW_CHn_CTRL_SUM_EN ||
    s.agOn n F.AFTERGLOW_CHn_CTRL_ENV_EN || s.agOn n F.AFTERGLOW_CHn_CTRL_MASK_EN

/-- HSHIFT, at most 20 (R173). -/
def State.hshift (s : State) (n : Nat) : Nat := min (s.ract F.AFTERGLOW_CHn_CTRL_HSHIFT n) 20

/-- Whether a word's status is excluded (R174). -/
def State.excluded (s : State) (n status : Nat) : Bool :=
  status = 3 || (status = 1 && s.ract F.AFTERGLOW_CHn_CTRL_EXCL01 n = 1) ||
    (status = 2 && s.ract F.AFTERGLOW_CHn_CTRL_EXCL10 n = 1)

/-- The histogram position of a sample at offset `o`: column × 1,024 + row, or none beyond the last column (R173). -/
def binOf (hshift o : Nat) (code : Int) : Option Nat :=
  let c := o / 2 ^ hshift
  if c < 4096 then some (c * 1024 + (code + 512).toNat) else none

/-- The samples of a word that lie in a window, each with its offset (R171, R173): the window's nominal start is PRE
samples before its trigger sample. -/
def winSamples (pre : Nat) (w : Win) (g : Nat) (x : SWord) : List (Nat × Int) :=
  match w.trig, w.stop with
  | some tr, some stop =>
    ((List.range 64).zip x.smps).filterMap (fun p =>
      let i := 64 * g + p.1
      if w.start ≤ i ∧ i < stop then some (i + pre - tr, p.2.v) else none)
  | _, _ => []

/-- One increment of a counter, which stays at its largest value; the second part counts a first saturation (R175). -/
def histInc (p : KMap Nat × Nat) (b : Nat) : KMap Nat × Nat :=
  let v := kget p.1 b 0
  if v = 0xFFFFFFFF then p else (kput p.1 b (v + 1), if v = 0xFFFFFFFE then p.2 + 1 else p.2)

/-- A window's samples in one word join the histogram, or the word is left uncounted (R173, R174). A window whose mark
lies before the last clear point is not counted (R183). -/
def State.agWord (s : State) (n pre : Nat) (w : Win) (g : Nat) (x : SWord) : State :=
  if !s.agAny n then s
  else if s.excluded n x.status then s.count F.AFTERGLOW_CHn_EXCL_CNT_COUNT 1 n
  else if !s.agOn n F.AFTERGLOW_CHn_CTRL_HIST_EN || decide (w.mark.stamp < (s.ag n).histT) then s
  else
    let a := s.ag n
    let h := s.hshift n
    let r := (winSamples pre w g x).foldl (fun p q => match binOf h q.1 q.2 with
      | some b => histInc p b
      | none => p) (a.hist, 0)
    let s := s.setAg n { a with hist := r.1 }
    if r.2 = 0 then s else (s.count F.AFTERGLOW_CHn_SAT_CNT_COUNT r.2 n).setf F.AFTERGLOW_CHn_STAT_SAT n

/-- Whether the mask marks a bin (R180). -/
def maskBit (m : KMap Byte) (b : Nat) : Bool := bit (kget m (b / 8) (0 : Byte)).toNat (b % 8)

/-- An event whose severity the spec does not state: the severity is a free value of 0 to 2. -/
def State.raiseFree (s : State) (code src d0 d1 : Nat) : State :=
  let f := s.fresh
  f.2.raise (Config.freeNat f.1 % 3) code src d0 d1

/-- A window of `words` closes: it is counted as accumulated, and tested against the mask (R173, R174, R180). -/
def State.agClose (s : State) (n pre : Nat) (w : Win) (words : List StW) : State :=
  if !s.agAny n then s else
  let h := s.hshift n
  let s := s.count F.AFTERGLOW_CHn_WINDOWS_CNT_COUNT 1 n
  let wide := match w.trig, w.stop with
    | some tr, some stop => decide (4096 ≤ (stop - 1 + pre - tr) / 2 ^ h)
    | _, _ => false
  let s := if wide then s.count F.AFTERGLOW_CHn_WIDE_CNT_COUNT 1 n else s
  let a := s.ag n
  if !s.agOn n F.AFTERGLOW_CHn_CTRL_MASK_EN || decide (w.mark.stamp < a.maskT) then s else
  let s := s.wr F.AFTERGLOW_CHn_MASK_TESTED_CNT_COUNT
    (min (s.rd F.AFTERGLOW_CHn_MASK_TESTED_CNT_COUNT n + 1) 0xFFFFFFFF) n
  let hit := words.findSome? (fun x => if s.excluded n x.w.status then none else
    (winSamples pre w x.g x.w).findSome? (fun q => match binOf h q.1 q.2 with
      | some b => if maskBit a.mask b then some b else none
      | none => none))
  match hit with
  | none => s
  | some b =>
    let s := s.wr F.AFTERGLOW_CHn_MASK_FAIL_CNT_COUNT
      (min (s.rd F.AFTERGLOW_CHn_MASK_FAIL_CNT_COUNT n + 1) 0xFFFFFFFF) n
    let s := s.setf F.AFTERGLOW_CHn_STAT_MASK_FAIL n
    let s := if a.firstFail then s else
      let s := s.wr64 F.AFTERGLOW_CHn_MASK_FIRST_LO_STAMP F.AFTERGLOW_CHn_MASK_FIRST_HI_STAMP (w.mark.stamp % 2 ^ 64) n
      let s := (s.wr F.AFTERGLOW_CHn_MASK_FIRST_NUM_NUMBER w.mark.number n).wr F.AFTERGLOW_CHn_MASK_FIRST_BIN_COLUMN (b / 1024) n
      (s.wr F.AFTERGLOW_CHn_MASK_FIRST_BIN_ROW (b % 1024) n).setAg n { s.ag n with firstFail := true }
    s.raiseFree 0x0C01 n (w.mark.stamp % 2 ^ 64) 0

/-- A column, or an area (0xFFFF_FFFF), is poisoned (R181). -/
def State.agPoison (s : State) (n col : Nat) : State :=
  let s := if col = 0xFFFFFFFF then s else s.setAg n { s.ag n with poison := if (s.ag n).poison.contains col then (s.ag n).poison else (s.ag n).poison ++ [col] }
  ((s.count F.AFTERGLOW_CHn_POISON_CNT_COUNT 1 n).setf F.AFTERGLOW_CHn_STAT_POISON n).raiseFree 0x0C02 n col 0

end Sys2Proof.Machine
end

