-- ==== Sys2Proof/Machine/Crc.lean ====
section
/-! DEFINITION. Machine/Crc.lean: the CRC-4 of a PACK10 word (R159) and the CRC-16 of a burst (R373). -/
namespace Sys2Proof.Machine

/-- One bit into the CRC-4 register: polynomial x^4 + x + 1 (R159). -/
def crc4Bit (c : Nat) (b : Bool) : Nat :=
  let f := bit c 3 != b
  (2 * c % 16) ^^^ (if f then 3 else 0)

/-- The CRC-4 of the low `n` bits of a number, the highest first. -/
def crc4From (w : Nat) : Nat → Nat → Nat
  | 0, c => c
  | n + 1, c => crc4From w n (crc4Bit c (bit w n))

/-- The CRC-4 of a PACK10 word: over bits 59 to 0, bit 59 first (R159). -/
def crc4 (w : Nat) : Nat := crc4From w 60 0

/-- Whether a PACK10 word's nibble matches (R159). -/
def nibbleOk (w : Nat) : Bool := bits w 63 60 = crc4 w

/-- Six 10-bit codes as a PACK10 word with its CRC-4 (R159); `w` starts as 0. -/
def packBits : List Nat → Nat
  | [] => 0
  | k :: ks => k % 1024 + 1024 * packBits ks

/-- A PACK10 word of up to six codes. -/
def pack10 (ks : List Nat) : Nat := let w := packBits (ks.take 6); w + 2 ^ 60 * crc4 w

/-- One byte into the CRC-16 register, the most significant bit first: polynomial x^16 + x^12 + x^5 + 1 (R373). -/
def crc16Byte (c : Nat) (b : Nat) : Nat :=
  (List.range 8).foldl (fun c i =>
    let f := bit c 15 != bit b (7 - i)
    (2 * c % 65536) ^^^ (if f then 0x1021 else 0)) c

/-- The CRC-16 of a burst: 64 data bytes, then A >> 6 as 32 bits, little-endian; initial value 0xFFFF (R373). -/
def crc16 (data : Bytes) (addr : Nat) : Nat :=
  (data ++ leBytes 4 (addr / 64)).foldl (fun c b => crc16Byte c b.toNat) 0xFFFF

end Sys2Proof.Machine
end

