-- ==== Sys2Proof/Machine/Decimate.lean ====
section
/-! DEFINITION. Machine/Decimate.lean: the decimator between Prism and Penumbra (R154-R158), and PRE_MAX (R133). -/
namespace Sys2Proof.Machine

/-- M of a hi-res factor: N / 2 (R156). -/
def cicM (n : Nat) : Nat := n / 2

/-- The binomial coefficient C(n + 3, 3). -/
def choose3 (n : Nat) : Nat := (n + 1) * (n + 2) * (n + 3) / 6

/-- Coefficient `k` of the order-4 CIC filter of decimation `m`, before normalisation (R156). -/
def cicCoef (m k : Nat) : Int :=
  let t (j : Nat) (c : Int) : Int := if j * m ≤ k then c * (choose3 (k - j * m) : Nat) else 0
  if 4 * m - 4 < k then 0 else t 0 1 + t 1 (-4) + t 2 6 + t 3 (-4) + t 4 1

/-- Coefficient `k` of the CIC filter followed by the 3-tap filter (-1, 18, -1), on input samples (R156). -/
def hiresCoef (m k : Nat) : Int :=
  let c (j : Nat) : Int := if j ≤ k then cicCoef m (k - j) else 0
  18 * c m - c 0 - c (2 * m)

/-- A fraction rounded half up; `d` is positive. -/
def roundHalfUp (n d : Int) : Int := (2 * n + d) / (2 * d)

/-- BITS of a HIRES_BITS field (R163). -/
def hiresBits (b : Nat) : Nat := [12, 14, 16].getD b 16

/-- The clip code among samples, of the latest one clipped; `xs` is newest first (R156). -/
def latestClip (xs : List Int) : Option Int := xs.find? (fun x => x == -512 || x == 511)

/-- A rounded value as S16: clamped and shifted, or the clip value (R156, R157). -/
def toS16 (bits : Nat) (clip : Option Int) (y : Int) : Int :=
  match clip with
  | some c => if c < 0 then -32768 else 32767
  | none =>
    let lim : Int := (2 ^ (bits - 1) : Nat)
    clampI (1 - lim) (lim - 2) y * (2 ^ (16 - bits) : Nat)

/-- Input samples that a hi-res output spans: 6M - 3, which is 2G + 1 (R156). -/
def hiresSpan (n : Nat) : Nat := 6 * cicM n - 3

/-- Input samples whose history a mode needs. -/
def DecSt.need (d : DecSt) : Nat := match d.mode with | 3 => max d.factor (hiresSpan d.factor) | _ => d.factor

/-- Input samples during which output is suppressed after a start or a SYNC (R158). -/
def DecSt.settle (d : DecSt) : Nat :=
  match d.mode with
  | 3 => if d.factor = 2 then 3 else 7 * cicM d.factor
  | 4 => d.factor
  | _ => 0

/-- The stored samples of the interval that has just ended; `h` is the history, newest first (R154-R157). -/
def DecSt.output (d : DecSt) (h : List (Smp × Nat)) : List (Smp × Nat) :=
  let n := d.factor
  let iv := h.take n
  match iv.getLast? with
  | none => []
  | some x0 =>
    let st (l : List (Smp × Nat)) : Nat := maxL (l.map (·.2))
    match d.mode with
    | 1 => [x0]
    | 2 =>
      let lo := iv.foldl (fun (a : Int) x => if x.1.v < a then x.1.v else a) x0.1.v
      let hi := iv.foldl (fun (a : Int) x => if a < x.1.v then x.1.v else a) x0.1.v
      [({ x0.1 with v := lo }, st iv), ({ x0.1 with v := hi }, st iv)]
    | 3 =>
      let m := cicM n
      let span := h.take (hiresSpan n)
      let xs := span.map (·.1.v)
      let acc := (xs.zip ((List.range (hiresSpan n)).map (hiresCoef m))).foldl (fun (a : Int) p => a + p.1 * p.2) 0
      let b := hiresBits d.bits
      let y := roundHalfUp (acc * (2 ^ (b - 10) : Nat)) (16 * (m ^ 4 : Nat))
      let t := (span[3 * m - 2]?.map (·.1.t)).getD x0.1.t
      [({ x0.1 with v := toS16 b (latestClip xs) y, t := t }, st span)]
    | _ =>
      let xs := iv.map (·.1.v)
      let sum := xs.foldl (· + ·) (0 : Int)
      [({ x0.1 with v := toS16 16 (latestClip xs) (roundHalfUp (sum * 64) (n : Nat)) }, st iv)]

/-- One input sample into a decimator; samples that it stores join the word being assembled. -/
def DecSt.sample (d : DecSt) (x : Smp × Nat) : DecSt :=
  let d := match d.syncAt with
    | some t => if t ≤ x.1.t then
        { d with taken := 0, hist := [], syncAt := none, part := if d.settle = 0 then d.part else [] } else d
    | none => d
  let d := { d with hist := (x :: d.hist).take d.need, taken := d.taken + 1 }
  if d.taken % d.factor = 0 ∧ d.settle < d.taken then { d with part := d.part ++ d.output d.hist } else d

/-- Whole words of 64 stored samples that have been assembled, oldest first, and the decimator that goes on. -/
def DecSt.flush : Nat → DecSt → List SWord → DecSt × List SWord
  | 0, d, ws => (d, ws)
  | n + 1, d, ws =>
    if d.part.length < 64 then (d, ws) else
    let w := d.part.take 64
    DecSt.flush n { d with part := d.part.drop 64 } (ws ++ [{ status := maxL (w.map (·.2)), smps := w.map (·.1) }])

/-- The samples of a sample word, with their times. -/
def PWord.samples (w : PWord) : List Smp :=
  (w.codes.zip (List.range w.codes.length)).map
    (fun p => { v := p.1, t := w.t + p.2 * (w.span / 64), cfg := (w.range, w.fine, w.offset) })

/-- A sample word into a decimator: the words it emits (R154). Without decimation a word passes whole. -/
def DecSt.word (d : DecSt) (w : PWord) : DecSt × List SWord :=
  if d.mode = 0 then ({ d with syncAt := none }, [{ status := w.status, smps := w.samples }])
  else
    let d := w.samples.foldl (fun d x => d.sample (x, w.status)) d
    d.flush 3 []

/-- Whether DEC_MODE, DEC_FACTOR and HIRES_BITS are valid (R154, R163). -/
def decOk (mode factor bits : Nat) : Bool :=
  match mode with
  | 0 => factor = 1 && bits = 0
  | 1 | 2 => decide (2 ≤ factor ∧ factor ≤ 65536) && bits = 0
  | 3 => decide (bits ≤ 2) && (List.range 24).any (fun k => factor = 2 ^ (k + 1))
  | 4 => bits = 0 && (List.range 24).any (fun k => factor = 2 ^ (k + 1))
  | _ => false

/-- Whether a mode stores S16 (R154). -/
def isS16 (mode : Nat) : Bool := decide (3 ≤ mode)

/-- Stored samples of `t` ticks at an input spacing of `sp` ticks, as a fraction (R133). -/
def storedIn (mode factor sp t : Nat) : Q := ⟨(if mode = 2 then 2 else 1) * t, factor * sp⟩

/-- G in ticks (R156); 0 in other modes. -/
def delayG (mode factor sp : Nat) : Nat := if mode = 3 then (3 * cicM factor - 2) * sp else 0

/-- D_pen: the Penumbra depth (R132). -/
def penDepth (pair : Bool) : Nat := if pair then 2097152 else 1048576

/-- PRE_MAX (R133). -/
def preMax (pair : Bool) (mode factor sp : Nat) : Nat :=
  let s := storedIn mode factor sp (2080 * tickNs + delayG mode factor sp)
  penDepth pair - 64 * ceilDiv s.num (64 * s.den)

end Sys2Proof.Machine
end

