-- ==== Sys2Proof/Machine/AmuOps.lean ====
section
/-! DEFINITION. Machine/AmuOps.lean: conversions, results and the injected slot of the AMU, and the loops' outputs
("Auxiliary measurement unit and process loops"). -/
namespace Sys2Proof.Machine

/-- Applies `f` to the AMU. -/
def State.onAmu (s : State) (f : AmuSt → AmuSt) : State := { s with amu := f s.amu }

/-! ### Entries (R403, R404, R411, R419) -/

/-- The oversampling ratio in force (R403). -/
def AmuEntry.ratio (e : AmuEntry) : Nat := if e.rej then 102400 else e.osr

/-- T_out in ticks: OSR modulator samples at 1.024 MHz (R403). -/
def AmuEntry.tOut (e : AmuEntry) : Nat := e.ratio * 64000000

/-- The settle count K (R404). -/
def AmuEntry.settle (e : AmuEntry) : Nat := e.order + 3 + b2n e.fir

/-- The length of a visit in ticks (R411). -/
def AmuEntry.visit (e : AmuEntry) : Nat :=
  if e.isrcMode = 3 then e.dwell * 2 * e.settle * e.tOut else (e.settle + e.dwell - 1) * e.tOut

/-- Reads an entry's 32 bytes (R419). -/
def amuEntry (b : Bytes) : AmuEntry :=
  { input := bitsAt b 0 1 3 0, intSel := bitsAt b 0 1 5 4, gain := bitsAt b 1 1 2 0, mode := bitsAt b 1 1 5 4
    order := bitsAt b 2 1 1 0, fir := bitsAt b 2 1 2 2 = 1, rej := bitsAt b 2 1 3 3 = 1, curve := fieldAt b 3 1
    osr := fieldAt b 4 4, refIn := bitsAt b 8 1 3 0, exc := bitsAt b 9 1 3 0, isrc := fieldAt b 10 2
    isrcMode := bitsAt b 12 1 1 0, ow := bitsAt b 13 1 1 0, dwell := fieldAt b 14 1, rRef := fieldAt b 16 4 }

/-- The curve agrees with the mode (R408). -/
def curveOk (curve mode : Nat) : Bool :=
  curve = 0 || (decide (1 ≤ curve ∧ curve ≤ 8) && mode = 0) || ((curve = 16 || curve = 17) && mode = 2)

/-- A positive binary32 (R419). -/
def posF32 (v : Nat) : Bool := match val32 v with | some (n, _) => decide (0 < n) | none => false

/-- The entry breaks R416 (`inj`) or R419. -/
def amuEntryBad (inj : Bool) (b : Bytes) : Bool :=
  let e := amuEntry b
  let reserved := bitsAt b 0 1 7 6 ≠ 0 || bitsAt b 1 1 3 3 ≠ 0 || bitsAt b 1 1 7 6 ≠ 0 || bitsAt b 2 1 7 4 ≠ 0 ||
    bitsAt b 8 1 7 4 ≠ 0 || bitsAt b 9 1 7 4 ≠ 0 || bitsAt b 12 1 7 2 ≠ 0 || bitsAt b 13 1 7 2 ≠ 0 ||
    fieldAt b 15 1 ≠ 0 || fieldAt b 20 12 ≠ 0
  let input := decide (8 < e.input) || decide (2 < e.intSel) || (e.input ≠ 8 && e.intSel ≠ 0) ||
    (e.input = 8 && e.mode ≠ 0)
  let refs := if e.mode = 0 then e.refIn ≠ 0 else decide (7 < e.refIn) || e.refIn = e.input
  let src := if e.isrcMode = 0 then e.isrc ≠ 0 else decide (e.isrc < 10) || decide (1000 < e.isrc) || e.isrc % 10 ≠ 0
  let filt := if inj then e.order ≠ 0 || e.fir || e.rej || e.osr ≠ 0 || e.dwell ≠ 1 || decide (2 ≤ e.isrcMode)
    else e.order = 3 || decide (e.osr < 32) || decide (204800 < e.osr) || e.dwell = 0
  reserved || input || e.mode = 3 || !curveOk e.curve e.mode || refs || src || filt || (e.mode = 2 && !posF32 e.rRef)

/-! ### Conversions (R402, R407, R408) -/

/-- The mean of two ratios (R403, R406). -/
def Ratio.mean (a b : Ratio) : Ratio := ⟨a.num * b.den + b.num * a.den, 2 * a.den * b.den⟩

/-- A filter output as a ratio: the internal reference is 2.5 V (R401). -/
def ratioOf (e : AmuEntry) (v : Int) (vref : Nat) : Ratio := ⟨v, if e.mode = 0 then 2500000000 else vref⟩

/-- What a conversion gives. -/
structure AmuRes where
  code : Int
  value : Nat
  ovr : Bool
  ow : Bool
  refLow : Bool
  range : Bool
deriving DecidableEq, Repr

/-- VALUE before linearisation (R402), rounded once to binary32. -/
def amuValue (e : AmuEntry) (q : Int) : Nat :=
  let d := 2 ^ (23 + e.gain)
  if e.mode = 0 then toBin32 (5 * q) (2 * d)
  else if e.mode = 1 then toBin32 q d
  else
    let c : Int := if e.isrcMode = 2 ∨ e.isrcMode = 3 then 2 else 1
    match val32 e.rRef with
    | some (n, m) => toBin32 (q * n * c) (d * m)
    | none => nan32

/-- A conversion's code, value and flags (R402, R407, R408). The standards' reference functions are not in the spec: a
linearised value, and whether it is in range, are free. -/
def amuConvert (e : AmuEntry) (x : Ratio) (refLow : Bool) (cjc : Nat) : AmuRes :=
  let n := x.num * (2 ^ e.gain : Nat)
  let tooBig := decide (x.den ≤ n.natAbs)
  let q : Int := if tooBig then (if n < 0 then -8388608 else 8388607)
    else clampI (-8388608) 8388607 (roundAway (n * 8388608) x.den)
  let clip := q == -8388608 || q == 8388607
  let args := [unsg 24 q, e.gain, e.rRef, e.isrcMode, cjc]
  let range := e.curve ≠ 0 && !refLow && Config.arith (200 + e.curve) args % 2 = 1
  let value := if refLow || range then nan32
    else if e.curve ≠ 0 then Config.arith (100 + e.curve) args % 2 ^ 32
    else amuValue e q
  { code := q, value := value, ovr := tooBig && e.ow = 0, ow := clip && e.ow ≠ 0, refLow := refLow, range := range }

/-! ### Result blocks (R413) -/

/-- A field of result block `n`: AMU_RESULTn, or AMU_INJ_RES as block 16. -/
def resFld (n : Nat) (a b : Fld) : Fld := if n < 16 then a else b

/-- Posts a result to block `n`: the live record, the flags, SEQ and NEW. -/
def State.postAmu (s : State) (n : Nat) (r : AmuRes) (settled brk : Bool) : State :=
  let w (s : State) (a b : Fld) (v : Nat) : State := s.wr (resFld n a b) v n
  let seq := s.rd (resFld n F.AMU_RESULTn_HDR_SEQ F.AMU_INJ_RES_HDR_SEQ) n
  let s := s.onAmu (fun a => { a with live := kset a.live n { value := r.value, time := s.stamp } {} })
  let s := w s F.AMU_RESULTn_HDR_SEQ F.AMU_INJ_RES_HDR_SEQ (if seq = 0xFFFF then 1 else seq + 1)
  let s := w s F.AMU_RESULTn_HDR_NEW F.AMU_INJ_RES_HDR_NEW 1
  let s := w s F.AMU_RESULTn_HDR_SETTLED F.AMU_INJ_RES_HDR_SETTLED (b2n settled)
  let s := w s F.AMU_RESULTn_HDR_OVR F.AMU_INJ_RES_HDR_OVR (b2n r.ovr)
  let s := w s F.AMU_RESULTn_HDR_OPEN_WIRE F.AMU_INJ_RES_HDR_OPEN_WIRE (b2n r.ow)
  let s := w s F.AMU_RESULTn_HDR_REF_LOW F.AMU_INJ_RES_HDR_REF_LOW (b2n r.refLow)
  let s := w s F.AMU_RESULTn_HDR_RANGE F.AMU_INJ_RES_HDR_RANGE (b2n r.range)
  let s := w s F.AMU_RESULTn_HDR_BREAK F.AMU_INJ_RES_HDR_BREAK (b2n brk)
  let s := if r.ovr then (s.setf F.AMU_STAT_OVR).count F.AMU_OVR_CNT_COUNT else s
  let s := if r.ow then (s.setf F.AMU_STAT_OW).count F.AMU_OW_CNT_COUNT else s
  if settled then s else s.count F.AMU_UNSETTLED_CNT_COUNT

/-- A result record (R414). -/
def amuRecord (s : State) (j : Job) (rseq entry seq : Nat) (r : AmuRes) (settled brk : Bool) : Bytes :=
  leBytes 8 rseq ++ leBytes 8 s.stamp ++ leBytes 4 r.value ++ leBytes 3 (unsg 24 r.code) ++ leBytes 1 entry ++
    leBytes 2 seq ++ leBytes 1 (b2n brk * 32 + b2n r.range * 16 + b2n r.refLow * 8 + b2n r.ow * 4 + b2n r.ovr * 2 +
    b2n settled) ++ leBytes 1 j.sq ++ leBytes 2 j.tag ++ zeros 2

/-! ### The injected slot (R415) -/

/-- AMU_STAT shows the slot. -/
def State.showSlot (s : State) : State :=
  let s := (s.wr F.AMU_STAT_INJ_BUSY (b2n s.amu.slot.isSome)).wr F.AMU_STAT_INJ_WAITING (b2n s.amu.waitHost.isSome)
  s.wr F.AMU_STAT_CAL_SLOT (b2n (match s.amu.slot with | some i => i.cal | none => false))

/-- The calibration source's conversion: internal channel 0, sinc4 at 1 kHz (R415). -/
def calEntry : AmuEntry := { input := 8, order := 1, osr := 1024 }

/-- An injected conversion's time K × T_out in ticks (R415). -/
def AmuInj.time (i : AmuInj) : Nat := i.entry.settle * i.entry.tOut

/-- A host conversion's entry with the filter of AMU_INJ_CFG (R415). -/
def State.injEntry (s : State) (e : AmuEntry) : AmuEntry :=
  { e with
    order := s.ract F.AMU_INJ_CFG_ORDER, fir := s.ract F.AMU_INJ_CFG_FIR = 1, rej := s.ract F.AMU_INJ_CFG_REJ5060 = 1
    osr := s.ract F.AMU_INJ_CFG_OSR }

/-- The next conversion takes a free slot (R415): a calibration-source conversion goes ahead of the waiting host
conversion, but only once. -/
def State.fillSlot (s : State) : State :=
  if s.amu.slot.isSome then s else
  match s.amu.waitCal, s.amu.waitHost with
  | c :: cs, h =>
    if h.isSome && s.amu.jumped then
      (s.onAmu (fun a => { a with slot := h, waitHost := none, jumped := false })).showSlot
    else (s.onAmu (fun a => { a with slot := some c, waitCal := cs, jumped := h.isSome })).showSlot
  | [], some h => (s.onAmu (fun a => { a with slot := some h, waitHost := none, jumped := false })).showSlot
  | [], none => s.showSlot

/-- CALIBRATE asks for a calibration-source conversion (R99, R415). -/
def State.calRequest (s : State) (jid : Nat) : State :=
  (s.onAmu (fun a => { a with waitCal := a.waitCal ++ [{ jid := jid, cal := true, entry := calEntry }] })).fillSlot

/-- The visit in progress is discarded, and its entry's visit is to begin again (R412, R422). -/
def AmuSeq.discard (q : AmuSeq) : AmuSeq :=
  { q with outs := 0, prev := none, swapped := false, half := none, unsettled := 0, posted := 0, broken := true }

/-- A discarded visit begins again from its beginning, once neither a conversion, which starts as soon as it holds the slot, nor
XIN stands in its way (R412, R415, R422). -/
def State.resumeVisit (s : State) : State :=
  if s.amu.slot.isSome || s.flag F.AMU_STAT_XIN_HOLD then s else
  s.onAmu (fun a => { a with seq := a.seq.map (fun q =>
    if q.broken then { q with broken := false, clearAt := s.phys } else q) })

/-- The final DETAIL of AMU_SEQUENCE (R421). -/
def AmuSeq.detail (q : AmuSeq) : Nat :=
  b2n q.anyBreak * 2 ^ 29 + b2n q.anyUnsettled * 2 ^ 28 + b2n q.anyRange * 2 ^ 27 + b2n q.anyRef * 2 ^ 26 +
    b2n q.anyOw * 2 ^ 25 + b2n q.anyOvr * 2 ^ 24 + min q.settled 0xFFFFFF

/-- Whether DATA_FLAGGED applies to AMU_SEQUENCE (R421). -/
def AmuSeq.flagged (q : AmuSeq) : Bool :=
  q.anyBreak || q.anyUnsettled || q.anyRange || q.anyRef || q.anyOw || q.anyOvr

/-- The sequence leaves the AMU: its visit is discarded and the outputs turn off; `f` sets the job's last fields. -/
def State.endSeq (s : State) (f : Job → Job) : State :=
  match s.amu.seq with
  | none => s
  | some q =>
    let s := (s.onAmu (fun a => { a with seq := none, outputsOff := true })).wr F.AMU_STAT_SEQ_RUNNING 0
    let s := (s.wr F.AMU_SEQ_JOB_SQ 0).wr F.AMU_SEQ_JOB_TAG 0
    s.updJob q.jid (fun j => { (f j) with detail := q.detail, fFlagged := q.flagged })

/-- Removes the injected conversions of a job, running or waiting (R417); a preempted visit restarts. -/
def State.dropInj (s : State) (jid : Nat) : State :=
  let keep (i : AmuInj) : Bool := i.jid ≠ jid
  let s := s.onAmu (fun a => { a with
    slot := a.slot.filter keep, waitHost := a.waitHost.filter keep, waitCal := a.waitCal.filter keep })
  (s.fillSlot).resumeVisit

/-! ### XIN (R422) -/

/-- XIN becomes absent: the AMU clock stops. A conversion or visit in progress is discarded; a sequence without
AUTO_RESUME and a running host conversion end CLOCK_FAULT, and the calibration source's is converted anew. -/
def State.amuStop (s : State) : State :=
  let s := s.setf F.AMU_STAT_XIN_HOLD
  let s := match s.amu.seq with
    | none => s
    | some q =>
      if (s.job? q.jid).any Job.autoResume then
        s.onAmu (fun a => { a with seq := some { q.discard with broken := q.visit.isSome, brk := q.brk || q.visit.isSome } })
      else (s.endSeq id).endJob q.jid (fun j => { j with fClock := true })
  match s.amu.slot with
  | none => s
  | some i =>
    if i.started.isNone then s
    else if i.cal then s.onAmu (fun a => { a with slot := some { i with started := none } })
    else ((s.onAmu (fun a => { a with slot := none })).fillSlot).endJob i.jid (fun j => { j with fClock := true })

/-- XIN is present again: the interrupted visit restarts. -/
def State.amuStart (s : State) : State := (s.wr F.AMU_STAT_XIN_HOLD 0).resumeVisit

/-! ### Loops (R423, R424) -/

/-- Loop `k`. -/
def State.loopDrv (s : State) (k : Nat) : LoopDrv := kget s.amu.loops k {}

/-- Replaces loop `k`. -/
def State.setLoop (s : State) (k : Nat) (x : LoopDrv) : State :=
  s.onAmu (fun a => { a with loops := kset a.loops k x {} })

/-- A loop drives its fault level (R424). -/
def State.loopFault (s : State) (k : Nat) : Bool :=
  s.flag F.LOOPk_CTRL_FORCE k || (s.loopDrv k).struck || s.flag F.LOOPk_STAT_WDOG k

/-- The current that a loop is commanded to, in µA (R423, R424). -/
def State.loopUa (s : State) (k : Nat) : Nat :=
  if s.loopFault k then (if s.flag F.LOOPk_CTRL_FAULT_HIGH k then 21000 else 3600) else s.rd F.LOOPk_SET_UA k

/-- The name of a loop's drive ball. -/
def loopPin (k : Nat) : String := if k = 0 then "LOOP0_DRV" else "LOOP1_DRV"

/-- A loop's status and drive follow its settings; with ENABLE = 0 the pass transistor is off. -/
def State.loopShow (s : State) (k : Nat) : State :=
  let on := s.flag F.LOOPk_CTRL_ENABLE k
  let s := (s.wr F.LOOPk_STAT_ACTIVE (b2n on) k).wr F.LOOPk_STAT_AT_FAULT (b2n (on && s.loopFault k)) k
  s.emit (.pin (loopPin k) (if on then (s.loopUa k : Int) else 0))

/-- A supply warning or thermal emergency: the AMU's outputs turn off and the loops go to their fault level (R422). -/
def State.amuStrike (s : State) : State :=
  let s := s.onAmu (fun a => { a with outputsOff := true })
  [0, 1].foldl (fun s k => (s.setLoop k { s.loopDrv k with struck := true }).loopShow k) s

end Sys2Proof.Machine
end

