-- ==== Sys2Proof/Machine/Lantern.lean ====
section
/-! DEFINITION. Machine/Lantern.lean: conditions, sequences, holdoff and marks ("Lantern trigger engine").
Stage one turns words, edges and line events into events of the conditions; a word waits for its successor, since a
crossing's reconstruction uses seven later samples (R114). Stage two takes the events in device-time order (R118). -/
namespace Sys2Proof.Machine

/-- The sources of R107. -/
inductive Src where
  | ain (n : Nat) | tl (i : Nat) | mk (i : Nat) | trig (i : Nat) | gin (n : Nat) | bad
deriving DecidableEq, Repr

/-- The source that a SRC value selects (R107). -/
def srcOf (v : Nat) : Src :=
  if v < 4 then .ain v
  else if 0x40 ≤ v ∧ v ≤ 0x47 then .tl (v - 0x40)
  else if 0x50 ≤ v ∧ v ≤ 0x53 then .mk (v - 0x50)
  else if v = 0x58 ∨ v = 0x59 then .trig (v - 0x58)
  else if 0x100 ≤ v ∧ v ≤ 0x1FF then .gin (v - 0x100)
  else .bad

/-- Where a source's comparator level stands in `LanternSt.levels`; none for sources without edges (R108). -/
def Src.level? : Src → Option Nat
  | .gin n => some n
  | .trig i => some (256 + i)
  | .mk i => some (260 + i)
  | _ => none

/-- A condition's settings. -/
structure CondCfg where
  type : Nat
  slope : Nat
  qual : Nat
  src : Nat
  levelA : Nat
  levelB : Nat
  hyst : Nat
  tmin : Nat
  tmax : Nat
deriving DecidableEq, Repr

/-- The settings of condition `c` in a set of register values. -/
def condCfg (a : Regs) (c : Nat) : CondCfg :=
  { type := a.rd F.LANTERN_CONDc_CTRL_TYPE c 0, slope := a.rd F.LANTERN_CONDc_CTRL_SLOPE c 0
    qual := a.rd F.LANTERN_CONDc_CTRL_QUAL c 0, src := a.rd F.LANTERN_CONDc_CTRL_SRC c 0
    levelA := a.rd F.LANTERN_CONDc_LEVEL_A_LEVEL c 0, levelB := a.rd F.LANTERN_CONDc_LEVEL_B_LEVEL c 0
    hyst := a.rd F.LANTERN_CONDc_HYST_HYST c 0
    tmin := a.rd F.LANTERN_CONDc_TMIN_T c 0, tmax := a.rd F.LANTERN_CONDc_TMAX_T c 0 }

/-- The conditions that unit `u` uses: its stages, and its reset condition where enabled. -/
def unitConds (a : Regs) (u : Nat) : List Nat :=
  ([a.rd F.LANTERN_UNITu_STAGES_STAGE1 u 0, a.rd F.LANTERN_UNITu_STAGES_STAGE2 u 0,
    a.rd F.LANTERN_UNITu_STAGES_STAGE3 u 0, a.rd F.LANTERN_UNITu_STAGES_STAGE4 u 0].take
      (a.rd F.LANTERN_UNITu_CTRL_N_STAGES u 0 + 1)) ++
  (if a.rd F.LANTERN_UNITu_SEQ_RESET_EN u 0 = 1 then [a.rd F.LANTERN_UNITu_SEQ_RESET_COND u 0] else [])

/-- Whether unit `u` is enabled in a set of register values. -/
def unitOn (a : Regs) (u : Nat) : Bool := a.rd F.LANTERN_UNITu_CTRL_ENABLE u 0 = 1

/-- Whether some enabled unit uses condition `c` (R130). -/
def condUsed (a : Regs) (c : Nat) : Bool :=
  (List.range 8).any (fun u => unitOn a u && (unitConds a u).contains c)

/-- Whether the condition breaks R107, R112 or R113 (R130). -/
def condBad (a : Regs) (c : Nat) : Bool :=
  let k := condCfg a c
  let src := srcOf k.src
  let side := match src with
    | .ain n => decide (n / 2 = c / 8)
    | .gin n => decide (n / 128 = c / 8)
    | .bad => false
    | _ => true
  let pairing := match src with
    | .ain _ => decide (k.type ≤ 8)
    | .gin n => [1, 3, 5, 7, 8].contains k.type || (k.type = 9 && n % 32 = 0)
    | .trig _ | .mk _ => [1, 3, 5, 7, 8].contains k.type
    | .tl _ => [1, 7, 8].contains k.type && k.slope = 1
    | .bad => false
  let slopeBad := k.slope = 0 || (k.type = 9 && k.slope ≠ 1)
  let qualBad := k.type ≠ 9 && k.qual = 3
  let levelBad := [2, 4, 6].contains k.type && decide (sgn 21 k.levelA ≤ sgn 21 k.levelB)
  let timeBad := [3, 4, 6, 8].contains k.type && [1, 2].contains k.qual && decide (k.tmax < k.tmin)
  if k.type = 0 then false else !side || !pairing || slopeBad || qualBad || levelBad || timeBad

/-- Whether the unit breaks R118 or R130: a stage of TYPE 0, HOLD_T above 10 s, a condition both stage and reset. -/
def unitBad (a : Regs) (u : Nat) : Bool :=
  let n := a.rd F.LANTERN_UNITu_CTRL_N_STAGES u 0 + 1
  let cs := unitConds a u
  let stages := cs.take n
  let hold := a.rd F.LANTERN_UNITu_HOLD_T_LO_HOLD_T u 0 + 2 ^ 32 * a.rd F.LANTERN_UNITu_HOLD_T_HI_HOLD_T u 0
  stages.any (fun c => (condCfg a c).type = 0) || decide (20000000000 < hold) ||
    (cs.drop n).any (fun c => stages.contains c)

/-- The lowest code of an offender: a condition's number, or 16 plus a unit's (R130). -/
def lanternOffender (a : Regs) : Option Nat :=
  ((List.range 16).find? (fun c => condUsed a c && condBad a c)).or
    (((List.range 8).find? (fun u => unitOn a u && unitBad a u)).map (· + 16))

/-- The BAR0 range of the LANTERN block (R30). -/
def lanLo : Nat := 0x800000
def lanHi : Nat := 0xA00000

/-- State accessors of Lantern. -/
def State.cond (s : State) (c : Nat) : CondSt := kget s.lan.conds c {}
def State.setCond (s : State) (c : Nat) (x : CondSt) : State :=
  { s with lan := { s.lan with conds := kset s.lan.conds c x {} } }
def State.unit (s : State) (u : Nat) : UnitSt := kget s.lan.units u {}
def State.setUnit (s : State) (u : Nat) (x : UnitSt) : State :=
  { s with lan := { s.lan with units := kset s.lan.units u x {} } }
def State.lanCh (s : State) (n : Nat) : LanCh := kget s.lan.chs n {}
def State.setLanCh (s : State) (n : Nat) (x : LanCh) : State :=
  { s with lan := { s.lan with chs := kset s.lan.chs n x {} } }
def State.lanLevel (s : State) (i : Nat) : Bool := kget s.lan.levels i false

/-! ### Events of one condition -/

/-- Whether a width passes QUAL (R112). -/
def CondCfg.passes (k : CondCfg) (w : Nat) : Bool :=
  let inside := decide (k.tmin * 256 ≤ w ∧ w ≤ k.tmax * 256)
  if k.qual = 0 then true else if k.qual = 1 then inside else !inside

/-- Whether SLOPE selects the rising (or positive) sense, or the falling one. -/
def CondCfg.wants (k : CondCfg) (rise : Bool) : Bool := if rise then k.slope % 2 = 1 else k.slope / 2 = 1

/-- A crossing's flags, with UNCERTAIN where the earlier crossing that contributes lies in a word with status 10 (R126). -/
def Crossing.after (x : Crossing) (p : Crossing) : Crossing :=
  { x with flags := { x.flags with uncertain := x.flags.uncertain || p.unsettled } }

/-- A crossing of LEVEL_A or LEVEL_B, a digital edge, or a line event, taken by a condition (R112): its new state and
the event that it makes. -/
def condCross (k : CondCfg) (st : CondSt) (lvlB rise : Bool) (x : Crossing) : CondSt × Option Crossing :=
  match k.type with
  | 1 => (st, if !lvlB && k.wants rise then some x else none)
  | 2 => (st, if k.wants (lvlB == rise) then some x else none)
  | 3 | 5 =>
    if lvlB then (st, none) else
    let ok (p : Crossing) : Bool := if k.type = 5 then decide (x.t - p.t < k.tmax * 256) else k.passes (x.t - p.t)
    if rise then
      let e := match st.negStart with
        | some p => if k.wants false && ok p then some (x.after p) else none
        | none => none
      ({ st with posStart := some x, negStart := none }, e)
    else
      let e := match st.posStart with
        | some p => if k.wants true && ok p then some (x.after p) else none
        | none => none
      ({ st with negStart := some x, posStart := none }, e)
  | 4 =>
    if lvlB && rise then ({ st with upB := some x, upFar := if st.upB.isNone then false else st.upFar, downFar := st.downFar }, none)
    else if lvlB then
      let e := match st.upB with
        | some p => if !st.upFar && k.wants true && k.passes (x.t - p.t) then some (x.after p) else none
        | none => none
      ({ st with upB := none, upFar := false, downFar := true }, e)
    else if rise then
      let e := match st.downA with
        | some p => if !st.downFar && k.wants false && k.passes (x.t - p.t) then some (x.after p) else none
        | none => none
      ({ st with downA := none, downFar := false, upFar := true }, e)
    else ({ st with downA := some x, downFar := if st.downA.isNone then false else st.downFar, upFar := st.upFar }, none)
  | 6 =>
    if lvlB && rise then ({ st with upB := some x }, none)
    else if lvlB then
      let e := match st.downA with
        | some p => if k.wants false && k.passes (x.t - p.t) then some (x.after p) else none
        | none => none
      ({ st with upB := none, downA := none }, e)
    else if rise then
      let e := match st.upB with
        | some p => if k.wants true && k.passes (x.t - p.t) then some (x.after p) else none
        | none => none
      ({ st with upB := none, downA := none }, e)
    else ({ st with downA := some x }, none)
  | 7 =>
    if lvlB then (st, none) else
    ({ st with due := if k.wants rise then some (x.t + k.tmax * 256) else none }, none)
  | 8 =>
    if lvlB || !k.wants rise then (st, none) else
    let e := match st.last with
      | some p => if k.passes (x.t - p.t) then some (x.after p) else none
      | none => none
    ({ st with last := some x }, e)
  | _ => (st, none)

/-- The event of a timeout that has fallen due before time `t` (R112). -/
def condTimeout (k : CondCfg) (st : CondSt) (t : Nat) : CondSt × Option Crossing :=
  match st.due with
  | some d => if k.type = 7 && decide (d < t) then ({ st with due := none }, some { t := d, flags := {} }) else (st, none)
  | none => (st, none)

/-! ### Analogue words -/

/-- The sample at index `i` relative to a held word's first sample, -64 to 127, with its word's status. -/
def sampleAt (prev : Option PWord) (w : PWord) (next : Option PWord) (i : Int) : Option (Int × Nat) :=
  if i < 0 then prev.bind (fun p => (p.codes[(i + 64).toNat]?).map (·, p.status))
  else if i < 64 then (w.codes[i.toNat]?).map (·, w.status)
  else next.bind (fun n => (n.codes[(i - 64).toNat]?).map (·, n.status))

/-- A clip code (R80). -/
def isClip (x : Int) : Bool := x == -512 || x == 511

/-- Locates the crossing of `c16` at sample `k` of the held word (R114, R115), with the flags of R123. -/
def locate (prev : Option PWord) (w : PWord) (next : Option PWord) (k : Nat) (c16 : Int) (rise : Bool) : Crossing :=
  let T := w.span / 64
  let win := (List.range 16).map (fun (j : Nat) => sampleAt prev w next ((k : Int) - 8 + (j : Int)))
  let clipped := win.any (fun x => match x with | some (v, _) => isClip v | none => false)
  let uncertain := win.any (fun x => match x with | some (_, st) => st = 2 | none => false)
  let missing := win.any (·.isNone)
  let flagged := win.any (fun x => match x with | some (v, st) => st = 1 && !isClip v | none => false)
  let code (i : Int) : Int := ((sampleAt prev w next i).map (·.1)).getD 0
  let m := if clipped || uncertain || missing then linearPlace (code ((k : Int) - 1)) (code k) c16 T
    else sincPlace (win.map (fun x => (x.map (·.1)).getD 0)) c16 rise T
  let t := w.t + k * T + m - T
  let st := if t < w.t then (prev.map (·.status)).getD w.status else w.status
  ⟨t, { uncertain, clipped, linear := missing, flagged }, st = 2⟩

/-- The crossings of one sample against a threshold, and the arming that follows (R111): (rising, falling, armR, armF). -/
def crossSample (armR armF : Bool) (c h x16 : Int) : Bool × Bool × Bool × Bool :=
  let r := armR && decide (c ≤ x16)
  let f := armF && decide (x16 ≤ c)
  (r, f, (armR && !r) || decide (x16 < c - h), (armF && !f) || decide (c + h < x16))

/-- The start of the word that contains time `t`, for words of `w`'s span (R120). -/
def wordOf (w : PWord) (t : Nat) : Nat :=
  if w.span = 0 then t
  else if w.t ≤ t then w.t + (t - w.t) / w.span * w.span
  else w.t - ceilDiv (w.t - t) w.span * w.span

/-- One condition over the samples of a held word from sample `k` on: its state and its events, oldest first. -/
def condSamples (k : CondCfg) (cnum : Nat) (prev : Option PWord) (w : PWord) (next : Option PWord) (cA cB h : Int) :
    Nat → List Int → CondSt → List LEv → CondSt × List LEv
  | _, [], st, evs => (st, evs)
  | i, x :: xs, st, evs =>
    let a := crossSample st.armRA st.armFA cA h (16 * x)
    let b := crossSample st.armRB st.armFB cB h (16 * x)
    let st := { st with armRA := a.2.2.1, armFA := a.2.2.2, armRB := b.2.2.1, armFB := b.2.2.2 }
    let one (on lvlB rise : Bool) (p : CondSt × List LEv) : CondSt × List LEv :=
      if !on then p else
      let x := locate prev w next i (if lvlB then cB else cA) rise
      let r := condTimeout k p.1 x.t
      let evs := match r.2 with
        | some e => p.2 ++ [⟨e.t, cnum, wordOf w e.t, e.flags⟩]
        | none => p.2
      let q := condCross k r.1 lvlB rise x
      (q.1, match q.2 with
        | some e => evs ++ [⟨e.t, cnum, wordOf w e.t, e.flags⟩]
        | none => evs)
    let p := one a.2.1 false false (one a.1 false true (one b.1 true true (st, evs)))
    let p := one b.2.1 true false p
    condSamples k cnum prev w next cA cB h (i + 1) xs p.1 p.2

/-- One condition over a whole held word, with the timeouts that fall due within it; unless this is the last word that the
condition judges, a crossing of the next word may still lie behind its last sample. -/
def condWord (k : CondCfg) (cnum : Nat) (prev : Option PWord) (w : PWord) (next : Option PWord) (last : Bool) (st : CondSt) :
    CondSt × List LEv :=
  let cA := levelCode (sgn 21 k.levelA) w.range w.fine w.offset
  let cB := levelCode (sgn 21 k.levelB) w.range w.fine w.offset
  let h := hystCode k.hyst w.range w.fine
  let r := condSamples k cnum prev w next cA cB h 0 w.codes st []
  let t := condTimeout k r.1 (w.t + w.span - (if last then 0 else w.span / 64))
  (t.1, match t.2 with
    | some e => r.2 ++ [⟨e.t, cnum, wordOf w e.t, e.flags⟩]
    | none => r.2)

/-! ### The time-ordered queue and the units -/

/-- The time of a queue item. -/
def LItem.time : LItem → Nat
  | .ev e => e.t
  | .apply t _ _ => t
  | .hold t => t
  | .start t => t

/-- Whether a queue item changes the units themselves; at one tick such an item comes before the events. -/
def LItem.isCtl : LItem → Bool
  | .ev _ => false
  | _ => true

/-- Inserts an item in time order: an event after, a change before, the events of its tick. -/
def insertItem (x : LItem) : List LItem → List LItem
  | [] => [x]
  | y :: ys =>
    if x.time < y.time || (x.time = y.time && x.isCtl && !y.isCtl) then x :: y :: ys else y :: insertItem x ys

/-- Puts events into the units' queue. -/
def State.pushEvents (s : State) (evs : List LEv) : State :=
  { s with lan := { s.lan with queue := evs.foldl (fun q e => insertItem (.ev e) q) s.lan.queue } }

/-- Puts a change into the units' queue. -/
def State.pushCtl (s : State) (x : LItem) : State := { s with lan := { s.lan with queue := insertItem x s.lan.queue } }

/-- A unit starts, or stops, under its settings (R119): sequence, holdoff and mark numbers begin anew; the marks queued and
the count of marks lost since the last accepted one stay (R121). -/
def State.startUnit (s : State) (u : Nat) : State :=
  let x := s.unit u
  s.setUnit u { queue := x.queue, lost := x.lost, hold := x.hold, started := unitOn s.lan.unitAct u && !x.hold }

/-- The 8 flag bits of a mark's byte 12 (R123). -/
def markFlags (k : CondCfg) (f : EvFlags) : Nat :=
  let digital := (srcOf k.src).level?.isSome
  let line := match srcOf k.src with | .tl _ => k.type = 1 || k.type = 8 | _ => false
  b2n f.flagged * 32 + b2n line * 16 + b2n digital * 8 + b2n f.linear * 4 + b2n f.clipped * 2 + b2n f.uncertain

/-- A mark that a unit accepts goes out on its trigger line, unless it follows this device's previous export there too
closely (R127). -/
def State.exportMark (s : State) (u : Nat) (m : Mark) : State :=
  if s.lan.unitAct.rd F.LANTERN_UNITu_CTRL_EXPORT_EN u 0 = 0 then s else
  let l := s.lan.unitAct.rd F.LANTERN_UNITu_CTRL_EXPORT_LINE u 0
  let last := kget s.lan.lastExport l 0
  if last ≠ 0 ∧ m.stamp < last + 524288 then s.count F.LANTERN_EXPORT_DROP_CNT_COUNT else
  ({ s with lan := { s.lan with lastExport := kset s.lan.lastExport l m.stamp 0 } }).emit (.trigLine l (m.stamp % 2 ^ 64))

/-- A unit issues a mark (R120, R121, R123): accepted into the queue with its number and the marks lost before it, or
lost to a full queue; either way holdoff and the word are taken. -/
def State.issueMark (s : State) (u : Nat) (e : LEv) (word : Nat) : State :=
  let x := s.unit u
  let x := { x with first := false, lastMark := e.t, count := 0, counting := false, markWord := some word }
  if x.queue.length < 1024 then
    let m : Mark := { stamp := e.t, number := x.number, flags := markFlags (condCfg s.lan.unitAct e.cond) e.flags
                      cond := e.cond, unit := u, lost := min x.lost 0xFFFF }
    ((s.setUnit u { x with queue := x.queue ++ [m], number := (x.number + 1) % 2 ^ 32, lost := 0 }).count
      F.LANTERN_UNITu_MARK_CNT_COUNT 1 u).exportMark u m
  else
    ((s.setUnit u { x with lost := x.lost + 1 }).count F.LANTERN_UNITu_LOST_CNT_COUNT 1 u).setf
      F.LANTERN_UNITu_STAT_LOST u

/-- HOLD_T in ticks (R119). -/
def holdTicks (a : Regs) (u : Nat) : Nat :=
  (a.rd F.LANTERN_UNITu_HOLD_T_LO_HOLD_T u 0 + 2 ^ 32 * a.rd F.LANTERN_UNITu_HOLD_T_HI_HOLD_T u 0) * cycle

/-- Holdoff's judgement of a qualifying event at time `t` (R119): eligible or not, with the counts carried on. -/
def holdoff (a : Regs) (u : Nat) (x : UnitSt) (t : Nat) : Bool × UnitSt :=
  let past := decide (x.lastMark + holdTicks a u ≤ t)
  let n := a.rd F.LANTERN_UNITu_HOLD_N_N u 0 + 1
  if x.first then (true, x) else
  match a.rd F.LANTERN_UNITu_CTRL_HOLD_MODE u 0 with
  | 0 => (true, x)
  | 1 => (past, x)
  | 2 => (decide (n ≤ x.count + 1), { x with count := x.count + 1 })
  | _ =>
    if x.counting || past then (decide (n ≤ x.count + 1), { x with count := x.count + 1, counting := true })
    else (false, x)

/-- A qualifying event of a unit (R119, R120): suppressed, coincident, or a mark. -/
def State.qualify (s : State) (u : Nat) (e : LEv) : State :=
  let a := s.lan.unitAct
  let r := holdoff a u (s.unit u) e.t
  let s := s.setUnit u r.2
  if !r.1 then s.count F.LANTERN_UNITu_SUPP_CNT_COUNT 1 u else
  let word := match srcOf (condCfg a e.cond).src with
    | .ain _ => e.word
    | _ => e.t / cycle * cycle
  if r.2.markWord = some word then (s.count F.LANTERN_UNITu_COINC_CNT_COUNT 1 u).setf F.LANTERN_UNITu_STAT_COINC u
  else s.issueMark u e word

/-- A unit's sequence takes the events of one tick that no reset discards (R117, R118), in the order of their conditions. -/
def State.unitEvents (s : State) (u t : Nat) : List LEv → State
  | [] => s
  | e :: es =>
    let a := s.lan.unitAct
    let x := s.unit u
    let s :=
      if e.cond ≠ (unitConds a u).getD x.stage 16 ∨ (x.stage ≠ 0 ∧ t ≤ x.stageT) then s
      else if x.stage = a.rd F.LANTERN_UNITu_CTRL_N_STAGES u 0 then (s.setUnit u { x with stage := 0 }).qualify u e
      else s.setUnit u { x with stage := x.stage + 1, stageT := t }
    s.unitEvents u t es

/-- A unit's sequence at one tick (R118): the limit between stages, the reset condition, then the events. -/
def State.unitTick (s : State) (u t : Nat) (evs : List LEv) : State :=
  let a := s.lan.unitAct
  let x := s.unit u
  if !x.started || x.hold then s else
  let tmax := a.rd F.LANTERN_UNITu_SEQ_TMAX_T u 0
  let stage := if x.stage ≠ 0 ∧ tmax ≠ 0 ∧ x.stageT + tmax * 256 < t then 0 else x.stage
  let reset := a.rd F.LANTERN_UNITu_SEQ_RESET_EN u 0 = 1 &&
    evs.any (fun e => e.cond = a.rd F.LANTERN_UNITu_SEQ_RESET_COND u 0)
  let s := s.setUnit u { x with stage := if reset then 0 else stage }
  if reset then s else s.unitEvents u t evs

/-- Applies one change to the units (R125, R129). -/
def State.unitCtl (s : State) : LItem → State
  | .ev _ => s
  | .apply _ a us => us.foldl State.startUnit { s with lan := { s.lan with unitAct := a } }
  | .hold _ => (List.range 8).foldl (fun s u => s.setUnit u { queue := (s.unit u).queue, lost := (s.unit u).lost, hold := true }) s
  | .start _ => (List.range 8).foldl (fun s u => (s.setUnit u { s.unit u with hold := false }).startUnit u) s

/-- The events at the head of the queue that share tick `t`, and the rest. -/
def takeTick (t : Nat) : List LItem → List LEv × List LItem
  | .ev e :: r => if e.t = t then let q := takeTick t r; (e :: q.1, q.2) else ([], .ev e :: r)
  | r => ([], r)

/-- The units take, in time order, every queue item earlier than `lim`; `n` bounds the items. -/
def State.runUnits (s : State) (lim : Nat) : Nat → State
  | 0 => s
  | n + 1 =>
    match s.lan.queue with
    | [] => s
    | x :: r =>
      if lim ≤ x.time then s
      else if x.isCtl then (({ s with lan := { s.lan with queue := r } }).unitCtl x).runUnits lim n
      else
        let q := takeTick x.time (x :: r)
        let s := { s with lan := { s.lan with queue := q.2 } }
        let evs := ((List.range 16).map (fun c => q.1.filter (fun e => e.cond = c))).flatten
        ((List.range 8).foldl (fun s u => s.unitTick u x.time evs) s).runUnits lim n

/-- The time before which every analogue crossing is known: a held word's crossings may begin one sample before it. -/
def State.lanHorizon (s : State) : Option Nat :=
  s.lan.chs.foldl (fun (b : Option Nat) c => match c.2.held with
    | some w => some (min (b.getD (w.t - w.span / 64)) (w.t - w.span / 64))
    | none => b) none

/-- A time later than any, for draining the queue where no analogue channel is live. -/
def State.lanEnd (s : State) : Nat := s.devTime + 2 ^ 72

/-! ### Patterns (TYPE 9) -/

/-- Whether a pattern holds on the comparator levels: the 32 inputs from SRC, masked and compared (R112). -/
def patternTrue (k : CondCfg) (levels : KMap Bool) : Bool :=
  let base := k.src - 0x100
  (List.range 32).all (fun i => !bit k.levelA i || (kget levels (base + i) false == bit k.levelB i))

/-- Judges a pattern whose inputs had edges at time `t` (R112): QUAL 0 and 1 report the change, QUAL 3 a short truth, and
QUAL 2 sets its duration instant. -/
def State.judgePattern (s : State) (c t : Nat) : State :=
  let k := condCfg s.act c
  let st := s.cond c
  let now := patternTrue k s.lan.levels
  let st := { st with dirty := none }
  let ev (t : Nat) : LEv := ⟨t, c, t / cycle * cycle, {}⟩
  if now == st.truth then s.setCond c st
  else if now then
    let st := { st with truth := true, since := some t, due := if k.qual = 2 then some (t + k.tmin * 256) else none }
    (s.setCond c st).pushEvents (if k.qual = 0 then [ev t] else [])
  else
    let long := match st.due with | some d => if d < t then [ev d] else [] | none => []
    let short := match st.since with | some b => if k.qual = 3 ∧ t - b < k.tmax * 256 then [ev t] else [] | none => []
    (s.setCond c { st with truth := false, since := none, due := none }).pushEvents
      (long ++ short ++ (if k.qual = 1 then [ev t] else []))

/-- Judges every pattern with edges before time `t`: edges of one stamp apply together. -/
def State.settlePatterns (s : State) (t : Nat) : State :=
  (List.range 16).foldl (fun s c => match (s.cond c).dirty with
    | some d => if d < t then s.judgePattern c d else s
    | none => s) s

/-- Takes the pattern's state from the comparator levels, without an event (R112). -/
def State.resetPattern (s : State) (c : Nat) : State :=
  s.setCond c { truth := patternTrue (condCfg s.act c) s.lan.levels }

/-- Resets a condition's state (R111, R112). -/
def State.resetCond (s : State) (c : Nat) : State :=
  if (condCfg s.act c).type = 9 && condUsed s.act c then s.resetPattern c else s.setCond c {}

/-- The units take every event whose order is settled, up to `lim` where digital events may still come. -/
def State.flushUnits (s : State) (lim : Nat) : State :=
  let h := min lim (s.lanHorizon.getD s.lanEnd)
  let s := s.settlePatterns h
  s.runUnits h s.lan.queue.length

/-! ### Inputs of Lantern -/

/-- A digital edge of source level `i` at time `t` (R108): conditions on the source take it, patterns are marked, and the
units take what is settled before it. -/
def State.lanEdge (s : State) (i : Nat) (rise : Bool) (t : Nat) : State :=
  let s := s.settlePatterns t
  let s := { s with lan := { s.lan with levels := kset s.lan.levels i rise false } }
  if s.lan.holding then s else
  let s := (List.range 16).foldl (fun s c =>
    let k := condCfg s.act c
    if !condUsed s.act c then s
    else if k.type = 9 then
      if k.src - 0x100 ≤ i ∧ i < k.src - 0x100 + 32 ∧ i < 256 then s.setCond c { s.cond c with dirty := some t } else s
    else if (srcOf k.src).level? = some i then
      let r := condTimeout k (s.cond c) t
      let q := condCross k r.1 false rise { t := t, flags := {} }
      let ev (x : Option Crossing) : List LEv := match x with
        | some e => [⟨e.t, c, e.t / cycle * cycle, {}⟩]
        | none => []
      (s.setCond c q.1).pushEvents (ev r.2 ++ ev q.2)
    else s) s
  s.flushUnits t

/-- A line event on TLi at time `t`, accepted by the line's rules (R128): conditions on the line take it. -/
def State.lanLine (s : State) (i t : Nat) : State :=
  let s := (List.range 16).foldl (fun s c =>
    let k := condCfg s.act c
    if condUsed s.act c && srcOf k.src == .tl i then
      let r := condTimeout k (s.cond c) t
      let q := condCross k r.1 false true { t := t, flags := {} }
      let ev (x : Option Crossing) : List LEv := match x with
        | some e => [⟨e.t, c, e.t / cycle * cycle, {}⟩]
        | none => []
      (s.setCond c q.1).pushEvents (ev r.2 ++ ev q.2)
    else s) s
  s.flushUnits t

/-- The conditions on analogue channel `n`; a condition that names the odd input of an active pair counts for the even
one (R106). -/
def State.condsOn (s : State) (a : Regs) (n : Nat) : List Nat :=
  (List.range 16).filter (fun c => condUsed a c && (condCfg a c).type ≠ 0 &&
    (match srcOf (condCfg a c).src with
      | .ain m => m = n || (m = n + 1 && n % 2 = 0 && s.ract F.PRISM_CHn_CTRL_PAIR n = 1)
      | _ => false))

/-- Evaluates a channel's held word now that its successor is known, or known not to come (R111-R115). A condition whose
set-up has changed finishes its words from the state it had (R129). -/
def State.evalHeld (s : State) (n : Nat) (next : Option PWord) : State :=
  let ch := s.lanCh n
  match ch.held with
  | none => s
  | some w =>
    let s := match ch.resetAt with
      | some t => if t ≤ w.t then
          (ch.resets.foldl State.resetCond s).setLanCh n { ch with resetAt := none, resets := [] }
        else s
      | none => s
    if w.status = 3 then s else
    let ends := match next with | some x => x.status = 3 | none => true
    let turns := match next with | some x => decide (w.t < s.lan.applyT ∧ s.lan.applyT ≤ x.t) | none => false
    (s.condsOn ch.heldAct n).foldl (fun s c =>
      match (s.lanCh n).tails.find? (fun x => x.1 = c) with
      | some x =>
        let r := condWord (condCfg ch.heldAct c) c ch.prev w next (ends || turns) x.2.2
        (s.setLanCh n { s.lanCh n with
          tails := (s.lanCh n).tails.map (fun y => if y.1 = c then (c, x.2.1, r.1) else y) }).pushEvents
            (r.2.filter (fun e => e.t < x.2.1))
      | none =>
        let r := condWord (condCfg ch.heldAct c) c ch.prev w next ends (s.cond c)
        (s.setCond c r.1).pushEvents r.2) s

/-- A word enters Lantern (R20, R106): the held word is evaluated, and the new one is held under the settings in force
for it (R129). -/
def State.lanWord (s : State) (n : Nat) (w : PWord) : State :=
  let s := s.evalHeld n (some w)
  let ch := s.lanCh n
  let old := w.t < s.lan.applyT
  let s := s.setLanCh n { ch with
    prev := ch.held, held := some w, tails := if old then ch.tails else []
    heldAct := if old then s.lan.oldAct else shadowRows s.act lanLo lanHi }
  s.flushUnits (w.t + w.span)

/-- A channel leaves: its held word is evaluated without a successor, and the conditions on it reset (R115, R124). -/
def State.lanAway (s : State) (n : Nat) : State :=
  let s := s.evalHeld n none
  let s := s.setLanCh n {}
  let s := (s.condsOn s.act n).foldl State.resetCond s
  s.flushUnits s.lanEnd

/-- From T_loss every condition, sequence and holdoff resets and every unit is held (R125). -/
def State.lanHold (s : State) (t : Nat) : State :=
  let s := s.pushCtl (.hold t)
  let s := { s with lan := { s.lan with holding := true } }
  (List.range 16).foldl (fun s c =>
    match srcOf (condCfg s.act c).src with
    | .ain n =>
      let n := if s.ract F.PRISM_CHn_CTRL_PAIR (n / 2 * 2) = 1 then n / 2 * 2 else n
      let ch := s.lanCh n
      if ch.held.isSome then s.setLanCh n { ch with resetAt := some t, resets := ch.resets ++ [c] } else s.resetCond c
    | _ => s.resetCond c) s

/-- A time step at `t` (R125, R389): what lies before it is settled whole, since the times after it do not compare. -/
def State.lanStep (s : State) (t : Nat) : State :=
  let s := (List.range 4).foldl (fun s n => (s.evalHeld n none).setLanCh n {}) s
  (s.lanHold t).flushUnits s.lanEnd

/-- At `t` the clock hold ends: edges count again and units start (R125). -/
def State.lanHoldEnd (s : State) (t : Nat) : State :=
  let s := { s with lan := { s.lan with holding := false } }
  let s := (List.range 16).foldl (fun s c => if (condCfg s.act c).type = 9 then s.resetCond c else s) s
  s.pushCtl (.start t)

end Sys2Proof.Machine
end

