-- ==== Sys2Proof/Machine/Mgmt.lean ====
section
/-! DEFINITION. Machine/Mgmt.lean: boot, image offers, the Eclipse handover, the ledger's commands and compatibility
("Management core, Eclipse handover and the life ledger"). -/
namespace Sys2Proof.Machine

/-! ### Images (R428, R429) -/

def imgMagic (h : Bytes) : Nat := fieldAt h 0 4
def imgVersion (h : Bytes) : Nat := fieldAt h 4 4
def imgBody (h : Bytes) : Nat := fieldAt h 8 4
def imgCompatMin (h : Bytes) : Nat := fieldAt h 12 2
def imgCompatMax (h : Bytes) : Nat := fieldAt h 14 2
def imgRecord (h : Bytes) : Nat := fieldAt h 16 2
def imgPart (h : Bytes) : Nat := fieldAt h 18 2
def imgDigest (h : Bytes) : Bytes := (h.drop 32).take 48

/-- MAGIC and sizes meet R428. -/
def imgFormat (h : Bytes) : Bool :=
  imgMagic h = 0x4B58494D && imgBody h % 64 = 0 && decide (256 + imgBody h ≤ 1572864)

/-- The digest of an image (R428): header bytes 0-31, then the body. -/
def imgComputed (i : Bytes) : Bytes := sha384 (i.take 32 ++ (i.drop 256).take (imgBody i))

/-- The image implements the GLOBAL_COMPAT level in force (R429). -/
def State.imgCompat (s : State) (h : Bytes) : Bool :=
  decide (imgCompatMin h ≤ s.rd F.GLOBAL_COMPAT_LEVEL ∧ s.rd F.GLOBAL_COMPAT_LEVEL ≤ imgCompatMax h)

/-- Why an image does not pass R429, as GLOBAL_BOOT_STAT.REASON; 0 where it passes. -/
def State.imgReason (s : State) (i : Bytes) : Nat :=
  if !imgFormat i || i.length ≠ 256 + imgBody i then 1
  else if imgPart i ≠ 0x9400 then 4
  else if imgComputed i ≠ imgDigest i then 2
  else if !Config.signature (imgDigest i) ((i.drop 96).take 96) then 3
  else if !s.imgCompat i then 5 else 0

/-- The image in the slot that runs, and in the other (R426). -/
def State.activeImage (s : State) : Bytes := if s.flag F.MGMT_STAT_ACTIVE_SLOT then s.mgmt.slotB else s.mgmt.slotA
def State.otherImage (s : State) : Bytes := if s.flag F.MGMT_STAT_ACTIVE_SLOT then s.mgmt.slotA else s.mgmt.slotB

/-- Applies `f` to the management core's state. -/
def State.onMgmt (s : State) (f : MgmtSt → MgmtSt) : State := { s with mgmt := f s.mgmt }

/-- The registers that show the running image (R452). -/
def State.showImages (s : State) : State :=
  let i := s.activeImage
  let s := (s.wr F.MGMT_VERSION_VERSION (imgVersion i)).wr F.MGMT_OTHER_VERSION_VERSION (imgVersion s.otherImage)
  let s := s.wr F.MGMT_RECORD_VERSION_VERSION (imgRecord i)
  (List.range 12).foldl (fun s k => s.wr F.MGMT_DIGESTk_BYTES (fieldAt i (32 + 4 * k) 4) k) s

/-- Start-up from step 6 of R470, which begins at `t6`: training of the stacks that are not trained, the pool test and the
warm-up begin together. -/
def State.beginStartup (s : State) (t6 : Nat) : State :=
  let s := s.wr F.GLOBAL_STATUS_STAGE 2
  { s with
    power := { s.power with
      starting := true, startAt := t6, warmDone := false, poolDone := false, calDone := false }
    pool := { s.pool with march := some { sides := 3, preserving := true, startup := true, began := t6 } } }

/-! ### Boot (R427) -/

/-- BAR2 offset of the boot mailbox (R38). -/
def mailBase : Nat := 0x100000

/-- `n` bytes of the mailbox from offset `a`. -/
def State.mailRead (s : State) (a : Nat) : Nat → Bytes
  | 0 => []
  | n + 1 => kget s.mgmt.mail a 0 :: s.mailRead (a + 1) n

/-- An image arrives at the boot ROM (R427): from the mailbox (source 0) by a write of `v` to GLOBAL_BOOT_CMD, or `image`
from an Ernos neighbour. -/
def State.imageArrives (s : State) (src : Nat) (v : Word) (image : Bytes) : State :=
  let open' := !s.flag F.GLOBAL_STATUS_IMAGE && !s.mgmt.mailClosed &&
    bit (s.rd F.GLOBAL_BOOT_CTRL_SRC_MASK) (if src = 0 then 0 else 1) && (src ≠ 0 || bit v.toNat 31)
  if !open' then s else
  let i := if src = 0 then s.mailRead 0 (bits v.toNat 20 0) else image
  let s := (s.wr F.GLOBAL_BOOT_STAT_STATE 2).wr F.GLOBAL_STATUS_STAGE 1
  s.onMgmt (fun m => { m with verifying := m.verifying ++ [(src, i)] })

/-- BOOT_IMAGE_ARRIVAL (R427). -/
def execBootImageArrival (src : Fin 3) (v : Word) (image : Bytes) (s : State) : Host.Outcome State Fault Refusal :=
  live s fun s => s.imageArrives src v image

/-- BOOT_IMAGE_REQUEST (R427): the running image goes to the neighbour where SERVE is 1. -/
def execBootImageRequest (port : Fin 2) (s : State) : Host.Outcome State Fault Refusal :=
  live s fun s =>
    if s.flag F.GLOBAL_STATUS_IMAGE && s.flag F.GLOBAL_BOOT_CTRL_SERVE then
      s.emit (.ernos port "image" (s.activeImage.map (·.toNat)))
    else s

/-! ### The end of an offer (R442) -/

/-- DETAIL of an offer's end. -/
def offerDetail (o : Offer) (outcome : Nat) : Nat := min o.installed 255 * 2 ^ 16 + min o.reached 255 * 2 ^ 8 + outcome

/-- The final STATUS that an outcome fixes (R442). -/
def offerEnd (o : Offer) (outcome : Nat) (j : Job) : Job :=
  let j := { j with detail := offerDetail o outcome }
  match outcome with
  | 0 => { j with fPartial := decide (o.installed < o.reached) }
  | 1 | 7 => { j with fIntegrity := true }
  | 2 | 3 | 4 => { j with fPartial := true }
  | 5 | 6 => { j with special := some stConflict }
  | 8 => { j with fStopped := true }
  | _ => j

/-- Reports an outcome on the Ernos port that an offer came from (R433). -/
def State.reportBack (s : State) (src outcome : Nat) : State :=
  if src = 0 then s else s.emit (.ernos (src - 1) "outcome" [outcome])

/-- Ends an offer and those that joined it (R434, R442). -/
def State.endOffer (s : State) (o : Offer) (outcome : Nat) : State :=
  let s := s.onMgmt (fun m => { m with offers := m.offers.filter (fun x => x ≠ o) })
  ((o.src, o.jid) :: o.joined).foldl (fun s x =>
    if x.1 = 0 then (s.anchorNow x.2).endJob x.2 (offerEnd o outcome) else s.reportBack x.1 outcome) s

/-- Replaces an offer. -/
def State.setOffer (s : State) (o o' : Offer) : State :=
  s.onMgmt (fun m => { m with offers := m.offers.map (fun x => if x = o then o' else x) })

/-- An offer is open from its arrival until its handover starts. -/
def Offer.isOpen (o : Offer) : Bool := o.stage = .download || o.stage = .checked

/-- The open offer, if there is one. -/
def State.openOffer (s : State) : Option Offer := s.mgmt.offers.find? Offer.isOpen

/-- The offer in handover or probation. -/
def State.heldOffer (s : State) : Option Offer :=
  s.mgmt.offers.find? (fun o => o.stage = .handover || o.stage = .probation)

/-- CALIBRATE, ARRAY_ALIGN and LEDGER_READ are refused while an offer is open, in handover or in probation up to the
resumption of admission (R431). -/
def State.offersBlock (s : State) : Bool :=
  s.mgmt.offers.any (fun o => o.isOpen || o.stage = .handover)

/-- The conditions of R431 but for the ledger burn and another offer. -/
def State.offerRefusedCore (s : State) (h : Bytes) : Bool :=
  s.flag F.GLOBAL_OWNER_LOCK_LOCK || s.supplyNow || s.flag F.POWER_STAT_MARGIN ||
    s.flag F.POWER_STAT_THERM_WARN || bit (s.rd F.HBMC_STAT_OFFLINE) 0 ||
    s.host.jobs.any (fun j => !j.finalSent && [0x60, 0x61, 0x71].contains j.kind) || !s.imgCompat h

/-- R431. -/
def State.offerRefused (s : State) (h : Bytes) : Bool :=
  s.offerRefusedCore h || !s.ledger.queue.isEmpty || s.ledger.burning.isSome || s.heldOffer.isSome

/-- CONFLICTING_OFFERS (R434, R453). -/
def State.conflictEvent (s : State) (version first second : Nat) : State :=
  s.raise 1 0x3801 0 version (first + 4 * second)

/-- A second offer arrives: what becomes of the open one (R434). The new one goes on unless its version is lower, or
equal with another digest. -/
def State.resolve (s : State) (src version : Nat) (digest : Bytes) : State :=
  match s.openOffer with
  | none => s
  | some o =>
    if o.version < version then s.endOffer o 5
    else if o.version = version ∧ o.digest ≠ digest then (s.conflictEvent version o.src src).endOffer o 6
    else s

/-- Whether a new offer loses to the open one. -/
def State.losesTo (s : State) (version : Nat) (digest : Bytes) : Bool :=
  match s.openOffer with
  | none => false
  | some o => decide (version < o.version) || (version = o.version && o.digest ≠ digest)

/-! ### IMAGE_OFFER and forwarded offers -/

/-- Microseconds that `n` bytes take at `r` bytes each microsecond. -/
def usAt (n r : Nat) : Q := ⟨n, r⟩

/-- W of an offer (R441). -/
def offerWork (n : Nat) (forward : Bool) : Q :=
  let dig := usAt n 2000
  let copy := usAt n 12800
  let base := (dig.add copy).add (Q.of (200 + 2000 + 10000000))
  if forward then base.add ((Q.of 32).mul (((usAt n 10000).add dig).add copy)) else base

/-- A payload's bytes from `lo` up to `hi` are zero, but for those listed as pairs of offset and length. -/
def restZero (d : Bytes) (used : List (Nat × Nat)) : Bool :=
  (List.range 56).all (fun i => used.any (fun u => decide (u.1 ≤ i + 8 ∧ i + 8 < u.1 + u.2)) || d.getD (i + 8) 0 == 0)

/-- A host range that wraps, or is not aligned (R50). -/
def rangeBad (addr len align : Nat) : Bool := addr % align ≠ 0 || decide (2 ^ 64 < addr + len)

/-- A setup block, list, table or header as the device reads it: a range that wraps or is not aligned is an address fault of
the descriptor, and nothing of it is read (R50). -/
def blockRead (addr len align : Nat) (b : Option Bytes) : Option Bytes := if rangeBad addr len align then none else b

/-- The demands of an IMAGE_OFFER (R430, R431, R441). -/
def State.offerPlan (s : State) (header : Option Bytes) (j : Job) : Plan :=
  let n := j.fld 24 4
  let header := blockRead (j.fld 16 8) n 64 header
  let h := header.getD []
  let fwd := j.bits 8 1 0 0 = 1
  { malformed := j.kflags ≠ 0 || j.bits 8 1 7 1 ≠ 0 || !restZero j.desc [(8, 1), (12, 4), (16, 8), (24, 4)] ||
      (header.isSome && (!imgFormat h || imgPart h ≠ 0x9400 || n ≠ 256 + imgBody h))
    badAddr := header.isNone
    stateOk := !s.offerRefused h
    conflict := s.losesTo (imgVersion h) (imgDigest h)
    h2d := some (j.fld 12 4)
    movers := fun _ rh => [(0, rh, rh)]
    work := fun _ _ => offerWork n fwd
    toHost := false
    dur := fun _ rh => some ((usAt n (10 * max rh 1)).mul (Q.of tickUs)).ceil
    durIsBound := true }

/-- A new offer's download begins (R432). -/
def State.startOffer (s : State) (j : Job) (h : Bytes) : State :=
  let o : Offer := { src := 0, jid := j.jid, version := imgVersion h, digest := imgDigest h, size := j.fld 24 4
                     forward := j.bits 8 1 0 0 = 1 }
  (s.onMgmt (fun m => { m with offers := m.offers ++ [o], relay := 0 })).queueElems j.jid (s.chanOn j.jid 0)
    (inElems (j.fld 16 8) (j.fld 24 4))

/-- IMAGE_OFFER (R430, R431, R434, R441): the decision after the header is read; none where its read failed. -/
def execImageOffer (header : Option Bytes) (s : State) : Host.Outcome State Fault Refusal :=
  live s fun s =>
    match s.nextDecision with
    | none => s
    | some j =>
      if j.kind ≠ 0x70 then s else
      let p := s.offerPlan header j
      let h := header.getD []
      let reached := !(s.headerBad j || p.malformed || p.badAddr || !p.stateOk || !s.flag F.GLOBAL_STATUS_READY)
      let first := s.openOffer
      let v := s.judge j p
      let r := s.carryOut j.jid v
      let s := if reached && (r.2 || p.conflict) then r.1.resolve 0 (imgVersion h) (imgDigest h) else r.1
      if !r.2 then s else
      match first with
      | some o =>
        if o.version = imgVersion h ∧ o.digest = imgDigest h then
          s.setOffer o { o with joined := o.joined ++ [(0, j.jid)] }
        else s.startOffer j h
      | none => s.startOffer j h

/-- A forwarded offer is taken on, to be forwarded again (R433). -/
def State.takeForward (s : State) (src : Nat) (header : Bytes) : State :=
  let o : Offer := { src := src, jid := 0, version := imgVersion header, digest := imgDigest header
                     size := 256 + imgBody header, forward := true }
  s.onMgmt (fun m => { m with offers := m.offers ++ [o], relay := src })

/-- FORWARDED_OFFER_ARRIVAL (R431, R433, R434): the header arrives on port `port`. -/
def execForwardedOfferArrival (port : Fin 2) (header : Bytes) (s : State) : Host.Outcome State Fault Refusal :=
  live s fun s =>
    let src := port.val + 1
    let v := imgVersion header
    let d := imgDigest header
    if s.offerRefused header then s.reportBack src 4
    else
      let lost := s.losesTo v d
      let first := s.openOffer
      let s := s.resolve src v d
      if lost then s.reportBack src (if (first.map (·.version)).getD 0 = v then 6 else 5)
      else
        match first with
        | some o =>
          if o.version = v ∧ o.digest = d then s.setOffer o { o with joined := o.joined ++ [(src, 0)] }
          else s.takeForward src header
        | none => s.takeForward src header

/-- Sends an image on every trained Ernos port but the one it came from (R433). -/
def State.forwardImage (s : State) (o : Offer) : State :=
  let s := if s.flag F.ERNOS_STAT_UP_UP && o.src ≠ 1 then s.emit (.ernos 0 "image" (o.image.map (·.toNat))) else s
  if s.flag F.ERNOS_STAT_DN_UP && o.src ≠ 2 then s.emit (.ernos 1 "image" (o.image.map (·.toNat))) else s

/-- OFFER_STAGED (R432, R433): the open offer's last byte is staged; for a forwarded offer `image` is what arrived. -/
def execOfferStaged (image : Bytes) (s : State) : Host.Outcome State Fault Refusal :=
  live s fun s =>
    match s.openOffer with
    | none => s
    | some o =>
      let ready := if o.src = 0 then (match s.job? o.jid with | some j => s.moved j | none => false) else true
      if o.stage ≠ .download || !ready then s else
      let img := if o.src = 0 then ((s.job? o.jid).map (·.taken)).getD [] else image
      let s := if o.src = 0 then s.anchorNow o.jid else s
      if imgComputed img ≠ o.digest then s.endOffer o 7
      else
        let o' := { o with image := img, stage := .checked }
        let s := s.setOffer o o'
        if o.forward then s.forwardImage o' else s

/-! ### Handover (R435-R439) -/

/-- The freeze begins (R435). -/
def State.freeze (s : State) : State :=
  let s := (s.onHost (fun h => { h with frozen := true })).setf F.MGMT_STAT_HANDOVER
  let s := s.wr64 F.MGMT_HANDOVER_STAMP_LO_STAMP F.MGMT_HANDOVER_STAMP_HI_STAMP s.stamp
  (s.onMgmt (fun m => { m with freezeAt := s.phys })).ledgerRegs

/-- Puts an image into the slot that does not run. -/
def State.putOther (s : State) (i : Bytes) : State :=
  s.onMgmt (fun m => if s.flag F.MGMT_STAT_ACTIVE_SLOT then { m with slotA := i } else { m with slotB := i })

/-- The core restarts into the other slot. -/
def State.swapSlot (s : State) : State :=
  (s.wr F.MGMT_STAT_ACTIVE_SLOT (1 - s.rd F.MGMT_STAT_ACTIVE_SLOT)).showImages

/-- HANDOVER (R436): the slot is written, and the freeze begins; a refusal condition ends the offer first, and a burn in
progress is waited for. -/
def execHandover (s : State) : Host.Outcome State Fault Refusal :=
  live s fun s =>
    match s.openOffer with
    | none => s
    | some o =>
      if o.stage ≠ .checked then s else
      let s := (s.putOther o.image).showImages
      if s.offerRefusedCore o.image || s.heldOffer.isSome then s.endOffer o 4
      else if s.ledger.burning.isSome then s
      else
        let s := (s.freeze.count F.MGMT_HANDOVER_CNT_COUNT).ledgerAdd ctrHandover
        let s := s.raise 0 0x3802 0 o.version o.src
        (s.setOffer o { o with stage := .handover }).onMgmt (fun m => { m with
          recX := some { layout := imgRecord s.activeImage, writer := imgVersion s.activeImage }, recY := none })

/-- A hand-back (R438): the core restarts into the previous slot. -/
def State.handBack (s : State) (o : Offer) (outcome : Nat) : State :=
  let s := ((s.setf F.MGMT_STAT_HANDBACK).count F.MGMT_HANDBACK_CNT_COUNT).ledgerAdd ctrHandover
  let s := s.raise 2 0x3803 0 o.version outcome
  let s := (s.swapSlot).clrf F.MGMT_STAT_PROBATION
  let s := if s.host.frozen then s else s.freeze
  s.setOffer o { o with stage := .handover, due := some outcome }

/-- IMAGE_VERIFY_DONE (R427, R429, R436): the boot ROM has verified the oldest boot image, or the image of a handover. -/
def execImageVerifyDone (s : State) : Host.Outcome State Fault Refusal :=
  live s fun s =>
    match s.mgmt.verifying with
    | (src, i) :: rest =>
      let why := s.imgReason i
      if why ≠ 0 then
        (s.onMgmt (fun m => { m with verifying := rest })).wr F.GLOBAL_BOOT_STAT_REASON why |>.wr
          F.GLOBAL_BOOT_STAT_STATE (if rest.isEmpty then 0 else 2)
      else
        let again := s.mgmt.lostCore
        let s := s.onMgmt (fun m => { m with
          verifying := [], mailClosed := true, slotA := i, slotB := [], bootAt := s.phys, lostCore := false })
        let s := ((s.clrf F.MGMT_STAT_ACTIVE_SLOT).setf F.GLOBAL_STATUS_IMAGE).showImages
        let s := (s.wr F.GLOBAL_BOOT_STAT_STATE 3).wr F.GLOBAL_BOOT_SRC_SRC src
        if again then s else s.beginStartup (s.phys + tickMs)
    | [] =>
      match s.heldOffer with
      | none => s
      | some o =>
        if o.stage ≠ .handover || o.due.isSome || s.mgmt.recY.isSome then s
        else if s.imgReason s.otherImage ≠ 0 then s.setOffer o { o with due := some 1 }
        else
          let s := s.swapSlot
          let v := (s.mgmt.recX.map (·.layout)).getD 0
          if imgRecord s.activeImage < v then s.handBack o 3
          else s.onMgmt (fun m => { m with
            recY := some { layout := imgRecord s.activeImage, writer := imgVersion s.activeImage } })

/-- Session counters restart under R444 and R445 where the handover record is lost (R437). -/
def State.loseSession (s : State) : State :=
  let s := s.setf F.LEDGER_STAT_SESSION_LOST
  (List.range 9).foldl (fun s f =>
      let k := s.fresh
      { k.2 with ledger := { k.2.ledger with fine := kset k.2.ledger.fine f (Config.freeNat k.1 % 921600) 0 } })
    { s with ledger := { s.ledger with
        counts := []
        base := (List.range 18).foldl (fun m k =>
          let b := s.ledgerBits (9 + k)
          kset m k (if b = 0 then 0 else 2 ^ (b - 1)) 0) [] } }

/-- The freeze ends (R435): its length counts for MGMT_FREEZE_MAX in whole µs, rounded up. -/
def State.unfreeze (s : State) : State :=
  let s := (s.onHost (fun h => { h with frozen := false })).clrf F.MGMT_STAT_HANDOVER
  (s.maxTo F.MGMT_FREEZE_MAX_US (ceilDiv (s.phys - s.mgmt.freezeAt) tickUs)).ledgerRegs

/-- The offer in probation. -/
def State.probed (s : State) : Option Offer := s.mgmt.offers.find? (fun o => o.stage = .probation)

/-- PROBATION_EXPIRY (R438). -/
def execProbationExpiry (s : State) : Host.Outcome State Fault Refusal :=
  live s fun s => match s.probed with | some o => s.handBack o 2 | none => s

/-- CORE_EXCEPTION (R438): in probation it causes a hand-back; the spec gives a core exception no other effect. -/
def execCoreException (s : State) : Host.Outcome State Fault Refusal :=
  live s fun s => match s.probed with | some o => s.handBack o 2 | none => s

/-- IMAGE_CONFIRMED (R438, R441): 10 s of device time after admission resumed. A host's offer that was forwarded ends once
every device has reported. -/
def execImageConfirmed (s : State) : Host.Outcome State Fault Refusal :=
  live s fun s =>
    match s.probed with
    | none => s
    | some o =>
      let s := (s.toDev (s.mgmt.probeAt + 10 * tickS)).clrf F.MGMT_STAT_PROBATION
      let s := s.raise 0 0x3804 0 o.version s.stamp
      if o.forward && o.src = 0 && !o.allIn then s.setOffer o { o with stage := .reporting }
      else s.endOffer o 0

/-- OFFER_OUTCOME_REPORT (R433): devices beyond port `port` report: `reached` of them received the offer, `installed`
confirmed it, and `last` says that none is left to report. A device on the way passes the report back toward the originator. -/
def execOfferOutcomeReport (port : Fin 2) (reached installed : Nat) (last : Bool) (s : State) :
    Host.Outcome State Fault Refusal :=
  live s fun s =>
    match s.mgmt.offers.find? (·.forward) with
    | none =>
      let r := s.mgmt.relay
      if r = 0 ∨ r = port.val + 1 then s else s.emit (.ernos (r - 1) "report" [reached, installed])
    | some o =>
      if o.src = 0 then
        let o' := { o with
          reached := o.reached + reached, installed := o.installed + installed, allIn := o.allIn || last }
        let s := s.setOffer o o'
        if o'.stage = .reporting && o'.allIn then s.endOffer o' 0 else s
      else if o.src = port.val + 1 then s
      else s.emit (.ernos (o.src - 1) "report" [reached, installed])

/-- REPORT_DEADLINE (R441): at the originator's anchor + W − 1 ms, `silent` devices that received the offer and have not
reported count as reached and not installed. -/
def execReportDeadline (silent : Nat) (s : State) : Host.Outcome State Fault Refusal :=
  live s fun s =>
    match s.mgmt.offers.find? (fun o => o.forward && o.src = 0 && !o.allIn) with
    | none => s
    | some o =>
      match (s.job? o.jid).bind (·.anchor) with
      | none => s
      | some a =>
        let w := ((offerWork o.size true).mul (Q.of tickUs)).ceil
        let s := s.toPhys (a + w - tickMs)
        let o' := { o with reached := o.reached + silent, allIn := true }
        let s := s.setOffer o o'
        if o.stage = .reporting then s.endOffer o' 0 else s

/-- A supply warning or thermal emergency meets the offers (R439). -/
def State.strikeOffers (s : State) : State :=
  s.mgmt.offers.foldl (fun s o =>
    match o.stage with
    | .download | .checked => s.endOffer o 8
    | .handover => s.setOffer o { o with struck := true }
    | .probation => s.handBack o 8
    | .reporting => s.endOffer o 8) s

/-- An ABORT of an offer's job before its handover starts (R439): the staging area is freed. Once a handover has begun,
the job is not ended. `g` sets the reason of the offers that joined it. The second component says whether the job ends. -/
def State.abortOffer (s : State) (jid : Nat) (g : Job → Job) : State × Bool :=
  match s.mgmt.offers.find? (fun o => (o.src = 0 && o.jid = jid) || o.joined.any (fun x => x.1 = 0 && x.2 = jid)) with
  | none => (s, true)
  | some o =>
    if !o.isOpen then (s, false)
    else if o.jid = jid ∧ o.src = 0 then
      match o.joined with
      | [] => (s.onMgmt (fun m => { m with offers := m.offers.filter (fun x => x ≠ o) }), true)
      | _ =>
        let s := s.onMgmt (fun m => { m with offers := m.offers.filter (fun x => x ≠ o) })
        (o.joined.foldl (fun s x =>
          if x.1 = 0 then s.endJob x.2 (fun j => { (g j) with detail := offerDetail o 0xFF })
          else s.reportBack x.1 0xFF) s, true)
    else (s.setOffer o { o with joined := o.joined.filter (fun x => !(x.1 = 0 && x.2 = jid)) }, true)

/-! ### Compatibility and the owner lock -/

/-- COMPAT_WRITE (R449): stepping A0 implements only 0x0100. -/
def State.compatWrite (s : State) (v : Word) : State :=
  let lvl := v.toNat % 65536
  let inflight := !s.host.jobs.isEmpty
  let i := s.activeImage
  let range := i.isEmpty || decide (imgCompatMin i ≤ lvl ∧ lvl ≤ imgCompatMax i)
  if s.flag F.HOST_CTRL_ENABLE || inflight || lvl ≠ 0x0100 || !range then s.setf F.GLOBAL_COMPAT_STAT_REJ
  else s.wr F.GLOBAL_COMPAT_LEVEL lvl

/-- COMPAT_WRITE (R449). -/
def execCompatWrite (v : Word) (s : State) : Host.Outcome State Fault Refusal := live s fun s => s.compatWrite v

/-- OWNER_LOCK (R431): a write of 1 sets the lock until power-off. -/
def State.ownerLockWrite (s : State) (v : Word) : State :=
  if bit v.toNat 0 then s.setf F.GLOBAL_OWNER_LOCK_LOCK else s

/-- OWNER_LOCK (R431). -/
def execOwnerLock (v : Word) (s : State) : Host.Outcome State Fault Refusal := live s fun s => s.ownerLockWrite v

/-! ### The ledger's commands -/

/-- LEDGER_SECOND (R443, R444, R447): the highest junction temperature is sampled, the fine counters of its bucket and, with
P_res above 215 W, of Glare advance, and GLOBAL_LIFE follows. -/
def execLedgerSecond (s : State) : Host.Outcome State Fault Refusal :=
  live s fun s =>
    if !s.ledger.session then s else
    let s := s.toPhys s.ledger.nextSecond
    let t := sgn 16 (s.rd F.THERM_TJ_T)
    let b := lifeBucket t
    let glare := decide (2150 < s.pres)
    let l := s.ledger
    let inc (m : KMap Nat) (k : Nat) : KMap Nat := kset m k (kget m k 0 + 1) 0
    let fine := inc l.fine b
    let s := { s with ledger := { l with
      fine := if glare then inc fine 8 else fine
      secs := inc l.secs b
      hist := inc l.hist (lifeBin t)
      nextSecond := s.phys + tickS } }
    let s := s.ledgerCheck
    s.wr F.GLOBAL_LIFE_LIFE s.life

/-- LEDGER_BURN_START (R446): the oldest queued burn starts unless a freeze, a supply warning or a low rail defers it; a
field with no unburnt bit left stays full. -/
def execLedgerBurnStart (s : State) : Host.Outcome State Fault Refusal :=
  live s fun s =>
    if s.ledgerHeld || s.ledger.burning.isSome then s else
    match s.ledger.queue with
    | [] => s
    | f :: rest =>
      ({ s with ledger := { s.ledger with
          queue := rest
          burning := (s.ledgerNext f).map (fun b => (f, b, s.phys)) } }).ledgerCheck

/-- LEDGER_BURN_DONE (R446): after 200 µs the bit is verified; where that fails it stays as it reads, and the next bit of
the field burns in its place. -/
def execLedgerBurnDone (ok : Bool) (s : State) : Host.Outcome State Fault Refusal :=
  live s fun s =>
    match s.ledger.burning with
    | none => s
    | some (f, b, t) =>
      let s := s.toPhys (t + 200 * tickUs)
      let l := s.ledger
      if ok then
        let s := ({ s with ledger := { l with otp := kset l.otp b true false, burning := none } }).ledgerCheck
        s.wr F.GLOBAL_LIFE_LIFE s.life
      else
        let s := { s with ledger := { l with failed := l.failed ++ [b], burning := none, queue := f :: l.queue } }
        let s := (s.count F.LEDGER_BURN_FAIL_CNT_COUNT).setf F.LEDGER_STAT_BURN_FAIL
        (s.raise 1 0x3805 0 b (ledgerField f).1).ledgerCheck

/-- The logical ledger as LEDGER_READ writes it (R448). -/
def State.ledgerImage (s : State) : Bytes :=
  (List.range 1024).map Config.factory ++
    (List.range 3072).map (fun i => BitVec.ofNat 8 (sumL ((List.range 8).map (fun k =>
      b2n (kget s.ledger.otp (8192 + 8 * i + k) false) * 2 ^ k))))

/-- The session block (R448). -/
def State.sessionBlock (s : State) : Bytes :=
  let l := s.ledger
  let eights (m : KMap Nat) (n : Nat) : Bytes := ((List.range n).map (fun k => leBytes 8 (kget m k 0))).flatten
  eights l.fine 9 ++ eights l.counts 18 ++ eights l.secs 8 ++
    ((List.range 64).map (fun k => leBytes 4 (kget l.hist k 0))).flatten ++
    leBytes 2 s.life ++ leBytes 1 (s.rd F.LEDGER_STAT_SESSION_LOST + 2 * s.rd F.LEDGER_STAT_BURN_FAIL) ++
    zeros (4096 - 539)

/-- The demands of a LEDGER_READ (R448). -/
def State.ledgerPlan (s : State) (j : Job) : Plan :=
  { malformed := j.kflags ≠ 0 || !restZero j.desc [(12, 4), (16, 8)]
    badAddr := rangeBad (j.fld 16 8) 8192 64
    stateOk := !s.offersBlock
    d2h := some (j.fld 12 4)
    demand := fun rd _ => { power := (moverPower rd).ceil }
    movers := fun rd _ => [(0, rd, rd)]
    work := fun _ _ => Q.of 20
    bytes := 8192
    dur := fun _ _ => some (20 * tickUs) }

/-- LEDGER_READ (R448). -/
def execLedgerRead (s : State) : Host.Outcome State Fault Refusal :=
  live s fun s => s.admission 0x71 s.ledgerPlan (fun s j =>
    let detail := s.life * 2 ^ 16 + countP (·.2) s.ledger.otp
    let s := s.updJob j.jid (fun j => { j with anchor := some j.pickup, detail := detail, autoEnd := true })
    s.queueElems j.jid (s.chanOn j.jid 0) (outElems (j.fld 16 8) (s.ledgerImage ++ s.sessionBlock)))

end Sys2Proof.Machine
end

