-- ==== Sys2Proof/Machine/RecBase.lean ====
section
/-! DEFINITION. Machine/RecBase.lean: access to an input's Penumbra, and what ends the availability of its words (R134). -/
namespace Sys2Proof.Machine

/-- Penumbra of input `n`. -/
def State.rch (s : State) (n : Nat) : RecCh := kget s.record.chs n {}

/-- Replaces Penumbra of input `n`. -/
def State.setRch (s : State) (n : Nat) (x : RecCh) : State :=
  { s with record := { s.record with chs := kset s.record.chs n x {} } }

/-- No word before the next one is available any more (R134): an enable, a rate change, a reconnection, the end of a
clock hold. -/
def State.penRestart (s : State) (n : Nat) : State :=
  let c := s.rch n
  s.setRch n { c with first := c.penN, dec := { c.dec with taken := 0, hist := [], part := [] } }

/-- The end of a clock hold (R134): no word that holds an earlier sample is available any more; the decimator goes on. -/
def State.penResume (s : State) (n : Nat) : State :=
  let c := s.rch n
  s.setRch n { c with first := c.penN + (if c.dec.part.isEmpty then 0 else 1) }

end Sys2Proof.Machine
end

