-- ==== Sys2Proof/Machine/Prism.lean ====
section
/-! DEFINITION. Machine/Prism.lean: channel set-up, sample codes, word status, range changes and calibration ("Prism
converters and analogue inputs"). -/
namespace Sys2Proof.Machine

/-- Channel `n`. -/
def State.ch (s : State) (n : Nat) : PrismCh := kget s.prism.chs n {}

/-- Replaces channel `n`. -/
def State.setCh (s : State) (n : Nat) (x : PrismCh) : State :=
  { s with prism := { s.prism with chs := kset s.prism.chs n x {} } }

/-- The pair of even channel `n` is active (R78). -/
def State.paired (s : State) (n : Nat) : Bool :=
  s.ract F.PRISM_CHn_CTRL_PAIR n = 1 && s.ract F.PRISM_CHn_CTRL_ENABLE n = 1 && n % 2 = 0

/-- Channel `n` is the second lane of an active pair (R22). -/
def State.pairedOdd (s : State) (n : Nat) : Bool := n % 2 = 1 && s.paired (n - 1)

/-- Channel `n` converts: enabled, and not powered down by a thermal emergency (R463). -/
def State.chOn (s : State) (n : Nat) : Bool := s.ract F.PRISM_CHn_CTRL_ENABLE n = 1 && !s.flag F.POWER_STAT_THERM_EMERG

/-- Word span in ticks of a configuration (R77, R78). -/
def spanOf (rate pair : Nat) : Nat := if pair = 1 then 16384 else 32768 * 2 ^ rate

/-- Word span of channel `n` (R77, R78). -/
def State.span (s : State) (n : Nat) : Nat := spanOf (s.ract F.PRISM_CHn_CTRL_RATE n) (s.ract F.PRISM_CHn_CTRL_PAIR n)

/-- Sample spacing of channel `n` in ticks. -/
def State.spacing (s : State) (n : Nat) : Nat := s.span n / 64

/-- Whether a word index is bank-aligned (R87). -/
def State.bankAligned (s : State) (n idx : Nat) : Bool := idx % (if s.paired n then 16 else 8) = 0

/-- The part of an interval of time from `t` to `e` that a clock fault covers makes the word carry status 11 (R383). -/
def State.clockFault (s : State) (t e : Nat) : Bool :=
  match s.clk.lossT with
  | none => false
  | some l => decide (l < e) && (match s.clk.relockT with | none => true | some r => decide (t < r))

/-! ### Codes (R80, R81) -/

/-- A sample's code from the input in nV. -/
def codeOf (v : Int) (range fine off : Nat) : Int :=
  let r := rangeUv range * 1000
  let d : Int := 16 * 204800 * r
  let n : Int := v * 1024 * (204800 + 6 * sgn 12 fine) * 16 + sgn 14 off * 204800 * r
  if 2 * n < -1023 * d then -512 else if 1021 * d ≤ 2 * n then 511 else (2 * n + d) / (2 * d)

/-! ### Word status (R82-R85) -/

/-- Whether a detector, tripped or not at `a`, is tripped at any time from `a` to `b`, by its changes within the word. -/
def tripDuring (tripped : Bool) (edges : List (Nat × Bool)) (a b : Nat) : Bool :=
  let at' := ((edges.filter (fun e => decide (e.1 ≤ a))).getLast?.map (·.2)).getD tripped
  at' || edges.any (fun e => decide (a < e.1 ∧ e.1 ≤ b) && e.2)

/-- Moves the runs that a channel's words keep by `d` ticks (R389). -/
def PrismCh.runsBy (d : Int) (c : PrismCh) : PrismCh := { c with
  ovrFirst := c.ovrFirst.map (byCycles d), ovrLast := byCycles d c.ovrLast, nbrClear := c.nbrClear.map (byCycles d) }

/-- Overrange of a word (R83): the channel, whether status 01 follows, and whether an overrange event begins. `edges` are
the detector's changes at device times, `clips` the times of clipped samples. -/
def overrange (c : PrismCh) (t e : Nat) (edges : List (Nat × Bool)) (clips : List Nat) : PrismCh × Bool × Bool :=
  let run := c.ovrFirst.isSome
  let tripped := ((edges.getLast?).map (·.2)).getD c.tripped
  match clips with
  | [] =>
    let w := if c.ovrLong then 163840 else 98304
    if run && decide (t < c.ovrLast + w) then
      ({ c with ovrTrip := c.ovrTrip || tripDuring c.tripped edges t e, tripped := tripped }, true, false)
    else ({ c with ovrFirst := none, ovrLast := 0, ovrTrip := false, ovrLong := false, tripped := tripped }, false, false)
  | x :: _ =>
    let first := c.ovrFirst.getD x
    let last := clips.getLast?.getD x
    let from' := max t first
    let long := c.ovrTrip || tripDuring c.tripped edges from' last
    let trip := c.ovrTrip || tripDuring c.tripped edges from' e
    ({ c with ovrFirst := some first, ovrLast := last, ovrTrip := trip, ovrLong := long, tripped := tripped }, true, !run)

/-- The neighbour's overdrive (R84): the channel, and whether the word carries status 01 for it. -/
def nbrOver (c : PrismCh) (t e : Nat) (edges : List (Nat × Bool)) : PrismCh × Bool :=
  let clear := edges.foldl (fun b x => if x.2 then b else some x.1) c.nbrClear
  let flagged := tripDuring c.nbrTripped edges t e ||
    (match clear with | some x => decide (t < x + 262144) | none => false)
  ({ c with nbrTripped := ((edges.getLast?).map (·.2)).getD c.nbrTripped, nbrClear := clear }, flagged)

/-! ### Set-up (R79, R87, R89) -/

/-- The BAR0 range of CTRL and TRIM of channel `n` (R104). -/
def prismLo (n : Nat) : Nat := 0x400000 + 0x10000 * n
def prismHi (n : Nat) : Nat := 0x400008 + 0x10000 * n

/-- Whether an admitted job owns input `n` (R23). -/
def State.owned (s : State) (n : Nat) : Bool := (s.inputUse n).isSome

/-- The floor with channel `n` at configuration `c` (R79, R457). -/
def State.floorWith (s : State) (n : Nat) (c : Nat × Nat × Nat) : Nat :=
  let cfg (m : Nat) : Nat × Nat × Nat := if m = n then c else s.cfgOf m
  floorPower (cfg 0) (cfg 1) (cfg 2) (cfg 3) (s.ract F.BEACON_Bb_CTRL_PLAY 0 + s.ract F.BEACON_Bb_CTRL_PLAY 1)

/-- The range, fine gain and offset that would otherwise apply (R87): the pending ones, or the active ones. -/
def State.rangeNow (s : State) (n : Nat) : Nat × Nat × Nat :=
  match (s.ch n).rangePend with
  | some p => (p.range, p.fine, p.offset)
  | none => (s.ract F.PRISM_CHn_CTRL_RANGE n, s.ract F.PRISM_CHn_TRIM_FINE_GAIN n, s.ract F.PRISM_CHn_TRIM_OFFSET n)

/-- PENDING shows a range or trim change that waits (R89). -/
def State.showPending (s : State) (n : Nat) : State :=
  s.wr F.PRISM_CHn_COMMIT_STAT_PENDING (b2n (s.ch n).rangePend.isSome) n

/-- PRISM_COMMIT (R79, R87, R89): a write of PRISM_CHn_COMMIT. The odd channel of an active pair ignores it (R104). -/
def State.prismCommitWrite (s : State) (n : Fin 4) (v : Word) : State :=
  if !bit v.toNat 0 || s.pairedOdd n then s else
  let c := s.ch n
  let pair := if n.val % 2 = 0 then s.rd F.PRISM_CHn_CTRL_PAIR n else 0
  let cfg := (s.rd F.PRISM_CHn_CTRL_ENABLE n, s.rd F.PRISM_CHn_CTRL_RATE n, pair)
  let old := s.cfgOf n
  let rng := (s.rd F.PRISM_CHn_CTRL_RANGE n, s.rd F.PRISM_CHn_TRIM_FINE_GAIN n, s.rd F.PRISM_CHn_TRIM_OFFSET n)
  let imm := s.rd F.PRISM_CHn_CTRL_IMMEDIATE n
  let change := cfg ≠ old
  let bad := cfg.2.1 = 7 || (pair = 1 && cfg.2.1 ≠ 0)
  let own := s.owned n || ((pair = 1 || old.2.2 = 1) && s.owned (n + 1))
  let power := !bad && decide (s.pres < s.floorWith n cfg + s.jobPower) &&
    decide (2150 < s.floorWith n cfg + s.jobPower)
  if change && (own || bad || power) then
    let s := if own then s.setf F.PRISM_CHn_COMMIT_STAT_REJ_OWNED n else s
    let s := if bad then s.setf F.PRISM_CHn_COMMIT_STAT_REJ_INVALID n else s
    if power then s.setf F.PRISM_CHn_COMMIT_STAT_REJ_POWER n else s
  else
    let t := s.boundary
    let enabling := change && cfg.1 = 1 && !s.chOn n
    let c := if change then { c with cfgPend := some ⟨cfg.1, cfg.2.1, pair, t + 2 * tickUs⟩ } else c
    let req : RangeReq := ⟨rng.1, rng.2.1, rng.2.2, imm, t + 64 * tickNs, enabling⟩
    let c := if rng ≠ s.rangeNow n then { c with rangePend := some req }
      else match c.rangePend with
        | some p => if imm ≠ s.ract F.PRISM_CHn_CTRL_IMMEDIATE n then
            { c with rangePend := some { p with immediate := imm, due := t + 64 * tickNs } }
          else if enabling then { c with rangePend := some { p with withEnable := true } } else c
        | none => c
    ((s.setCh n c).wact F.PRISM_CHn_CTRL_IMMEDIATE imm n).showPending n

/-- PRISM_COMMIT (R79). -/
def execPrismCommit (n : Fin 4) (v : Word) (s : State) : Host.Outcome State Fault Refusal := live s fun s => s.prismCommitWrite n v

/-- ONLINE (R95). -/
def State.showOnline (s : State) (n : Nat) : State :=
  s.wr F.PRISM_CHn_STAT_ONLINE (b2n (s.flag F.PRISM_CHn_STAT_CAL_VALID n && !s.flag F.PRISM_CHn_STAT_CALIBRATING n &&
    (s.ch n).converged)) n

/-- A pending range or trim change applies at device time `t` (R88, R89): the new values, RANGE_CNT and RANGE_STAMP, and
where `settle` says so the 6 ns of status 10. -/
def State.rangeApply (s : State) (n t : Nat) (settle : Bool) : State :=
  match (s.ch n).rangePend with
  | none => s
  | some p =>
    let s := ((s.wact F.PRISM_CHn_CTRL_RANGE p.range n).wact F.PRISM_CHn_TRIM_FINE_GAIN p.fine n).wact
      F.PRISM_CHn_TRIM_OFFSET p.offset n
    let s := s.setCh n { s.ch n with
      rangePend := none, settleEnd := if settle then t + 393216 else (s.ch n).settleEnd }
    let s := s.count F.PRISM_CHn_RANGE_CNT_COUNT 1 n
    (s.wr64 F.PRISM_CHn_RANGE_STAMP_LO_STAMP F.PRISM_CHn_RANGE_STAMP_HI_STAMP (t % 2 ^ 64) n).showPending n

/-- A new configuration begins at device time `t` (R79, R87, R95): its words start there, and calibration has to converge
anew. -/
def State.configApply (s : State) (n : Nat) (c : CfgReq) (t : Nat) : State :=
  let first := decide (c.enable = 1) && !s.chOn n
  let s := ((s.wact F.PRISM_CHn_CTRL_ENABLE c.enable n).wact F.PRISM_CHn_CTRL_RATE c.rate n).wact F.PRISM_CHn_CTRL_PAIR c.pair n
  let x := s.ch n
  let s := s.setCh n
    { cfgPend := none, rangePend := x.rangePend, nextT := t, sets := x.sets, oldSets := x.oldSets, calAt := x.calAt
      lastAcc := if first then none else x.lastAcc, bgSince := if first then t else x.bgSince
      reconn := x.reconn, tripped := x.tripped, nbrTripped := x.nbrTripped, nbrClear := x.nbrClear }
  let s := (s.wr F.PRISM_CHn_STAT_BG_CONVERGED 0 n).wr F.PRISM_CHn_STAT_SETTLING 0 n
  let s := ((s.lanAway n).showOnline n).penRestart n
  let s := if n % 2 = 0 then
      let odd := s.paired n
      let s := if odd then s.lanAway (n + 1) else s
      s.wr F.PRISM_CHn_STAT_PAIRED_ODD (b2n odd) (n + 1)
    else s
  match x.rangePend with
  | some p => if p.withEnable && c.enable = 1 then s.rangeApply n t false else s
  | none => s

/-- The first boundary of the word grid of channel `n` at or after device time `t` (R79); a disabled channel's grid begins
at the first SCLK boundary. -/
def State.gridFrom (s : State) (n t : Nat) : Nat :=
  if !s.chOn n then roundUp t cycle
  else
    let c := s.ch n
    let x := if c.shift = 0 then c.nextT else byCycles c.shift (c.nextT + s.span n)
    if t ≤ x then x else x + ceilDiv (t - x) (s.span n) * s.span n

/-- PRISM_CONFIG_APPLY (R79): at the first word interval that begins at least 2 µs after the commit. -/
def execPrismConfigApply (n : Fin 4) (s : State) : Host.Outcome State Fault Refusal :=
  live s fun s =>
    match (s.ch n).cfgPend with
    | none => s
    | some c =>
      let t := s.gridFrom n c.due
      (s.toDev t).configApply n c t

/-! ### Background calibration (R92-R95) -/

/-- The residuals are within the limits of R95. -/
def residOk (offset gain bw skew : Nat) : Bool := decide (offset ≤ 10 ∧ gain ≤ 10 ∧ bw ≤ 5 ∧ skew ≤ 8)

/-- CAL_UPDATE (R93, R94): at the next multiple of 10 ms of device time. Only on the CPLL fallback can a set be late. -/
def execCalUpdate (n : Fin 4) (offset gain bw skew : Fin 256) (ready : Bool) (s : State) :
    Host.Outcome State Fault Refusal :=
  live s fun s =>
    if !s.running || !s.chOn n || s.pairedOdd n || s.rd F.PRISM_CHn_CAL_CTRL_BG_EN n = 0 ||
        s.flag F.PRISM_CHn_STAT_CALIBRATING n then s else
    let i := roundUp (max s.devTime ((s.ch n).calAt + 1)) (10 * tickMs)
    let s := s.toDev i
    let t := s.gridFrom n i
    let s := s.setCh n { s.ch n with calAt := i }
    let busy := decide (t < (s.ch n).settleEnd) || s.clockFault t (t + s.span n)
    if busy || s.rd F.PRISM_CHn_CAL_CTRL_FREEZE n = 1 || s.host.frozen ||
        (!ready && s.flag F.CLOCK_CPLL_STAT_FALLBACK) then
      s.count F.PRISM_CHn_CAL_SKIP_CNT_COUNT 1 n
    else
      let ok := residOk offset gain bw skew
      let s := s.setCh n { s.ch n with sets := (s.ch n).sets.map (· + 1), converged := (s.ch n).converged || ok }
      let s := ((s.wr F.PRISM_CHn_CAL_RESID_OFFSET offset n).wr F.PRISM_CHn_CAL_RESID_GAIN gain n).wr
        F.PRISM_CHn_CAL_RESID_BW bw n
      let s := (s.wr F.PRISM_CHn_CAL_RESID_SKEW skew n).wr F.PRISM_CHn_STAT_BG_CONVERGED (b2n ok) n
      let s := (s.count F.PRISM_CHn_CAL_UPD_CNT_COUNT 1 n).wr F.PRISM_CHn_STAT_CAL_STALE 0 n
      (s.wr64 F.PRISM_CHn_CAL_UPD_STAMP_LO_STAMP F.PRISM_CHn_CAL_UPD_STAMP_HI_STAMP (t % 2 ^ 64) n).showOnline n

/-- CAL_STALE_TIMEOUT (R92): 1 s after the last word accumulated. -/
def execCalStaleTimeout (n : Fin 4) (s : State) : Host.Outcome State Fault Refusal :=
  live s fun s =>
    let c := s.ch n
    if !s.chOn n || s.rd F.PRISM_CHn_CAL_CTRL_BG_EN n = 0 then s else
    let base := match c.lastAcc with | some t => max t c.bgSince | none => c.bgSince
    (s.toDev (base + tickS)).setf F.PRISM_CHn_STAT_CAL_STALE n

/-! ### Foreground calibration (R96-R102) -/

/-- The channels of a mask, ascending. -/
def maskList (m : Nat) : List Nat := (List.range 4).filter (fun n => bit m n)

/-- Chiplets that a mask calibrates: a pair counts two (R100). -/
def State.chiplets (s : State) (m : Nat) : Nat := sumL ((maskList m).map (fun n => if s.paired n then 2 else 1))

/-- Whether a channel is held by a CALIBRATE (R99). -/
def State.calOwned (s : State) (n : Nat) : Bool :=
  s.host.jobs.any (fun j => j.admitted && j.kind = 0x60 && j.demand.claims.contains (.input n .record))

/-- The inputs that a use of channel `n` takes: a pair's two (R22, R78). -/
def State.inputsOf (s : State) (n : Nat) : List Nat := if s.paired n then [n, n + 1] else [n]

/-- The demands of a CALIBRATE (R97-R101). -/
def State.calPlan (s : State) (j : Job) : Plan :=
  let mask := j.bits 8 1 3 0
  let chs := maskList mask
  let addr := j.fld 16 8
  let pairs := countP s.paired chs
  let inj : AmuInj := { jid := 0, cal := false, entry := s.injEntry {} }
  let ticks := inj.time + 4 * tickMs + 146 * tickMs * s.chiplets mask + 20 * tickMs * pairs
  let extra := sumL (chs.map (fun n => if s.paired n then 0 else 11520 - chipletPower (s.ract F.PRISM_CHn_CTRL_RATE n)))
  let ins := (chs.map s.inputsOf).flatten
  { malformed := j.kflags ≠ 0 || j.bits 8 1 7 4 ≠ 0 || j.bits 9 1 7 1 ≠ 0 || mask = 0 || chs.any s.pairedOdd ||
      !restZero j.desc [(8, 2), (16, 8)]
    badAddr := addr ≠ 0 && rangeBad addr (64 * chs.length) 64
    stateOk := chs.all s.chOn && !s.offersBlock
    conflict := ins.any s.owned
    d2h := if addr = 0 then none else some 0
    demand := fun _ _ => { claims := ins.map (fun n => .input n .record), power := ceilDiv extra 128 + 8 }
    movers := fun rd _ => if addr = 0 then [] else [(0, rd, rd)]
    work := fun _ _ => ⟨ticks, tickUs⟩
    bytes := if addr = 0 then 0 else 64 * chs.length
    dur := fun _ _ => some ticks }

/-- CALIBRATE (R99): the AMU is asked for the source level; the channels follow once it is known. -/
def execCalibrate (s : State) : Host.Outcome State Fault Refusal :=
  live s fun s => s.admission 0x60 s.calPlan (fun s j =>
    let mask := j.bits 8 1 3 0
    let s := s.updJob j.jid (fun j => { j with anchor := some j.pickup })
    let r : CalRun := { jid := j.jid, keepOnFail := j.bits 9 1 0 0 = 1, mask := mask, todo := maskList mask }
    ({ s with prism := { s.prism with cal := s.prism.cal ++ [r] } }).calRequest j.jid)

/-- Replaces the calibration of job `jid`. -/
def State.setCal (s : State) (jid : Nat) (r : CalRun) : State :=
  { s with prism := { s.prism with cal := s.prism.cal.map (fun x => if x.jid = jid then r else x) } }

/-- Removes the calibration of job `jid`. -/
def State.dropCal (s : State) (jid : Nat) : State :=
  { s with prism := { s.prism with cal := s.prism.cal.filter (fun x => x.jid ≠ jid) } }

/-- A channel's banks are isolated: it sends no words to any consumer (R99). -/
def State.calAway (s : State) (n : Nat) : State := (s.setCh n { s.ch n with isolating := false }).lanAway n

/-- The calibration of a channel begins (R99): its banks are isolated at the next bank-aligned word. -/
def State.calIsolate (s : State) (n : Nat) (level : Int) : State :=
  let c := s.ch n
  let s := s.setCh n { c with oldSets := c.sets, isolating := true }
  let s := (s.setf F.PRISM_CHn_STAT_CALIBRATING n).wr F.PRISM_CHn_SRC_LEVEL_LEVEL (unsg 32 level) n
  (if s.running && s.chOn n && !s.bankAligned n c.idx then s else s.calAway n).showOnline n

/-- The DETAIL word of CALIBRATE (R101). -/
def CalRun.detail (r : CalRun) : Nat :=
  let m (l : List Nat) : Nat := sumL (l.map (fun n => 2 ^ n))
  m r.todo * 2 ^ 8 + m r.failed * 2 ^ 4 + m r.passed

/-- The report entry of a channel that was not run (R98). -/
def CalRun.notRun (r : CalRun) (n : Nat) : Bytes :=
  leBytes 1 n ++ leBytes 1 2 ++ zeros 2 ++ leBytes 4 (unsg 32 (r.level.getD 0)) ++ zeros 56

/-- The next channel of a calibration begins, or with none left the report and the final record follow (R98-R102). Start-up
calibration is no job and has the identifier 0 (R96). -/
def State.calNext (s : State) (r : CalRun) : State :=
  match r.todo with
  | n :: _ => (s.setCal r.jid r).calIsolate n (r.level.getD 0)
  | [] =>
    let s := s.dropCal r.jid
    if r.jid = 0 then
      let s := if r.failed.isEmpty then s else s.setf F.GLOBAL_STATUS_DEGRADED
      ({ s with power := { s.power with calDone := true } }).wr F.GLOBAL_STATUS_STAGE 4
    else
    let fin (j : Job) : Job := { j with detail := r.detail, fPartial := !r.failed.isEmpty }
    match s.job? r.jid with
    | none => s
    | some j =>
      if j.fld 16 8 = 0 then s.endJob r.jid fin
      else
        (s.updJob r.jid (fun j => { fin j with autoEnd := true })).queueElems r.jid (s.chanOn r.jid 0)
          (outElems (j.fld 16 8) r.report)

/-- The AMU has read the calibration source, in µV (R99). -/
def State.calLevel (s : State) (jid : Nat) (uv : Int) : State :=
  match s.prism.cal.find? (fun r => r.jid = jid) with
  | none => s
  | some r => s.calNext { r with level := some uv }

/-- A channel reconnects at the first bank-aligned word at or after device time `from'` (R99); no overrange or overdrive run
reaches across the calibration. -/
def State.calReconnect (s : State) (n from' : Nat) : State :=
  let c := s.ch n
  let b := byCycles c.shift c.nextT
  let k := ceilDiv (from' - b) (s.span n)
  let i := roundUp (c.idx + k) (if s.paired n then 16 else 8)
  let t := if !s.chOn n then s.boundary else b + (i - c.idx) * s.span n
  let s := s.setCh n { c with
    idx := if s.chOn n then i else c.idx, nextT := t, shift := 0, isolating := false, reconn := false
    ovrFirst := none, ovrLast := 0, ovrTrip := false, ovrLong := false, nbrRun := false, clkRun := false }
  let s := s.wr64 F.PRISM_CHn_FG_STAMP_LO_STAMP F.PRISM_CHn_FG_STAMP_HI_STAMP (t % 2 ^ 64) n
  ((s.wr F.PRISM_CHn_STAT_CALIBRATING 0 n).showOnline n).penRestart n

/-- One 64-byte entry of the report (R98). -/
def State.calEntryBytes (s : State) (n result : Nat) (temp : Int) (level : Int) (o g k b : Nat) (ot st : Int) : Bytes :=
  leBytes 1 n ++ leBytes 1 result ++ leBytes 2 (unsg 16 temp) ++ leBytes 4 (unsg 32 level) ++
    leBytes 8 (s.rd64 F.PRISM_CHn_FG_STAMP_LO_STAMP F.PRISM_CHn_FG_STAMP_HI_STAMP n) ++
    leBytes 2 o ++ leBytes 2 g ++ leBytes 2 k ++ leBytes 2 b ++ leBytes 4 (unsg 32 ot) ++ leBytes 4 (unsg 32 st) ++ zeros 32

/-- CALIBRATE_CHANNEL_DONE (R99): sets are installed or restored, the banks reconnect, and the next channel begins. -/
def execCalibrateChannelDone (pass : Bool) (temp : Int) (offset gain skew bw : Fin 65536) (offTrim skewTrim : Int)
    (s : State) : Host.Outcome State Fault Refusal :=
  live s fun s =>
    match s.prism.cal.find? (fun r => r.level.isSome) with
    | none => s
    | some r =>
      match r.todo with
      | [] => s
      | n :: rest =>
        let c := s.ch n
        let s := s.wr F.PRISM_CHn_TEMP_NOW (unsg 16 temp) n
        let s := s.wr F.PRISM_CHn_STAT_CAL_FAIL (b2n (!pass)) n
        let s := if pass then
            let s := s.setCh n { c with sets := c.sets.map (· + 1), converged := false }
            ((s.setf F.PRISM_CHn_STAT_CAL_VALID n).wr F.PRISM_CHn_STAT_BG_CONVERGED 0 n).wr F.PRISM_CHn_TEMP_AT_FG (unsg 16 temp) n
          else if r.keepOnFail then s.setCh n { c with sets := c.oldSets }
          else s.wr F.PRISM_CHn_STAT_CAL_VALID 0 n
        let s := s.calReconnect n s.devTime
        let entry := s.calEntryBytes n (b2n (!pass)) temp (r.level.getD 0) offset gain skew bw offTrim skewTrim
        s.calNext { r with
          todo := rest, passed := if pass then r.passed ++ [n] else r.passed
          failed := if pass then r.failed else r.failed ++ [n], report := r.report ++ entry }

/-- The channel in progress of a calibration that is cut has its previous sets back and reconnects, once the clock is clean
(R102); where it was not isolated yet, nothing is left to reconnect. -/
def State.calRestore (s : State) (n : Nat) : State :=
  let c := s.ch n
  if c.isolating then
    ((s.setCh n { c with sets := c.oldSets, isolating := false }).wr F.PRISM_CHn_STAT_CALIBRATING 0 n).showOnline n
  else if s.clk.lossT.isSome && s.clk.relockT.isNone then s.setCh n { c with sets := c.oldSets, reconn := true }
  else (s.setCh n { c with sets := c.oldSets }).calReconnect n s.devTime

/-- The channels whose calibration a lock loss cut reconnect at the first bank-aligned clean word, from `t` on (R102). -/
def State.calClean (s : State) (t : Nat) : State :=
  (List.range 4).foldl (fun s n => if (s.ch n).reconn then s.calReconnect n t else s) s

/-- A calibration is cut short (R102): the channel in progress has its previous sets back and reconnects, and it counts
with those not reached as not run. The job's DETAIL says so. -/
def State.calCut (s : State) (jid : Nat) : State :=
  match s.prism.cal.find? (fun r => r.jid = jid) with
  | none => s
  | some r =>
    let s := (s.dropCal jid).dropInj jid
    let s := match r.level, r.todo with
      | some _, n :: _ => s.calRestore n
      | _, _ => s
    s.updJob jid (fun j => { j with detail := r.detail })

end Sys2Proof.Machine
end

