-- ==== Sys2Proof/Machine/Tile.lean ====
section
/-! DEFINITION. Machine/Tile.lean: one Lumen tile: fields of a bundle, its legality, what it computes, and when later
bundles see it (R279-R296). Everything here is about a single tile; gangs, stalls and items stand in TileCmds. -/
namespace Sys2Proof.Machine

/-! ### Fields of a bundle (R281, R282) -/

def opc (w : Nat) : Nat := bits w 63 56
def fd (w : Nat) : Nat := bits w 55 50
def fa (w : Nat) : Nat := bits w 49 44
def fb (w : Nat) : Nat := bits w 43 38
def fm (w : Nat) : Nat := bits w 37 36
def fx (w : Nat) : Nat := bits w 49 36
def imm (w : Nat) : Nat := bits w 31 0
/-- SH, signed -16 to +15. -/
def sh (w : Nat) : Int := sgn 5 (bits w 43 39)
def satBit (w : Nat) : Bool := bit w 38

/-- The move of bus `b` (0 X, 1 Y, 2 C). -/
def moveOf (w b : Nat) : Nat := w / 2 ^ (24 - 12 * b) % 4096
def mvOn (m : Nat) : Bool := bit m 11
def mvStore (m : Nat) : Bool := bit m 10
def mvA (m : Nat) : Nat := bits m 9 7
def mvMod (m : Nat) : Bool := bit m 6
def mvReg (m : Nat) : Nat := bits m 5 0

/-- The formats of R281. -/
inductive Fmt where
  | r | s | l
deriving DecidableEq, Repr

/-- A row of R283: OPC, format, and the bits of FD, FA, FB (or SH and SAT), FM, FX and IMM that the operation lists. -/
structure OpRow where
  code : Nat
  fmt : Fmt
  fd : Nat
  fa : Nat
  fb : Nat
  fm : Nat
  fx : Nat
  imm : Nat
deriving DecidableEq, Repr

/-- Rows of formats R and S. -/
def rowsRS : List OpRow :=
  [⟨0x00, .r, 0, 0, 0, 0, 0, 0⟩, ⟨0x01, .r, 7, 63, 63, 3, 0, 0⟩, ⟨0x02, .r, 4, 63, 63, 3, 0, 0⟩,
   ⟨0x03, .r, 7, 63, 0, 0, 0, 0⟩, ⟨0x04, .r, 63, 7, 0, 0, 0, 0⟩, ⟨0x05, .s, 63, 7, 63, 3, 0, 0⟩,
   ⟨0x06, .s, 63, 63, 63, 0, 0, 0⟩, ⟨0x07, .s, 63, 63, 62, 0, 0, 0⟩, ⟨0x08, .r, 63, 63, 0, 0, 0, 0⟩,
   ⟨0x09, .r, 63, 63, 63, 0, 0, 0⟩, ⟨0x0A, .r, 63, 63, 63, 0, 0, 0⟩, ⟨0x0B, .r, 63, 63, 63, 0, 0, 0⟩,
   ⟨0x0C, .r, 63, 63, 63, 0, 0, 0⟩, ⟨0x0D, .r, 63, 63, 63, 0, 0, 0⟩, ⟨0x0E, .r, 63, 63, 63, 1, 0, 0⟩,
   ⟨0x0F, .r, 63, 63, 63, 1, 0, 0⟩, ⟨0x10, .r, 0, 63, 63, 0, 0, 0⟩, ⟨0x11, .s, 63, 63, 63, 0, 0, 0⟩] ++
  [⟨0x12, .s, 63, 63, 62, 0, 0, 0⟩, ⟨0x13, .r, 63, 7, 0, 3, 0, 0⟩, ⟨0x14, .r, 63, 63, 0, 0, 0, 0⟩,
   ⟨0x15, .r, 63, 63, 0, 0, 0, 0⟩, ⟨0x16, .r, 63, 0, 15, 3, 0, 0⟩, ⟨0x17, .r, 0, 63, 15, 3, 0, 0⟩,
   ⟨0x26, .r, 0, 0, 0, 0, 0, 0⟩, ⟨0x27, .r, 0, 0, 0, 0, 0, 0⟩, ⟨0x2A, .r, 0, 0, 0, 0, 0, 0⟩,
   ⟨0x30, .r, 63, 0, 0, 0, 0, 0⟩, ⟨0x31, .r, 0, 0, 0, 0, 0, 0⟩, ⟨0x32, .r, 0, 0, 0, 0, 0, 0⟩,
   ⟨0x33, .r, 0, 0, 0, 0, 0, 0⟩, ⟨0x34, .r, 63, 63, 0, 0, 0, 0⟩, ⟨0x35, .r, 0, 63, 63, 0, 0, 0⟩,
   ⟨0x36, .r, 0, 0, 0, 0, 0, 0⟩, ⟨0x37, .r, 0, 0, 0, 0, 0, 0⟩, ⟨0x38, .r, 0, 0, 0, 0, 0, 0⟩,
   ⟨0x3F, .r, 0, 0, 0, 0, 0, 0⟩]

/-- Rows of format L. -/
def rowsL : List OpRow :=
  [⟨0x20, .l, 63, 0, 0, 0, 0, 0xFFFFFFFF⟩, ⟨0x21, .l, 63, 0, 0, 0, 0, 0xFFFFFFFF⟩,
   ⟨0x22, .l, 0b110111, 0, 0, 0, 0, 0xFFFFFFFF⟩, ⟨0x23, .l, 7, 0, 0, 0, 0, 0xFFFFFFFF⟩,
   ⟨0x24, .l, 7, 0, 0, 0, 0x7FF, 0⟩, ⟨0x25, .l, 0, 0, 0, 0, 0x7FF, 0⟩, ⟨0x28, .l, 15, 0, 0, 0, 0x7FF, 0xFFFF⟩,
   ⟨0x29, .l, 13, 0, 0, 0, 0, 0xFF⟩]

/-- The row of an OPC, if it is listed in R283. -/
def opRow (c : Nat) : Option OpRow := (rowsRS ++ rowsL).find? (fun r => r.code = c)

/-- Whether a field holds only listed bits. -/
def only (v mask : Nat) : Bool := v &&& mask == v

/-- The moves of a bundle that are on, each with its bus; none in format L. -/
def movesOf (w : Nat) : List (Nat × Nat) :=
  match opRow (opc w) with
  | some r => if r.fmt = .l then [] else ((List.range 3).map (fun b => (b, moveOf w b))).filter (fun m => mvOn m.2)
  | none => []

/-- Whether a list holds some value twice. -/
def hasTwice : List Nat → Bool
  | [] => false
  | x :: xs => xs.contains x || hasTwice xs

/-- The ring-step rule of R296 on FD of a LOOP or REP. -/
def ringBad (f : Nat) : Bool :=
  let s := bits f 3 2
  s = 3 || (s ≠ 0 && !bit f 0)

/-- The ring step: 1, 2 or 4 registers with ROT, else 0 (R296). -/
def ringStep (f : Nat) : Nat := if bit f 0 then 2 ^ bits f 3 2 else 0

/-- The range of a SETA field, on IMM as a signed 32-bit number (R279, R283). -/
def setaOk (field : Nat) (v : Int) : Bool :=
  match field with
  | 0 | 1 => decide (0 ≤ v ∧ v < 8192)
  | 2 => decide (0 ≤ v ∧ v ≤ 8192)
  | _ => decide (-8192 ≤ v ∧ v < 8192)

/-- ILLEGAL (R284): a bundle that breaks R281-R283 or the ring-step rule, modifies one An twice, loads one register in two
moves, or has a condition code of 5-7. Bits that an operation does not list must be 0. -/
def illegal (w : Nat) : Bool :=
  match opRow (opc w) with
  | none => true
  | some r =>
    let ms := movesOf w
    let mods := (ms.filter (fun m => mvMod m.2)).map (fun m => mvA m.2) ++
      (if (r.code = 0x16 ∨ r.code = 0x17) ∧ bit (fb w) 3 then [bits (fb w) 2 0] else [])
    let loads := (ms.filter (fun m => !mvStore m.2)).map (fun m => mvReg m.2)
    let fields := match r.fmt with
      | .l => only (fd w) r.fd && only (fx w) r.fx && decide (bits w 35 32 = 0) &&
          (if r.code = 0x28 ∧ bit (fd w) 1 then only (imm w) 0x1F else only (imm w) r.imm)
      | _ => only (fd w) r.fd && only (fa w) r.fa && only (fb w) r.fb && only (fm w) r.fm &&
          (List.range 3).all (fun b => mvOn (moveOf w b) || moveOf w b = 0)
    !fields || hasTwice mods || hasTwice loads ||
      ((r.code = 0x16 || r.code = 0x17) && (fm w = 3 || ms.any (fun m => m.1 = fm w))) ||
      ((r.code = 0x28 || r.code = 0x29) && ringBad (fd w)) ||
      (r.code = 0x24 && decide (5 ≤ bits (fd w) 2 0)) ||
      (r.code = 0x14 && decide (14 < fa w)) || (r.code = 0x15 && decide (14 < fd w)) ||
      (r.code = 0x22 && !setaOk (bits (fd w) 5 4) (sgn 32 (imm w)))

/-! ### Registers, memories, addresses -/

/-- The physical register a 6-bit name stands for now (R279, R285). -/
def TileSt.phys (t : TileSt) (r : Nat) : Nat := if r < 32 then r else 32 + (r - 32 + t.roff) % 32

/-- The value of a register name. -/
def TileSt.get (t : TileSt) (r : Nat) : DWord := kget t.regs (t.phys r) 0

/-- Lane `i` of a register, signed (R280). -/
def laneOf (v : DWord) (i : Nat) : Int := sgn 16 (v.toNat / 2 ^ (16 * i))

/-- Four lanes as a register (R280). -/
def packLanes (f : Nat → Int) : DWord :=
  BitVec.ofNat 64 (unsg 16 (f 0) + 2 ^ 16 * unsg 16 (f 1) + 2 ^ 32 * unsg 16 (f 2) + 2 ^ 48 * unsg 16 (f 3))

/-- The signed 64-bit value of a register. -/
def sreg (v : DWord) : Int := sgn 64 v.toNat

/-- Address register `n`. -/
def TileSt.areg (t : TileSt) (n : Nat) : AReg := kget t.aregs n {}

/-- addr(a, d) of R290. -/
def AReg.at (r : AReg) (d : Int) : Nat :=
  if r.len = 0 then (((r.addr : Int) + d) % 8192).toNat
  else (((r.base : Int) + ((r.addr : Int) - (r.base : Int) + d) % (r.len : Int)) % 8192).toNat

/-- Data memory 0 X, 1 Y, 2 C. -/
def TileSt.dmem (t : TileSt) (b : Nat) : KMap (BitVec 16) := if b = 0 then t.x else if b = 1 then t.y else t.c

/-- Replaces a data memory. -/
def TileSt.setDmem (t : TileSt) (b : Nat) (m : KMap (BitVec 16)) : TileSt :=
  if b = 0 then { t with x := m } else if b = 1 then { t with y := m } else { t with c := m }

/-- Accumulators (R279). -/
def TileSt.macAcc (t : TileSt) (n : Nat) : Int := kget t.accM n 0
def TileSt.seenAcc (t : TileSt) (n : Nat) : Int := kget t.accS n 0

/-! ### Effects that land later -/

/-- Inserts an effect in key order, after those of its key. -/
def insertEff (x : Nat × TEff) : List (Nat × TEff) → List (Nat × TEff)
  | [] => [x]
  | y :: ys => if x.1 < y.1 then x :: y :: ys else y :: insertEff x ys

/-- An effect that bundles issued `d` cycles later are the first to see. -/
def TileSt.post (t : TileSt) (d : Nat) (e : TEff) : TileSt :=
  { t with pend := insertEff (2 * (t.cyc + d) + 1, e) t.pend }

/-- Post-modification of An: ADDR steps, seen by the next bundle, and yields to a SETA or ADDA of the same cycle
(R286, R289, R290). -/
def TileSt.postMod (t : TileSt) (n : Nat) : TileSt :=
  { t with pend := insertEff (2 * (t.cyc + 1), .adr n 0 (((t.areg n).at (t.areg n).step : Nat) : Int)) t.pend }

/-- SR bits that are sticky: AOV, SAT, NAN (R279). -/
def stickyMask : Nat := 0b111000

/-- One effect takes place. -/
def TEff.apply (e : TEff) (t : TileSt) : TileSt :=
  match e with
  | .reg r v => { t with regs := kset t.regs r v 0 }
  | .lane r i v =>
    let o := (kget t.regs r 0).toNat
    { t with regs := kset t.regs r (BitVec.ofNat 64 (o - o / 2 ^ (16 * i) % 65536 * 2 ^ (16 * i) + v.toNat * 2 ^ (16 * i))) 0 }
  | .high r v => { t with regs := kset t.regs r (BitVec.ofNat 64 ((kget t.regs r 0).toNat % 2 ^ 32 + v.toNat * 2 ^ 32)) 0 }
  | .acc n v => { t with accS := kset t.accS n v 0 }
  | .adr n f v =>
    let a := t.areg n
    let a := match f with
      | 0 => { a with addr := v.toNat }
      | 1 => { a with base := v.toNat }
      | 2 => { a with len := v.toNat }
      | _ => { a with step := v }
    { t with aregs := kset t.aregs n a {} }
  | .flags z n => { t with sr := (t.sr &&& 0b111001) ||| (2 * b2n z + 4 * b2n n) }
  | .ie on => { t with sr := (t.sr &&& 0b111110) ||| b2n on }
  | .sr v => { t with sr := v % 64, raised := t.raised ||| (v &&& (t.sr ^^^ 63) &&& stickyMask) }
  | .sticky v => { t with sr := t.sr ||| v, raised := t.raised ||| v }
  | .spec i v =>
    match i with
    | 1 => { t with ipend := t.ipend &&& (15 ^^^ (v &&& 0b1100)) }
    | 2 => { t with imask := v % 16 }
    | 3 => { t with roff := v % 32 }
    | 5 => { t with tcmp := v % 2 ^ 32 }
    | 10 => { t with spc := v % 2048 }
    | 11 => { t with ssr := v % 64 }
    | 12 => { t with sroff := v % 32 }
    | _ => t

/-- Effects due by cycle `c` take place, in order. -/
def landUpTo (c : Nat) : List (Nat × TEff) → TileSt → TileSt
  | [], t => { t with pend := [] }
  | e :: es, t => if e.1 / 2 ≤ c then landUpTo c es (e.2.apply t) else { t with pend := e :: es }

/-- One level or event leaves the synchroniser (R299). -/
def syncBit (p : Nat) (bitNo : Nat) (on : Bool) : Nat := if on then p ||| 2 ^ bitNo else p &&& (15 ^^^ 2 ^ bitNo)

/-- What has passed the synchroniser by cycle `c` reaches IPEND. -/
def syncUpTo (c : Nat) (t : TileSt) : TileSt :=
  { t with
    ipend := (t.sync.filter (fun x => decide (x.1 ≤ c))).foldl (fun p x => syncBit p x.2.1 x.2.2) t.ipend
    sync := t.sync.filter (fun x => decide (c < x.1)) }

/-- The tile as a bundle that issues now sees it. -/
def TileSt.now (t : TileSt) : TileSt := syncUpTo t.cyc (landUpTo t.cyc t.pend t)

/-- Everything issued completes (R300, R303). -/
def TileSt.drain (t : TileSt) : TileSt := landUpTo (t.cyc + 8) t.pend t

/-- `n` cycles pass; TIMER enters the synchroniser where CYCLE meets TCMP (R298, R299). -/
def TileSt.tick (t : TileSt) (n : Nat) (counted : Bool) : TileSt :=
  let m := t.cyc + (t.tcmp + 2 ^ 32 - (t.cyc + 1) % 2 ^ 32) % 2 ^ 32 + 1
  let sync := if m ≤ t.cyc + n then t.sync ++ [(m + 2, 2, true)] else t.sync
  { t with cyc := t.cyc + n, sync := sync, since := if counted && t.timed then t.since + n else t.since }

/-- Items delivered and not taken (R298). -/
def TileSt.avail (t : TileSt) : Nat := countP (fun i => !i.taken) t.held

/-- The INPUT and OUTPUT levels enter the synchroniser. -/
def TileSt.levels (t : TileSt) (outSlots : Nat) : TileSt :=
  { t with sync := t.sync ++ [(t.cyc + 2, 0, decide (0 < t.avail)), (t.cyc + 2, 1, decide (t.outBusy < outSlots))] }

/-! ### Arithmetic -/

/-- `x × 2^e` for `e ≥ 0` exactly, and for `e < 0` rounded: convergent in gangs of 16, half up otherwise (R292). -/
def roundShift (conv : Bool) (x e : Int) : Int :=
  if 0 ≤ e then x * 2 ^ e.toNat
  else
    let d : Int := 2 ^ (-e).toNat
    if conv then
      let q := x / d
      let r := x - q * d
      if 2 * r < d then q else if d < 2 * r then q + 1 else if q % 2 = 0 then q else q + 1
    else (2 * x + d) / (2 * d)

/-- A 16-bit result: clamped with `sat`, else its low 16 bits; and whether clamping changed it (R291). -/
def to16 (sat : Bool) (y : Int) : Int × Bool :=
  if sat then (clampI (-32768) 32767 y, decide (y < -32768 ∨ 32767 < y)) else (sgn 16 (unsg 16 y), false)

/-- The bit of a sticky flag, if set. -/
def stickyIf (b : Bool) (m : Nat) : Nat := if b then m else 0

/-- Posts sticky bits, where any are set; GETS sees them two bundles later (R287). -/
def TileSt.stick (t : TileSt) (v : Nat) : TileSt := if v = 0 then t else t.post 2 (.sticky v)

/-- An accumulator takes the exact value `x`: modulo 2^40, and AOV where it does not fit (R287, R291). -/
def TileSt.setAcc (t : TileSt) (n : Nat) (x : Int) : TileSt :=
  let v := sgn 40 (unsg 40 x)
  ({ t with accM := kset t.accM n v 0 }.post 2 (.acc n v)).stick (stickyIf (v != x) 8)

/-- One MAC update with product `p` (R283). -/
def TileSt.mac (t : TileSt) (w n : Nat) (p : Int) : TileSt :=
  t.setAcc n ((if bit (fm w) 0 then 0 else t.macAcc n) + (if bit (fm w) 1 then -p else p))

/-- A binary32 as sign, mantissa and exponent of the value `m × 2^e`; none for a NaN, and a mantissa of none for an
infinity. -/
def f32 (v : Nat) : Option (Bool × Option Nat × Int) :=
  let s := bit v 31
  let e := bits v 30 23
  let m := bits v 22 0
  if e = 255 then (if m = 0 then some (s, none, 0) else none)
  else if e = 0 then some (s, some m, -149)
  else some (s, some (m + 2 ^ 23), (e : Int) - 150)

/-- An integer times `2^e` as a binary32, for an integer of at most 24 bits (R293). -/
def toF32 (x e : Int) : Nat :=
  if x = 0 then 0 else
  let a := x.natAbs
  let k := a.log2
  (if x < 0 then 2 ^ 31 else 0) + ((e + k + 127).toNat) * 2 ^ 23 + (a * 2 ^ (23 - k) - 2 ^ 23)

/-- The integer that FCVT makes of one binary32 (R293): the 16-bit result and the sticky bits. An infinity without
saturation has no stated result: a free value. -/
def fcvt1 (v : Nat) (shift : Int) (sat : Bool) : Int × Nat :=
  match f32 v with
  | none => (0, 0b100000)
  | some (s, some m, e) =>
    let r := to16 sat (roundShift true (if s then -(m : Int) else m) (e + shift))
    (r.1, stickyIf r.2 0b010000)
  | some (s, none, _) =>
    if sat then ((if s then -32768 else 32767), 0b010000)
    else (sgn 16 (Config.arith 0x11 [v, (shift + 16).toNat]), 0)

/-! ### The primary operations that touch one tile alone -/

/-- A result in register FD, seen `d` bundles later. -/
def TileSt.result (t : TileSt) (w d : Nat) (v : DWord) : TileSt := t.post d (.reg (t.phys (fd w)) v)

/-- A lane-wise sum or difference (ADD4, SUB4): FM[0] saturates and sets SAT (R283). -/
def TileSt.lanes4 (t : TileSt) (w : Nat) (f : Int → Int → Int) : TileSt :=
  let y (i : Nat) : Int × Bool := to16 (bit (fm w) 0) (f (laneOf (t.get (fa w)) i) (laneOf (t.get (fb w)) i))
  (t.result w 1 (packLanes (fun i => (y i).1))).stick
    (stickyIf ((List.range 4).any (fun i => (y i).2)) 0b010000)

def tileNop (_ : Nat) (t : TileSt) : TileSt := t

/-- MAC4 (R283). -/
def tileMac4 (w : Nat) (t : TileSt) : TileSt :=
  let p := ((List.range 4).map (fun i => laneOf (t.get (fa w)) i * laneOf (t.get (fb w)) i)).foldl (· + ·) 0
  t.mac w (fd w) p

/-- MACP (R283). -/
def tileMacp (w : Nat) (t : TileSt) : TileSt :=
  (List.range 4).foldl (fun u i =>
    u.mac w (4 * bits (fd w) 2 2 + i) (laneOf (t.get (fa w)) i * laneOf (t.get (fb w)) i)) t

/-- ACCLD (R283). -/
def tileAccld (w : Nat) (t : TileSt) : TileSt := t.setAcc (fd w) (sgn 40 (t.get (fa w)).toNat)

/-- ACCST (R283). -/
def tileAccst (w : Nat) (t : TileSt) : TileSt := t.result w 2 (BitVec.ofNat 64 (unsg 64 (t.seenAcc (fa w))))

/-- EXT (R291). -/
def tileExt (conv : Bool) (w : Nat) (t : TileSt) : TileSt :=
  let r := to16 (satBit w) (roundShift conv (t.seenAcc (fa w)) (sh w - 16))
  (t.post 2 (.lane (t.phys (fd w)) (fm w) (BitVec.ofNat 16 (unsg 16 r.1)))).stick (stickyIf r.2 0b010000)

/-- MOVS (R291). -/
def tileMovs (conv : Bool) (w : Nat) (t : TileSt) : TileSt :=
  let y (i : Nat) : Int × Bool := to16 (satBit w) (roundShift conv (laneOf (t.get (fa w)) i) (sh w))
  (t.result w 2 (packLanes (fun i => (y i).1))).stick (stickyIf ((List.range 4).any (fun i => (y i).2)) 0b010000)

/-- SHA (R283). -/
def tileSha (w : Nat) (t : TileSt) : TileSt :=
  let x := sreg (t.get (fa w))
  let y := if 0 ≤ sh w then x * 2 ^ (sh w).toNat else x / 2 ^ (-(sh w)).toNat
  t.result w 1 (BitVec.ofNat 64 (unsg 64 y))

def tileMov (w : Nat) (t : TileSt) : TileSt := t.result w 1 (t.get (fa w))
def tileAdd (w : Nat) (t : TileSt) : TileSt := t.result w 1 (t.get (fa w) + t.get (fb w))
def tileSub (w : Nat) (t : TileSt) : TileSt := t.result w 1 (t.get (fa w) - t.get (fb w))
def tileAnd (w : Nat) (t : TileSt) : TileSt := t.result w 1 (t.get (fa w) &&& t.get (fb w))
def tileOr (w : Nat) (t : TileSt) : TileSt := t.result w 1 (t.get (fa w) ||| t.get (fb w))
def tileXor (w : Nat) (t : TileSt) : TileSt := t.result w 1 (t.get (fa w) ^^^ t.get (fb w))
def tileAdd4 (w : Nat) (t : TileSt) : TileSt := t.lanes4 w (· + ·)
def tileSub4 (w : Nat) (t : TileSt) : TileSt := t.lanes4 w (· - ·)

/-- CMP (R283). -/
def tileCmp (w : Nat) (t : TileSt) : TileSt :=
  t.post 1 (.flags (t.get (fa w) = t.get (fb w)) (decide (sreg (t.get (fa w)) < sreg (t.get (fb w)))))

/-- FCVT (R293). -/
def tileFcvt (w : Nat) (t : TileSt) : TileSt :=
  let v := (t.get (fa w)).toNat
  let a := fcvt1 (v % 2 ^ 32) (sh w) (satBit w)
  let b := fcvt1 (v / 2 ^ 32) (sh w) (satBit w)
  (t.result w 2 (packLanes (fun i => if i = 0 then a.1 else if i = 1 then b.1 else 0))).stick (a.2 ||| b.2)

/-- ICVT (R293). -/
def tileIcvt (w : Nat) (t : TileSt) : TileSt :=
  let v := t.get (fa w)
  t.result w 2 (BitVec.ofNat 64 (toF32 (laneOf v 0) (sh w) + 2 ^ 32 * toF32 (laneOf v 1) (sh w)))

/-- GETA (R283). -/
def tileGeta (w : Nat) (t : TileSt) : TileSt :=
  let a := t.areg (fa w)
  let v : Int := match fm w with | 0 => a.addr | 1 => a.base | 2 => a.len | _ => a.step
  t.result w 1 (BitVec.ofNat 64 (unsg 64 v))

/-- PUTS (R298): writes of read-only registers have no effect. -/
def tilePuts (w : Nat) (t : TileSt) : TileSt :=
  let v := (t.get (fa w)).toNat
  if fd w = 0 then t.post 1 (.sr v) else t.post 1 (.spec (fd w) v)

/-- The address that LDE or STE uses, and the memory. -/
def elemAt (w : Nat) (t : TileSt) : Nat := (t.areg (bits (fb w) 2 0)).at 0

/-- The post-modification of LDE and STE. -/
def TileSt.elemMod (t : TileSt) (w : Nat) : TileSt := if bit (fb w) 3 then t.postMod (bits (fb w) 2 0) else t

/-- LDE (R283). -/
def tileLde (w : Nat) (t : TileSt) : TileSt :=
  let v := kget (t.dmem (fm w)) (elemAt w t) 0
  (t.result w 3 (BitVec.ofNat 64 (unsg 64 (sgn 16 v.toNat)))).elemMod w

/-- STE (R283). -/
def tileSte (w : Nat) (t : TileSt) : TileSt :=
  (t.setDmem (fm w) (kset (t.dmem (fm w)) (elemAt w t) (BitVec.ofNat 16 (t.get (fa w)).toNat) 0)).elemMod w

/-- MOVI (R283). -/
def tileMovi (w : Nat) (t : TileSt) : TileSt := t.result w 1 (BitVec.ofNat 64 (unsg 64 (sgn 32 (imm w))))

/-- MOVIH (R283). -/
def tileMovih (w : Nat) (t : TileSt) : TileSt := t.post 1 (.high (t.phys (fd w)) (BitVec.ofNat 32 (imm w)))

/-- SETA (R283). -/
def tileSeta (w : Nat) (t : TileSt) : TileSt := t.post 2 (.adr (bits (fd w) 2 0) (bits (fd w) 5 4) (sgn 32 (imm w)))

/-- ADDA (R290): IMM is taken as its low 14 bits, signed. -/
def tileAdda (w : Nat) (t : TileSt) : TileSt :=
  let n := bits (fd w) 2 0
  t.post 2 (.adr n 0 (((t.areg n).at (sgn 14 (imm w)) : Nat) : Int))

def tileEi (_ : Nat) (t : TileSt) : TileSt := t.post 1 (.ie true)
def tileDi (_ : Nat) (t : TileSt) : TileSt := t.post 1 (.ie false)

/-! ### Parallel moves -/

/-- One parallel move (R280, R282): a load is seen three bundles later, a store by the next bundle. -/
def tileMove (b m : Nat) (t : TileSt) : TileSt :=
  let a := t.areg (mvA m)
  let t := if mvStore m then
      let v := t.get (mvReg m)
      t.setDmem b ((List.range 4).foldl (fun d (i : Nat) =>
        kset d (a.at (i : Int)) (BitVec.ofNat 16 (unsg 16 (laneOf v i))) 0) (t.dmem b))
    else t.post 3 (.reg (t.phys (mvReg m))
      (packLanes (fun (i : Nat) => sgn 16 (kget (t.dmem b) (a.at (i : Int)) 0).toNat)))
  if mvMod m then t.postMod (mvA m) else t

/-- The parallel moves of a bundle; each reads the memory that its bundle found. -/
def tileMoves (w : Nat) (t : TileSt) : TileSt := (movesOf w).foldl (fun t m => tileMove m.1 m.2 t) t

end Sys2Proof.Machine
end

