-- ==== Sys2Proof/Machine/TileOps.lean ====
section
/-! DEFINITION. Machine/TileOps.lean: units of tiles: issue, delay slots, loops, stalls, interrupts, faults, items and
outputs, and the pool window (R284, R288, R294-R310, R319-R329). -/
namespace Sys2Proof.Machine

/-- Tile `n`. -/
def State.tile (s : State) (n : Nat) : TileSt := kget s.lumen.tiles n {}

/-- Replaces tile `n`. -/
def State.setTile (s : State) (n : Nat) (t : TileSt) : State :=
  { s with lumen := { s.lumen with tiles := kset s.lumen.tiles n t {} } }

/-- Applies `f` to tile `n`. -/
def State.onTile (s : State) (n : Nat) (f : TileSt → TileSt) : State := s.setTile n (f (s.tile n))

/-- The run of job `jid`. -/
def State.run? (s : State) (jid : Nat) : Option RunSt := s.lumen.runs.find? (fun r => r.jid = jid)

/-- Applies `f` to the run of job `jid`. -/
def State.onRun (s : State) (jid : Nat) (f : RunSt → RunSt) : State :=
  { s with lumen := { s.lumen with runs := s.lumen.runs.map (fun r => if r.jid = jid then f r else r) } }

/-- The tiles of the unit that tile `l` leads (R304). -/
def RunSt.unit (r : RunSt) (l : Nat) : List Nat := (List.range r.g).map (· + l)

/-- Applies `f` to every tile of a unit. -/
def State.onUnit (s : State) (r : RunSt) (l : Nat) (f : TileSt → TileSt) : State :=
  (r.unit l).foldl (fun s n => s.onTile n f) s

/-! ### The pool -/

/-- Page size (R320). -/
def pageSize : Nat := 4096

/-- What a byte of the pool that is not listed reads as: 0, or its page's undefined fill. -/
def State.poolFill (s : State) (a : Nat) : Byte :=
  let f := kget s.pool.fill (a / pageSize) 0
  if f = 0 then 0 else Config.freeByte f a

/-- One byte of the pool. -/
def State.poolByte (s : State) (a : Nat) : Byte := kget s.pool.mem a (s.poolFill a)

/-- A write of one byte through a view: plain, set or clear (R327). -/
def State.poolPut (s : State) (view a : Nat) (v : Byte) : State :=
  let o := s.poolByte a
  let n := if view = 1 then o ||| v else if view = 2 then o &&& ~~~v else v
  { s with pool := { s.pool with mem := kset s.pool.mem a n (s.poolFill a) } }

/-- `n` bytes of the pool from address `a`. -/
def State.poolRead (s : State) (a : Nat) : Nat → Bytes
  | 0 => []
  | n + 1 => s.poolByte a :: s.poolRead (a + 1) n

/-- A run of bytes written through a view from address `a`, in ascending order. -/
def State.poolWrite (s : State) (view a : Nat) : Bytes → State
  | [] => s
  | b :: bs => (s.poolPut view a b).poolWrite view (a + 1) bs

/-- The side of a page (R320). -/
def pageSide (p : Nat) : Nat := p / 4096

/-- Whether a page is free: not reserved, not retired, and held by no job in the table and no retained image (R322, R323,
R331). -/
def State.pageFree (s : State) (p : Nat) : Bool :=
  let o := kget s.pool.owner p 0
  !s.pool.reserve.contains p && !s.pool.retired.contains p &&
    !s.host.jobs.any (fun j => j.jid = o) && !s.lumen.images.any (fun i => i.id = o)

/-- The runs of consecutive free pages of one side, as (first, length): `cur` is the run that ends below page `p`. -/
def State.freeRuns (s : State) (p : Nat) : Nat → Nat → List (Nat × Nat)
  | 0, cur => if cur = 0 then [] else [(p - cur, cur)]
  | n + 1, cur =>
    if s.pageFree p then s.freeRuns (p + 1) n (cur + 1)
    else (if cur = 0 then [] else [(p - cur, cur)]) ++ s.freeRuns (p + 1) n 0

/-- The free runs of a side. -/
def State.sideRuns (s : State) (side : Nat) : List (Nat × Nat) := s.freeRuns (4096 * side) 4096 0

/-- The longest free run of a side (R323). -/
def State.longestRun (s : State) (side : Nat) : Nat := maxL ((s.sideRuns side).map (·.2))

/-- The number of free pages of a side. -/
def State.freePages (s : State) (side : Nat) : Nat := sumL ((s.sideRuns side).map (·.2))

/-- Gives pages to job `jid`. -/
def State.takePages (s : State) (jid : Nat) (ps : List Nat) : State :=
  { s with pool := { s.pool with owner := ps.foldl (fun m p => kput m p jid) s.pool.owner } }

/-- The contents of a list of pages become undefined (R323, R330). -/
def State.spoilPages (s : State) (ps : List Nat) : State :=
  let f := s.fresh
  let k := f.1 + 1
  { f.2 with pool := { f.2.pool with
      fill := ps.foldl (fun m p => kput m p k) f.2.pool.fill
      mem := ps.foldl (fun m p => kclear m (p * pageSize) ((p + 1) * pageSize)) f.2.pool.mem } }

/-- The capacity of account 0x04 in pages (R322). -/
def State.poolCap (s : State) : Nat := 8192 - s.pool.reserve.length - s.pool.retired.length

/-- A parity error that a pool reader met (R329): the port is 0 movers, 1 tiles, 2 cross-side, 3 management. -/
def State.poolParity (s : State) (port addr : Nat) : State :=
  ((((s.count F.POOL_PAR_CNT_COUNT).wr F.POOL_PAR_ADDR_PORT port).wr F.POOL_PAR_ADDR_ADDR addr).setf
    F.POOL_STAT_PAR).ledgerAdd ctrPool

/-! ### Faults -/

/-- The final DETAIL of a run (R317). -/
def RunSt.detail (r : RunSt) : Nat :=
  b2n r.overrun * 2 ^ 27 + b2n r.recomputed * 2 ^ 26 + b2n r.lost * 2 ^ 25 + b2n r.program * 2 ^ 24 +
    min r.outputs 0xFFFFFF

/-- A run is over: its tiles issue nothing more, and their state stays (R303). -/
def State.dropRun (s : State) (jid : Nat) : State :=
  match s.run? jid with
  | none => s
  | some r =>
    let s := ((List.range r.nt).map (· + r.first)).foldl (fun s n =>
      (s.onTile n (fun t => { t with run := 0, live := false, stall := .none, arrived := [] })).clrf F.LUMEN_Tt_STAT_WAITING n) s
    { s with lumen := { s.lumen with runs := s.lumen.runs.filter (fun x => x.jid ≠ jid) } }

/-- Ends a run's job once its work is done and its outputs are delivered (R317). -/
def State.settleRun (s : State) (jid : Nat) : State :=
  match s.run? jid, s.job? jid with
  | some r, some j =>
    if j.autoEnd && s.moved j then
      (s.dropRun jid).endJob jid (fun j => { j with
        detail := r.detail, fPartial := r.program || r.lost, fFlagged := r.flagged
        fIntegrity := j.fIntegrity || r.integrity })
    else s
  | _, _ => s

/-- Whether every tile of the unit holds an item not yet taken (R304, R306). -/
def State.unitHasItem (s : State) (r : RunSt) (l : Nat) : Bool := (r.unit l).all (fun n => decide (0 < (s.tile n).avail))

/-- The lead tiles of a run. -/
def RunSt.leads (r : RunSt) : List Nat := (List.range (r.nt / r.g)).map (fun i => r.first + i * r.g)

/-- A run's work is done when every unit has halted or faulted, or when the source is exhausted and every live unit waits
in WAITIN with nothing to take (R317). -/
def State.checkRun (s : State) (jid : Nat) : State :=
  match s.run? jid with
  | none => s
  | some r =>
    let finished := r.leads.all (fun l =>
      let t := s.tile l
      !t.live || (t.stall = .waitin && (r.unit l).all (fun n => (s.tile n).dry) && !s.unitHasItem r l))
    if finished then (s.updJob jid (fun j => { j with autoEnd := true })).settleRun jid else s

/-- Copies the sticky bits that set to LUMEN_Tt_STAT (R318). -/
def State.copySticky (s : State) (n : Nat) : State :=
  let v := (s.tile n).raised
  if v = 0 then s else
  let s := s.onTile n (fun t => { t with raised := 0 })
  let s := if bit v 3 then s.setf F.LUMEN_Tt_STAT_AOV n else s
  let s := if bit v 4 then s.setf F.LUMEN_Tt_STAT_SAT n else s
  if bit v 5 then s.setf F.LUMEN_Tt_STAT_NAN n else s

/-- A unit stops with fault `code` (R303): bundles already issued complete; the tiles of `who` record the fault. -/
def State.faultUnit (s : State) (r : RunSt) (l code : Nat) (who : List Nat) : State :=
  let pc := (s.tile l).pc
  let s := (r.unit l).foldl State.copySticky (s.onUnit r l (fun t => { t.drain with live := false, stall := .none }))
  let s := (r.unit l).foldl (fun s n => s.setf F.LUMEN_Tt_STAT_FAULT n) s
  let s := who.foldl (fun s n =>
    ((s.wr F.LUMEN_Tt_FAULT_PC pc n).wr F.LUMEN_Tt_FAULT_CODE code n).count F.LUMEN_FAULT_CNT_COUNT) s
  let s := (r.unit l).foldl (fun s n => s.clrf F.LUMEN_Tt_STAT_WAITING n) s
  (s.onRun r.jid (fun r => { r with
    overrun := r.overrun || code = 8, program := r.program || decide (code ≤ 9) })).checkRun r.jid

/-- `n` cycles pass in a unit; with more than MAX_CYCLES counted since the last take it faults OVERRUN (R306). -/
def State.unitTicks (s : State) (r : RunSt) (l n : Nat) (counted : Bool) : State :=
  let s := s.onUnit r l (fun t => (t.tick n counted).now)
  let s := (r.unit l).foldl State.copySticky s
  if (s.tile l).live && decide (r.maxCycles < (s.tile l).since) then s.faultUnit r l 8 (r.unit l) else s

/-! ### Interrupts -/

/-- Some tile of the unit has an enabled pending interrupt, and the boundary is eligible (R299, R300). -/
def State.irqDue (s : State) (r : RunSt) (l : Nat) : Bool :=
  let t := (s.tile l).now
  bit t.sr 0 && t.delay.isNone && t.rep.isNone &&
    (r.unit l).any (fun n => let u := (s.tile n).now; (u.ipend &&& u.imask) ≠ 0)

/-- Interrupt entry (R300). -/
def State.irqEnter (s : State) (r : RunSt) (l : Nat) : State :=
  let pc := (s.tile l).pc
  let s := s.onUnit r l (fun t =>
    let t := (t.tick 5 true).drain
    let t := { t with spc := pc, ssr := t.sr, sroff := t.roff }
    { t with sr := t.sr &&& 0b111110 })
  let s := s.onTile l (fun t => { t with pc := t.vec, stall := .none })
  let s := (r.unit l).foldl (fun s n => ((s.count F.LUMEN_Tt_IRQ_CNT_COUNT 1 n).clrf F.LUMEN_Tt_STAT_WAITING n).copySticky n) s
  if decide (r.maxCycles < (s.tile l).since) then s.faultUnit r l 8 (r.unit l) else s

/-! ### Issue -/

/-- The bundle at a unit's PC. -/
def TileSt.bundle (t : TileSt) : Nat := (kget t.imem t.pc 0).toNat

/-- OPCs that PLACEMENT keeps out of delay slots (R284). -/
def slotBad (c : Nat) : Bool := [0x24, 0x25, 0x26, 0x27, 0x2A, 0x28, 0x29, 0x30, 0x33, 0x3F].contains c

/-- B, CALL, RET, RETI and BRK. -/
def isBranch (c : Nat) : Bool := [0x24, 0x25, 0x26, 0x27, 0x2A].contains c

/-- The innermost active loop whose body holds the bundle at `pc`. -/
def TileSt.around (t : TileSt) : Option LoopLvl :=
  match t.loops with
  | [] => none
  | x :: _ => if x.start ≤ t.pc ∧ t.pc ≤ x.stop then some x else none

/-- PLACEMENT (R284) at the lead tile. -/
def placement (t : TileSt) (w : Nat) : Bool :=
  let c := opc w
  (t.delay.isSome && slotBad c) || (t.rep.isSome && (slotBad c || c = 0x36)) ||
    (match t.around with
      | none => false
      | some x => (isBranch c && decide (x.stop < t.pc + 3)) || ((c = 0x28 || c = 0x29) && t.pc = x.stop) ||
          (c = 0x28 && decide (x.stop ≤ bits (fx w) 10 0)))

/-- BODY_EXIT (R294): a branch in a loop's body to a target outside it. -/
def bodyExit (t : TileSt) (target : Nat) : Bool :=
  match t.around with
  | none => false
  | some x => decide (target < x.start ∨ x.stop < target)

/-- The lead's PC after a bundle of the normal sequence: the loop's start, or what follows; with the ring step to turn by
and the cycles a long body's return costs (R294, R296, R297). -/
def TileSt.after (t : TileSt) : TileSt × Nat × Nat :=
  match t.loops with
  | [] => ({ t with pc := (t.pc + 1) % 2048 }, 0, 0)
  | x :: xs =>
    if x.stop ≠ t.pc then ({ t with pc := (t.pc + 1) % 2048 }, 0, 0)
    else if 1 < x.left then
      ({ t with pc := x.start, loops := { x with left := x.left - 1 } :: xs }, x.step,
        if 64 < x.stop + 1 - x.start then 2 else 0)
    else ({ t with pc := (t.pc + 1) % 2048, loops := xs }, x.step, 0)

/-- The lead's control state after a bundle that is no branch: repetitions, delay slots, loops (R288, R294, R295). The
last component is true where RETI's slots are done. -/
def TileSt.advance (t : TileSt) : TileSt × Nat × Nat × Bool :=
  match t.rep with
  | some (n, step) =>
    if 1 < n then ({ t with rep := some (n - 1, step) }, step, 0, false)
    else
      let a := { t with rep := none }.after
      (a.1, step + a.2.1, a.2.2, false)
  | none =>
    match t.delay with
    | some (2, j) => ({ t with delay := some (1, j), pc := (t.pc + 1) % 2048 }, 0, 0, false)
    | some (_, j) =>
      let t := { t with delay := none }
      match j with
      | .seq => let a := t.after; (a.1, a.2.1, a.2.2, false)
      | .to p => ({ t with pc := p }, 0, 0, false)
      | .reti => (t, 0, 0, true)
      | .brk =>
        match t.loops with
        | [] => ({ t with pc := (t.pc + 1) % 2048 }, 0, 0, false)
        | x :: xs => ({ t with pc := (x.stop + 1) % 2048, loops := xs }, 0, 0, false)
    | none => let a := t.after; (a.1, a.2.1, a.2.2, false)

/-- The ring turns (R296). -/
def TileSt.turn (t : TileSt) (step : Nat) : TileSt :=
  if step = 0 then t else { t with roff := (t.roff + 64 - step) % 32 }

/-- Finishes a bundle at the lead and its unit: control moves on, the ring turns, and the cycle passes. `f` is the lead's
own control effect, such as a new branch or loop, after the sequence has moved on. -/
def State.finish (s : State) (r : RunSt) (l : Nat) (f : TileSt → TileSt) : State :=
  let a := (s.tile l).advance
  let s := s.setTile l (f a.1)
  let s := s.onUnit r l (fun t => t.turn a.2.1)
  let s := s.unitTicks r l (1 + a.2.2.1) true
  if a.2.2.2 && (s.tile l).live then
    let s := s.onUnit r l (fun t => { t with sr := t.ssr, roff := t.sroff })
    s.onTile l (fun t => { t with pc := t.spc })
  else s

/-- Whether unit `l` can issue a bundle now: it is live, not stalled, and no interrupt comes first. -/
def State.canIssue (s : State) (r : RunSt) (l : Nat) : Bool :=
  (s.tile l).live && (s.tile l).lead = l && (s.tile l).stall = .none && !s.irqDue r l

/-- A unit issues its next bundle if the bundle's operation is `code`: `body` is what it does, on the tiles as the bundle
sees them. A bundle that no operation may issue faults ILLEGAL or PLACEMENT instead (R284). -/
def State.issue (s : State) (l code : Nat) (body : State → RunSt → Nat → State) : State :=
  match s.run? (s.tile l).run with
  | none => s
  | some r =>
    if !s.canIssue r l then s else
    let w := (s.tile l).bundle
    if (opRow (opc w)).isSome && opc w ≠ code then s else
    let s := (r.unit l).foldl State.copySticky (s.onUnit r l TileSt.now)
    if illegal w then s.faultUnit r l 1 (r.unit l)
    else if placement (s.tile l) w then s.faultUnit r l 2 (r.unit l)
    else body s r w

/-- A bundle whose primary operation touches each tile alone. -/
def State.issueTile (s : State) (l code : Nat) (f : Nat → TileSt → TileSt) : State :=
  s.issue l code (fun s r w => (s.onUnit r l (fun t => f w (tileMoves w t))).finish r l id)

/-- A taken or not taken branch: two delay slots follow (R288). `extra` is CALL's write. -/
def State.branch (s : State) (r : RunSt) (l w : Nat) (j : TJump) (target : Option Nat) (extra : TileSt → TileSt) : State :=
  if (target.map (bodyExit (s.tile l))).getD false then s.faultUnit r l 4 (r.unit l)
  else (s.onUnit r l (fun t => extra (tileMoves w t))).finish r l (fun t => { t with delay := some (2, j) })

/-! ### Items and outputs -/

/-- OUT_STRIDE (R308). -/
def RunSt.outStride (r : RunSt) : Nat := roundUp (64 + 2 * r.outElems) 64

/-- The bytes of 16-bit elements. -/
def elemBytes (l : List (BitVec 16)) : Bytes := (l.map (fun v => leBytes 2 v.toNat)).flatten

/-- The host slot of output `k` of tile `n` (R308). -/
def outFrame (r : RunSt) (j : Job) (n k : Nat) (c : Commit) (rerun : Bool) (data : List (BitVec 16)) : Bytes :=
  leBytes 8 k ++ leBytes 8 c.time ++ leBytes 2 n ++ leBytes 1 (j.sq % 64) ++ zeros 1 ++ leBytes 2 j.tag ++
    leBytes 1 (b2n rerun + 2 * b2n c.flagged) ++ zeros 41 ++ elemBytes (data.take r.outElems)

/-- Delivers the outputs a tile has committed (R308); commits that a rerun repeats are passed over (R310). -/
def State.deliverOutputs (s : State) (r : RunSt) (n : Nat) : State :=
  match s.job? r.jid with
  | none => s
  | some j =>
    let cs := (s.tile n).commits
    let s := s.onTile n (fun t => { t with commits := [] })
    cs.foldl (fun s c =>
      let t := s.tile n
      if 0 < t.skip then s.onTile n (fun t => { t with skip := t.skip - 1, outBusy := t.outBusy - 1 })
      else
        let k := t.delivered + 1
        let data := kread t.y 0 (r.outBase + c.slot * r.outElems) r.outElems
        let addr := r.dest + ((n - r.first) * r.destSlots + (k - 1) % r.destSlots) * r.outStride
        let s := s.onTile n (fun t => { t with delivered := k })
        s.queueElems r.jid (s.chanOn r.jid (n / 128)) [.frame addr (outFrame r j n k c t.rerun data) n]) s

/-- The place of a tile in its run. -/
def RunSt.idx (r : RunSt) (n : Nat) : Nat := n - r.first

/-- Entries of a capture that give a tile items, from its present place on: their numbers (R305). A gap entry and an entry
without samples give none. -/
def segsLeft (r : RunSt) (t : TileSt) (n : Nat) (k : Capt) : List Nat :=
  let e := r.firstEntry + r.idx n + r.nt * t.fedEntry
  ((List.range k.table.length).zip k.table).filterMap (fun (x : Nat × SegEnt) =>
    let i := k.entBase + x.1
    if e ≤ i ∧ (i - e) % r.nt = 0 ∧ i < r.firstEntry + r.nEntries ∧ !x.2.gap ∧ x.2.len ≠ 0 then some i else none)

/-- Whether a record source gives a tile no further item (R305): nothing it names is left, or the source has ended. A
stream is one segment, number 0. -/
def State.segDry (s : State) (r : RunSt) (n : Nat) : Bool :=
  let t := s.tile n
  match s.record.capts.find? (fun (k : Capt) => k.jid = r.srcJid) with
  | none => true
  | some k =>
    if k.isStream then
      r.firstEntry + r.idx n + r.nt * t.fedEntry ≠ 0 ||
        (k.ended && decide (64 * (k.dropped + k.words.length) ≤ t.fedPiece * r.itemElems))
    else (segsLeft r t n k).isEmpty && (k.ended || decide (r.firstEntry + r.nEntries ≤ k.entBase + k.table.length))

/-- Whether a tile's source has no further item for it (R317). -/
def State.srcDry (s : State) (r : RunSt) (n : Nat) : Bool :=
  let t := s.tile n
  if r.src = 0 then !t.asked && t.arrived.isEmpty && decide (r.nItems ≤ r.idx n + r.nt * t.fed)
  else if r.src = 1 then s.segDry r n
  else r.srcOver && t.arrived.isEmpty

/-- Notes that a tile's source is exhausted; with every tile's source exhausted the job's last item has come (R65). -/
def State.noteDry (s : State) (r : RunSt) (n : Nat) : State :=
  if (s.tile n).dry || !s.srcDry r n then s else
  let s := s.onTile n (fun t => { t with dry := true })
  let s := if (List.range r.nt).all (fun i => (s.tile (r.first + i)).dry) then s.anchorNow r.jid else s
  s.checkRun r.jid

/-- A source job ends: it gives no further item (R317). -/
def State.sourceEnded (s : State) (jid : Nat) : State :=
  (s.lumen.runs.filter (fun r => r.src ≠ 0 && r.srcJid = jid)).foldl (fun s r =>
    let s := s.onRun r.jid (fun r => { r with srcOver := true })
    let r := { r with srcOver := true }
    ((List.range r.nt).map (· + r.first)).foldl (fun s n => s.noteDry r n) s) s

/-- An item of SRC 2 or 3 reaches the feeder of a tile; one for a faulted unit counts as lost (R303). -/
def State.feedTile (s : State) (r : RunSt) (n : Nat) (x : FeedItem) : State :=
  let t := s.tile n
  if t.run ≠ r.jid then s
  else if (s.tile t.lead).live then s.onTile n (fun t => { t with arrived := t.arrived ++ [x] })
  else if s.flag F.LUMEN_Tt_STAT_FAULT n then
    (s.count F.LUMEN_Tt_LOST_CNT_COUNT 1 n).onRun r.jid (fun r => { r with lost := true })
  else s

/-- The 16-bit elements of a run of bytes. -/
def elemsOf : Nat → Bytes → List (BitVec 16)
  | 0, _ => []
  | n + 1, d => BitVec.ofNat 16 (fieldAt d 0 2) :: elemsOf n (d.drop 2)

/-- The items of a measurement's stamp entries, `per` entries to an item (R305); at most `n` of them. -/
def stampItems (per : Nat) (first brk : Bool) : Nat → List Bytes → List FeedItem
  | 0, _ => []
  | n + 1, es =>
    if es.isEmpty then [] else
    let x := es.take per
    let rest := es.drop per
    let d := x.flatten
    { data := elemsOf (8 * x.length) d, first := first, last := rest.isEmpty, brk := first && brk, time := fieldAt d 0 8 } ::
      stampItems per false brk n rest

/-- The stamps of measurement `m` of a GLINT_MEASURE go to the runs that name it (R305, SRC 2). -/
def State.feedStamps (s : State) (jid m : Nat) (brk : Bool) (es : List Bytes) : State :=
  (s.lumen.runs.filter (fun r => r.src = 2 && r.srcJid = jid)).foldl (fun s r =>
    (stampItems (r.itemElems / 8) true brk (es.length + 1) es).foldl (fun s x => s.feedTile r (r.first + m % r.nt) x) s) s

/-- A tile's zones of a frame, time-major (R305): `esz` bytes to a value, `nv` outputs, `nz` zones in the frame. -/
def frameElems (body : Bytes) (esz nv nz z0 zp : Nat) : List (BitVec 16) :=
  ((List.range nv).map (fun i => elemsOf (zp * esz / 2) (body.drop ((i * nz + z0) * esz)))).flatten

/-- A frame of a FIBRE_VIB_RUN goes to the runs that name it (R305, SRC 3): its R217 flags, its SCALE exponent field, its
T_FIRST and N_VALID. -/
def State.feedFrame (s : State) (jid : Nat) (body : Bytes) (int16 : Bool) (nz nv flags scale tFirst : Nat) : State :=
  (s.lumen.runs.filter (fun r => r.src = 3 && r.srcJid = jid)).foldl (fun s r =>
    (List.range r.nt).foldl (fun s i =>
      s.feedTile r (r.first + i)
        { data := frameElems body (if int16 then 2 else 4) nv nz (i * r.zPer) r.zPer
          first := true, last := true, flagged := flags &&& 0xFFF7 ≠ 0, brk := bit flags 0
          exp := if int16 then unsg 8 (((scale / 2 ^ 23 % 256 : Nat) : Int) - 127) else 0, time := tFirst }) s) s

/-- The next host item of a tile is asked for, where it has a slot and the source has one (R305, R306). -/
def State.askItem (s : State) (r : RunSt) (n : Nat) : State :=
  let t := s.tile n
  let k := r.idx n + r.nt * t.fed
  if r.src = 0 && t.run = r.jid && !t.asked && t.arrived.isEmpty && decide (k < r.nItems) &&
      (s.tile t.lead).live && decide (t.held.length < r.inSlots) then
    (s.onTile n (fun t => { t with asked := true })).queueElems r.jid (s.chanOn r.jid (n / 128))
      [.fromHost (r.srcAddr + k * 2 * r.itemElems) (2 * r.itemElems)]
  else s.noteDry r n

/-- Whether every tile's next output slot is free (R308). -/
def State.unitHasSlot (s : State) (r : RunSt) (l : Nat) : Bool :=
  (r.unit l).all (fun n => decide ((s.tile n).outBusy < r.outSlots))

/-- Marks the oldest item that is not taken as taken. -/
def takeFirst (del : Nat) : List Item → List Item
  | [] => []
  | i :: is => if i.taken then i :: takeFirst del is else { i with taken := true, delAt := del } :: is

/-- The slot of the oldest item not taken. -/
def nextSlot (l : List Item) : Nat := ((l.find? (fun i => !i.taken)).map (·.slot)).getD 0

/-- WAITIN takes an item in every tile of the unit (R306): FD receives its slot. -/
def State.takeItems (s : State) (r : RunSt) (l w : Nat) : State :=
  (r.unit l).foldl (fun s n =>
    let t := s.tile n
    let s := if t.timed then s.maxTo F.LUMEN_Tt_MAXITEM_CYCLES t.since n else s
    let s := s.count F.LUMEN_Tt_ITEM_CNT_COUNT 1 n
    s.onTile n (fun t =>
      let t := { t.result w 1 (BitVec.ofNat 64 (nextSlot t.held)) with held := takeFirst t.delivered t.held }
      { t.levels r.outSlots with since := 0, timed := true })) s

/-- Releases the oldest item taken. -/
def releaseFirst : List Item → List Item
  | [] => []
  | i :: is => if i.taken then is else i :: releaseFirst is

/-- Whether a tile's outstanding accesses have all completed. -/
def State.unitPoolDone (s : State) (r : RunSt) (l : Nat) : Bool := (r.unit l).all (fun n => (s.tile n).reqs.isEmpty)

/-- PWAIT completes: data of completed PLDs lands (R309); a bad byte faults PARITY (R329). -/
def State.poolLand (s : State) (r : RunSt) (l : Nat) : State :=
  s.onUnit r l (fun t =>
    { t.got.foldl (fun t g => t.post 1 (.reg g.1 g.2)) t with got := [], poolBad := false })

end Sys2Proof.Machine
end

