-- ==== Sys2Proof/Machine/Record.lean ====
section
/-! DEFINITION. Machine/Record.lean: Penumbra, windows, the store, segment tables and the end of captures and streams
("Penumbra buffer, gapless segmentation and decimation", R132-R153). -/
namespace Sys2Proof.Machine

/-- The capture or stream of job `jid`, running or held. -/
def State.capt? (s : State) (jid : Nat) : Option Capt := s.record.capts.find? (fun k => k.jid = jid)

/-- The capture or stream named by a ring and a TAG (R136): a running one, or else held data. -/
def State.captOf (s : State) (sq tag : Nat) : Option Capt :=
  match s.record.capts.find? (fun k => k.sq = sq && k.tag = tag && !k.ended) with
  | some k => some k
  | none => s.record.capts.find? (fun k => k.sq = sq && k.tag = tag)

/-- Applies `f` to the capture or stream of job `jid`. -/
def State.updCapt (s : State) (jid : Nat) (f : Capt → Capt) : State :=
  { s with record := { s.record with capts := s.record.capts.map (fun k => if k.jid = jid then f k else k) } }

/-- The writer of input `n` (R135). -/
def State.writer (s : State) (n : Nat) : Option Capt :=
  s.record.capts.find? (fun k => k.input = n && k.backed.isNone && !k.ended)

/-- The capture or stream whose store a capture's segments name (R152). -/
def State.storeOf (s : State) (k : Capt) : Capt :=
  match k.backed with
  | some j => (s.capt? j).getD k
  | none => k

/-- Held captures and streams (R136). -/
def State.heldCapts (s : State) : List Capt := s.record.capts.filter (·.ended)

/-- RECORD_HELD and HELD_CNT follow the held data (R170). -/
def State.recordRegs (s : State) : State :=
  let h := s.heldCapts
  let s := (s.wr F.RECORD_HELD_COUNT h.length).wr F.RECORD_HELD_MIB (sumL (h.map (·.space)))
  (List.range 4).foldl (fun s n => s.wr F.RECORD_CHn_HELD_CNT_COUNT (countP (fun k => k.input = n) h) n) s

/-- WRITER, DEC and the writer bits of STAT follow the writer (R170). -/
def State.writerRegs (s : State) (n : Nat) : State :=
  let d := (s.rch n).dec
  let s := ((s.wr F.RECORD_CHn_DEC_BITS d.bits n).wr F.RECORD_CHn_DEC_MODE d.mode n).wr F.RECORD_CHn_DEC_FACTOR_N d.factor n
  match s.writer n with
  | some k => (((s.wr F.RECORD_CHn_WRITER_SQ k.sq n).wr F.RECORD_CHn_WRITER_TAG k.tag n).wr F.RECORD_CHn_STAT_STREAM
      (b2n k.isStream) n).wr F.RECORD_CHn_STAT_CAPTURE (b2n (!k.isStream)) n
  | none => (((s.wr F.RECORD_CHn_WRITER_SQ 0 n).wr F.RECORD_CHn_WRITER_TAG 0 n).wr F.RECORD_CHn_STAT_STREAM 0 n).wr
      F.RECORD_CHn_STAT_CAPTURE 0 n

/-- A decimator starts for a writer, or returns to none (R154, R158): with decimation no earlier word is available. -/
def State.setDec (s : State) (n mode factor bits : Nat) : State :=
  let c := s.rch n
  let fresh := mode ≠ 0 || c.dec.mode ≠ 0
  (s.setRch n { c with
    dec := { mode := mode, factor := factor, bits := bits, syncAt := c.dec.syncAt }
    first := if fresh then c.penN else c.first }).writerRegs n

/-! ### The store -/

/-- The bytes of the stored words in their runs (R139); `prev` is the number of the word before. -/
def runBytes (s16 : Bool) : Option Nat → Nat → List StW → Nat
  | _, n, [] => if s16 then 128 * n else ceilDiv (64 * n) 6 * 8
  | prev, n, x :: xs =>
    if prev = some (x.g - 1) ∧ 0 < x.g then runBytes s16 (some x.g) (n + 1) xs
    else (if s16 then 128 * n else ceilDiv (64 * n) 6 * 8) + runBytes s16 (some x.g) 1 xs

/-- The bytes of a ring: LIMIT × 16 MiB of a roll capture, RING_MIB of a stream; none for other shapes (R150, R166). -/
def Capt.ring (k : Capt) : Option Nat :=
  if k.isStream then some (k.limit * 2 ^ 20) else if k.shape = 2 then some (k.limit * 2 ^ 24) else none

/-- Drops the oldest words until a ring holds the rest; at most `n` words. -/
def dropOld (s16 : Bool) (cap : Nat) : Nat → List StW → Nat → List StW × Nat
  | 0, ws, d => (ws, d)
  | n + 1, ws, d => if runBytes s16 none 0 ws ≤ cap then (ws, d) else dropOld s16 cap n (ws.drop 1) (d + 1)

/-- The stored index of the first sample of the store's word number `g`, or of the next one stored (R140). -/
def Capt.indexOf (k : Capt) (g : Nat) : Nat := 64 * (k.dropped + countP (fun x => decide (x.g < g)) k.words)

/-- Segments whose words are overwritten: RETIRED for a roll capture's own, OVERWRITTEN for a stream's (R150, R152). -/
def markGone (roll : Bool) (dropped : Nat) (es : List SegEnt) : List SegEnt :=
  es.map (fun e => if e.gap || decide (64 * dropped ≤ e.first) || e.len = 0 then e
    else if roll then { e with retired := true } else { e with overwritten := true })

/-- A word's bytes join the data of the MOVE that follows a stream (R354): whole PACK10 words of a run, or S16. -/
def followWord (k : Capt) (x : StW) : Capt × Bytes :=
  let brk := k.followG ≠ 0 && x.g ≠ k.followG
  let vs := x.w.smps.map (·.v)
  if isS16 k.mode then ({ k with followG := x.g + 1 }, (vs.map (fun v => leBytes 2 (unsg 16 v))).flatten)
  else
    let old := if brk && !k.carry.isEmpty then leBytes 8 (pack10 (k.carry.map (unsg 10))) else []
    let all := (if brk then [] else k.carry) ++ vs
    let n := all.length / 6
    let d := (List.range n).map (fun i => leBytes 8 (pack10 (((all.drop (6 * i)).take 6).map (unsg 10))))
    ({ k with followG := x.g + 1, carry := all.drop (6 * n) }, old ++ d.flatten)

/-- The MOVE that follows a stream (R354). -/
def State.follower (s : State) (jid : Nat) : Option Job :=
  s.host.jobs.find? (fun j => j.admitted && !j.ending && j.demand.claims.contains (.follow jid))

/-- A stored word reaches the stream's follower, from the first stored sample at or after FOLLOW_TIME on (R351, R354). -/
def State.feedFollower (s : State) (k : Capt) (x : StW) : State :=
  match s.follower k.jid with
  | none => s
  | some j =>
    let t := j.followT
    let live' := x.w.smps.any (fun y => decide (t ≤ y.t))
    if k.followG = 0 && !live' then s else
    let x' := if k.followG = 0 then { x with w := { x.w with smps := x.w.smps.filter (fun y => decide (t ≤ y.t)) } } else x
    let brk := k.followG ≠ 0 && x.g ≠ k.followG
    let r := followWord k x'
    let s := s.updCapt k.jid (fun _ => r.1)
    let s := if brk then s.updJob j.jid (fun j => { j with prodBreaks := j.prodBreaks ++ [j.produced.length] }) else s
    s.produce j.jid r.2

/-- A ring's runs once word `g` is stored behind what it holds (R153); a run ends too where its times do not go on evenly. -/
def Capt.addRun (k : Capt) (g : Nat) (w : SWord) : List StRun :=
  let o := k.dropped + k.words.length
  let t (i : Nat) : Nat := (w.smps[i]?.map (·.t)).getD 0
  let per := if k.mode = 2 then 2 else 1
  let new (brk : Bool) : StRun := { o := o, g := g, t := t 0, per := per, dt := t per - t 0, brk := brk }
  match k.runs.getLast? with
  | some r =>
    let brk := g ≠ r.g + (o - r.o)
    if !brk && t 0 = r.t + 64 * (o - r.o) / per * r.dt then k.runs else k.runs ++ [new brk]
  | none => [new false]

/-- The position in the store of word number `g`, be it overwritten since, in the runs `rs` of a store of `total` words. -/
def runPos (total g : Nat) : List StRun → Option Nat
  | [] => none
  | r :: rs =>
    let stop := match rs with
      | [] => total
      | q :: _ => q.o
    if r.g ≤ g ∧ g - r.g < stop - r.o then some (r.o + (g - r.g)) else runPos total g rs

/-- The time of stored index `i` in the runs `rs`. -/
def runTime (i : Nat) (rs : List StRun) : Option Nat :=
  ((rs.filter (fun r => decide (64 * r.o ≤ i))).getLast?).map (fun r => r.t + (i - 64 * r.o) / r.per * r.dt)

/-- Writes one word to the store of the writer `jid` (R139, R140). -/
def State.storeWord (s : State) (jid g : Nat) (w : SWord) : State :=
  match s.capt? jid with
  | none => s
  | some k =>
    let ws := k.words ++ [{ g := g, w := w }]
    let r := match k.ring with
      | some cap => dropOld (isS16 k.mode) cap ws.length ws k.dropped
      | none => (ws, k.dropped)
    let s := s.updCapt jid (fun k => { k with
      words := r.1, dropped := r.2, nextG := g + 1
      runs := if k.ring.isSome then k.addRun g w else []
      table := if k.shape = 2 then markGone true r.2 k.table else k.table })
    let s := if k.isStream then
        { s with record := { s.record with capts := s.record.capts.map (fun b =>
          if b.backed = some jid then { b with table := markGone false r.2 b.table } else b) } }
      else s
    let t := (w.smps.head?.map (·.t)).getD 0
    let s := s.wr64 F.RECORD_CHn_WRITTEN_LO_STAMP F.RECORD_CHn_WRITTEN_HI_STAMP (t % 2 ^ 64) k.input
    let s := s.wr64 F.RECORD_CHn_STORED_LO_COUNT F.RECORD_CHn_STORED_HI_COUNT (64 * (r.2 + r.1.length)) k.input
    if k.isStream then
      match s.capt? jid with
      | some k => s.feedFollower k { g := g, w := w }
      | none => s
    else s

/-! ### Windows -/

/-- The trigger sample of a mark (R137): the last stored sample whose time is at or before STAMP. Words are newest first;
`n` is one past the first one's number, `lo` the first available word. None while no later sample has been emitted. -/
def trigOf (lo stamp : Nat) : Bool → Nat → List SWord → Option Nat
  | newest, n, [] => if newest then none else some (64 * n)
  | newest, n, w :: ws =>
    if n ≤ lo then (if newest then none else some (64 * n))
    else
      let c := countP (fun x => decide (x.t ≤ stamp)) w.smps
      if c = 0 then trigOf lo stamp false (n - 1) ws
      else if newest && decide (w.smps.length ≤ c) then none
      else some (64 * (n - 1) + c - 1)

/-- The first available word of an input that Penumbra still holds (R132, R134). -/
def RecCh.lo (c : RecCh) : Nat := max c.first (c.penN - c.pen.length)

/-- The word of number `g` in Penumbra. -/
def RecCh.word? (c : RecCh) (g : Nat) : Option SWord := if g < c.penN then c.pen[c.penN - 1 - g]? else none

/-- Fixes a window's place once its trigger sample is known, and a gate's end once its closing sample is (R137, R151). -/
def placeWin (k : Capt) (c : RecCh) (w : Win) : Win :=
  let w := match w.trig with
    | some _ => w
    | none =>
      match trigOf c.lo w.mark.stamp true c.penN c.pen with
      | none => w
      | some tr =>
        let lo := 64 * (if k.backed.isSome then c.first else c.lo)
        let tr := max tr lo
        { w with
          trig := some tr, start := max lo (tr - k.pre), truncStart := decide (tr < lo + k.pre)
          stop := if k.shape = 3 then none else some (tr + k.post)
          range := ((c.word? (tr / 64)).bind (fun x => (x.smps[tr % 64]?).map (fun (y : Smp) => y.cfg.1))).getD 0
          agG := max lo (tr - k.pre) / 64 }
  match w.trig, w.stop, w.closing with
  | some tr, none, some t =>
    match trigOf c.lo t true c.penN c.pen with
    | some e =>
      let lim := tr + k.limit * 2 ^ 20
      if lim < e then { w with stop := some lim, truncEnd := true } else { w with stop := some (max e tr + k.post) }
    | none => w
  | _, _, _ => w

/-- Places a capture's windows in order, and judges SHARED_START (R140). -/
def placeWins (k : Capt) (c : RecCh) : Nat → List Win → List Win × Nat
  | m, [] => ([], m)
  | m, w :: ws =>
    let old := w.trig.isSome
    let w := placeWin k c w
    let w := if !old && w.trig.isSome then { w with sharedStart := decide (w.start < m) } else w
    let m := max m (w.stop.getD 0)
    let r := placeWins k c m ws
    (w :: r.1, r.2)

/-- The last sample position that a window can take (R138, R151); a gate without an end runs to its LIMIT. -/
def Capt.winEnd (k : Capt) (w : Win) : Nat :=
  match w.stop, w.trig with
  | some e, _ => e
  | none, some tr => tr + k.limit * 2 ^ 20
  | none, none => 0

/-- The words from number `g` up to but not including `e` that Penumbra holds, oldest first. -/
def RecCh.span (c : RecCh) (g e : Nat) : List StW :=
  (List.range (min e c.penN - g)).filterMap (fun i => (c.word? (g + i)).map (fun w => { g := g + i, w := w }))

/-- Writes what Penumbra holds of one placed window and has not been written, and counts it in Afterglow (R139, R171). -/
def State.writeWin (s : State) (jid : Nat) (w : Win) : State :=
  match s.capt? jid, w.trig with
  | some k, some _ =>
    if k.backed.isSome then s else
    let c := s.rch k.input
    let e := ceilDiv (k.winEnd w) 64
    let s := (c.span (max (w.start / 64) k.nextG) e).foldl (fun s x => s.storeWord jid x.g x.w) s
    if w.stop.isNone || k.mode ≠ 0 then s else
    let s := (c.span (max (w.start / 64) w.agG) e).foldl (fun s x => s.agWord k.input k.pre w x.g x.w) s
    s.updCapt jid (fun k => { k with wins := k.wins.map (fun v =>
      if v.mark = w.mark then { v with agG := max v.agG (min e c.penN) } else v) })
  | _, _ => s

/-- A capture takes what has been emitted: windows are placed and their words are written. -/
def State.captWork (s : State) (jid : Nat) : State :=
  match s.capt? jid with
  | none => s
  | some k =>
    if k.isStream || k.ended then s else
    let r := placeWins k (s.rch k.input) k.maxStop k.wins
    let s := s.updCapt jid (fun k => { k with wins := r.1, maxStop := r.2 })
    r.1.foldl (fun s w => s.writeWin jid w) s

/-- One stored word enters Penumbra (R132): the stream of the input writes it, unless its status is 11 (R153), and
captures take what they need. -/
def State.penWord (s : State) (n : Nat) (w : SWord) : State :=
  let c := s.rch n
  let g := c.penN
  let s := s.setRch n { c with pen := (w :: c.pen).take (penDepth (s.paired n) / 64), penN := g + 1 }
  let s := if w.damaged then
      ((s.count F.RECORD_CHn_PEN_PAR_CNT_COUNT 1 n).setf F.RECORD_CHn_STAT_PEN_PAR n).ledgerAdd ctrPenumbra
    else s
  let t := (w.smps.head?.map (·.t)).getD 0
  (s.record.capts.filter (fun k => k.input = n && !k.ended)).foldl (fun s k =>
    if k.isStream then
      match k.armed with
      | some a =>
        if a ≤ t ∧ w.status ≠ 3 ∧ !k.hold ∧ !k.closed ∧ k.stopAt.all (fun e => decide (t ≤ e)) then s.storeWord k.jid g w else s
      | none => s
    else s.captWork k.jid) s

/-- A sample word enters the record path of its input (R154). `par` says that Penumbra found a parity error in it. -/
def State.recWord (s : State) (n : Nat) (w : PWord) (par : Bool) : State :=
  let c := s.rch n
  let r := c.dec.word w
  let s := s.setRch n { c with dec := r.1 }
  (r.2.map (fun x => { x with damaged := par })).foldl (fun s x => s.penWord n x) s

/-- A window or gate of a capture on input `n` is open (R87, R137). -/
def State.windowOpen (s : State) (n : Nat) : Bool :=
  s.record.capts.any (fun k => k.input = n && !k.ended && !k.wins.isEmpty)

/-! ### Reading segments (R168, R169): which part of a read is ready -/

/-- Bytes of `len` samples in a destination format (R160). -/
def fmtBytes (fmt len : Nat) : Nat := if fmt = 0 then ceilDiv len 6 * 8 else if fmt = 1 then 2 * len else 4 * len

/-- The words of a store that a segment overlaps: first word and count. -/
def segWords (first len : Nat) : Nat × Nat := if len = 0 then (first / 64, 0) else (first / 64, (first + len - 1) / 64 - first / 64 + 1)

/-- The bytes of a word map of `n` words (R148). -/
def mapBytes (n : Nat) : Nat := roundUp (ceilDiv n 2) 8

/-- Elements of at most 256 KiB over a part of a read: `part` 0 is data, 1 the table entry, 2 the word map. -/
def segElems (addr ent part : Nat) : Nat → Nat → Nat → List Elem
  | 0, _, _ => []
  | n + 1, off, len =>
    if len = 0 then []
    else .seg (addr + off) (min len elemMax) ent part off :: segElems addr ent part n (off + elemMax) (len - elemMax)

/-- The elements of one part. -/
def segPart (addr ent part len : Nat) : List Elem := segElems addr ent part (len / elemMax + 1) 0 len

/-- w_max of a capture (R164). -/
def Capt.wMax (k : Capt) : Nat :=
  ceilDiv (k.pre + k.post + (if k.shape = 3 then k.limit * 2 ^ 20 else 0)) 64 + 1

/-- Applies `f` to the read of job `jid`. -/
def State.updRead (s : State) (jid : Nat) (f : SegRd → SegRd) : State :=
  { s with record := { s.record with reads := s.record.reads.map (fun r => if r.jid = jid then f r else r) } }

/-- Queues the elements of a read's parts on its channel. -/
def State.queueSeg (s : State) (r : SegRd) (ent len : Nat) (gap : Bool) (nwords : Nat) : State :=
  let c := s.chanOn r.jid (((s.chansOf r.jid).head?.getD 0) / 32)
  let data := if gap then 0 else roundUp (fmtBytes r.fmt len) 8
  let mb := if gap then 0 else mapBytes nwords
  let es := (if gap then [] else segPart r.dataAt ent 0 data) ++
    (if r.tableAt = 0 then [] else segPart r.tableAt ent 1 128) ++
    (if r.mapAt = 0 ∨ gap then [] else segPart r.mapAt ent 2 mb)
  (s.queueElems r.jid c es).updRead r.jid (fun r => { r with
    dataAt := r.dataAt + data, tableAt := if r.tableAt = 0 then 0 else r.tableAt + 128
    mapAt := if r.mapAt = 0 then 0 else r.mapAt + mb })

/-- Everything a read names has been queued: it ends with its last element, and its anchor is now at the latest (R65). -/
def State.readQueued (s : State) (r : SegRd) : State :=
  let s := (s.updRead r.jid (fun r => { r with queued := true })).updJob r.jid (fun j =>
    { j with autoEnd := true, anchor := some (j.anchor.getD s.phys) })
  s.settle r.jid

/-- A read in MODE 0 queues the entries that have been written, up to the first that has not; at most `n` entries. -/
def State.pumpRead0 (s : State) (jid : Nat) : Nat → State
  | 0 => s
  | n + 1 =>
    match s.record.reads.find? (fun r => r.jid = jid && !r.queued) with
    | none => s
    | some r =>
      if r.last ≤ r.next then s.readQueued r else
      match s.capt? r.cap with
      | none => s.readQueued r
      | some k =>
        let upd (s : State) : State := s.updRead jid (fun r => { r with next := r.next + 1 })
        if r.next < k.entBase + k.table.length then
          match (if r.next < k.entBase then none else k.table[r.next - k.entBase]?) with
          | some e =>
            let sw := segWords e.first e.len
            (upd (s.queueSeg r r.next e.len e.gap sw.2)).pumpRead0 jid n
          | none =>
            (upd (s.updRead jid (fun r => { r with
              anyMissed := true, tableAt := if r.tableAt = 0 then 0 else r.tableAt + 128 }))).pumpRead0 jid n
        else if k.ended then
          let s := s.updRead jid (fun r => { r with anyMissed := true, anyNever := true })
          let mb := mapBytes k.wMax
          let s := if r.mapAt = 0 then s else
            s.queueElems jid (s.chanOn jid (((s.chansOf jid).head?.getD 0) / 32)) (segPart r.mapAt r.next 2 mb)
          let s := s.updRead jid (fun r => { r with
            tableAt := if r.tableAt = 0 then 0 else r.tableAt + 128, mapAt := if r.mapAt = 0 then 0 else r.mapAt + mb })
          (upd s).pumpRead0 jid n
        else s

/-- The first stored index at or after time `t` in the runs `rs`, of a store into which `total` words have gone. -/
def runAt (total t : Nat) : List StRun → Option Nat
  | [] => none
  | r :: rs =>
    let stop := match rs with
      | [] => total
      | q :: _ => q.o
    let i := if t ≤ r.t then 0 else ceilDiv (t - r.t) r.dt * r.per
    if i < 64 * (stop - r.o) then some (64 * r.o + i) else runAt total t rs

/-- The position in the store, as a stored index, of the first stored sample at or after time `t`, be it overwritten
since (R168, R169). -/
def Capt.firstAt (k : Capt) (t : Nat) : Option Nat := runAt (k.dropped + k.words.length) t k.runs

/-- A read in MODE 1 queues its range once its samples are stored, or the stream has ended (R168, R169). -/
def State.pumpRead1 (s : State) (r : SegRd) : State :=
  match s.capt? r.cap with
  | none => s.readQueued r
  | some k =>
    match k.firstAt r.next with
    | none =>
      if k.ended then (s.updRead r.jid (fun r => { r with anyMissed := true, anyNever := true })).readQueued r else s
    | some i =>
      if i + r.last ≤ 64 * (k.dropped + k.words.length) ∨ k.ended then
        let s := s.updRead r.jid (fun r => { r with firstIdx := i })
        let s := s.queueSeg { r with firstIdx := i } 0 r.last false (segWords i r.last).2
        s.readQueued r
      else s

/-- Reads that wait for a capture or stream go on (R169). -/
def State.pumpReads (s : State) (cap : Nat) : State :=
  (s.record.reads.filter (fun r => r.cap = cap && !r.queued)).foldl (fun s r =>
    if r.range then s.pumpRead1 r else s.pumpRead0 r.jid (r.last - r.next + 1)) s

/-! ### Entries, and the end of a capture -/

/-- Appends an entry to a capture's table, a ring of N entries for a roll capture (R145, R150). -/
def Capt.addEnt (k : Capt) (e : SegEnt) : Capt :=
  let t := k.table ++ [e]
  if k.shape = 2 ∧ k.n < t.length then { k with table := t.drop 1, entBase := k.entBase + 1 } else { k with table := t }

/-- The number of the next entry. -/
def Capt.nextEnt (k : Capt) : Nat := k.entBase + k.table.length

/-- Writes the gap entry of the marks declined so far (R142). -/
def State.closeGap (s : State) (jid : Nat) : State :=
  match (s.capt? jid) with
  | none => s
  | some k =>
    match k.gapOpen with
    | none => s
    | some g =>
      let e : SegEnt := { mark := g.mark, gap := true, seq := k.nextEnt, start := g.last, first := g.declined, len := g.lost }
      (s.updCapt jid (fun k => { k.addEnt e with gapOpen := none })).pumpReads jid

/-- DETAIL of CAPTURE_ARM (R165). -/
def Capt.detail (k : Capt) : Nat :=
  b2n k.anyStopped * 2 ^ 27 + b2n k.anyLost * 2 ^ 26 + b2n k.anyDeclined * 2 ^ 25 + b2n k.anyTrunc * 2 ^ 24 + min k.segs 0xFFFFFF

/-- Held data is released, with every stream-backed capture that names it (R136). -/
def State.releaseHeld (s : State) (jid : Nat) : State :=
  let gone (k : Capt) : Bool := k.ended && (k.jid = jid || k.backed = some jid)
  let ids := (s.record.capts.filter gone).map (·.jid)
  let s := { s with record := { s.record with capts := s.record.capts.filter (fun k => !gone k) } }
  (s.onHost (fun h => { h with kept := h.kept.filter (fun x => !ids.contains x.1) })).recordRegs

/-- A capture or a stream ends (R136, R165, R166): its data becomes held, its job's final record follows with the
reasons that `f` adds. -/
def State.captEnd (s : State) (jid : Nat) (f : Job → Job) : State :=
  let s := s.closeGap jid
  match s.capt? jid with
  | none => s
  | some k =>
    if k.ended then s else
    let side (v : Nat) (c : Bool) : Nat := if c then v else 0
    let a := decide (k.input / 2 = 0)
    let s := s.onHost (fun h => { h with kept := h.kept ++ [(jid, { store0 := side k.space a, store1 := side k.space (!a) })] })
    let s := s.updJob jid (fun j => { j with demand := { j.demand with store0 := 0, store1 := 0 } })
    let s := s.updCapt jid (fun k => { k with ended := true, closed := true, wins := [], inbox := [] })
    let s := if k.backed.isNone then
        match s.follower jid with
        | some j =>
          let s := if k.carry.isEmpty then s else s.produce j.jid (leBytes 8 (pack10 (k.carry.map (unsg 10))))
          s.closeProducer j.jid
        | none => s
      else s
    let s := if k.backed.isNone then s.setDec k.input 0 1 0 else s
    let s := if k.backed.isNone then s.wr F.AFTERGLOW_CHn_STAT_ACTIVE 0 k.input else s
    let s := ((s.recordRegs).pumpReads jid).sourceEnded jid
    let s := if k.stopJid = 0 then s else s.endJob k.stopJid id
    let s := s.endJob jid (fun j =>
      let j := { j with anchor := some (j.anchor.getD s.phys) }
      f (if k.isStream then { j with detail := min k.breaks 0xFFFF }
        else { j with
          detail := k.detail, fPartial := j.fPartial || (k.shape ≠ 2 && decide (k.segs < k.n))
          fFlagged := j.fFlagged || k.anyFlag }))
    if k.release then s.releaseHeld jid else s

/-- Whether a capture has nothing left to do: N segments, or no further marks and no open window (R149). -/
def Capt.finished (k : Capt) : Bool :=
  (k.shape ≠ 2 && decide (k.n ≤ k.segs)) || (k.closed && k.wins.isEmpty)

/-- Writes the entry of a capture's oldest window (R145), which ends at sample position `stop` at the latest. Words of a
gate beyond its end are not kept. -/
def State.closeWin (s : State) (jid : Nat) (w : Win) (stop : Nat) (trunc stopped : Bool) : State :=
  match s.capt? jid with
  | none => s
  | some k =>
    let n := k.input
    let s := if k.backed.isNone ∧ k.shape = 3 then
        s.updCapt jid (fun k =>
          let later := k.wins.filter (fun v => v.mark ≠ w.mark && v.trig.isSome)
          { k with
            words := k.words.filter (fun x => decide (x.g < ceilDiv stop 64) ||
              later.any (fun v => decide (v.start / 64 ≤ x.g)))
            nextG := if later.isEmpty then min k.nextG (ceilDiv stop 64) else k.nextG })
      else s
    let st := s.storeOf ((s.capt? jid).getD k)
    let ws := st.words.filter (fun x => decide (w.start / 64 ≤ x.g ∧ 64 * x.g < stop))
    let total := st.dropped + st.words.length
    let lo :=
      if (runPos total (w.start / 64) st.runs).isSome then w.start
      else match ws.head? with | some x => max w.start (64 * x.g) | none => w.start
    let hi := match ws.getLast? with | some x => min stop (64 * (x.g + 1)) | none => lo
    let smps := (ws.map (fun x => ((List.range 64).zip x.w.smps).filterMap (fun p =>
      let i := 64 * x.g + p.1
      if lo ≤ i ∧ i < hi then some p.2 else none))).flatten
    let has (v : Nat) : Bool := ws.any (fun x => x.w.status = v)
    let ts := w.truncStart || decide (w.start < lo)
    let peak := decide (st.mode = 2)
    let sp : Q := ⟨st.factor * s.spacing n, 1⟩
    let first := (match runPos total (lo / 64) st.runs with | some o => 64 * o | none => st.indexOf (lo / 64)) + lo % 64
    let gone := decide (first < 64 * st.dropped ∧ lo < hi)
    let e : SegEnt :=
      { mark := w.mark, gap := false, seq := k.nextEnt
        start := match (runTime first st.runs).or (smps.head?.map (·.t)) with | some t => t | none => w.mark.stamp
        retired := gone && k.backed.isNone, overwritten := gone && k.backed.isSome
        first := first, len := hi - lo, trigIdx := (w.trig.getD lo) - lo, range := w.range
        stopped := stopped, truncStart := ts, truncEnd := trunc || w.truncEnd || decide (hi < stop), sharedStart := w.sharedStart
        sharedEnd := k.wins.any (fun v => v.mark ≠ w.mark && v.trig.isSome && decide (v.start < hi))
        stat01 := has 1, stat10 := has 2, stat11 := has 3
        damagedWords := countP (fun x => x.w.damaged) ws, words := ws.length
        metrics := metricSlots (isS16 st.mode) peak k.metrics smps sp }
    let late := e.truncStart || e.truncEnd
    let flagged := e.stat01 || e.stat10 || e.stat11 || decide (0 < e.damagedWords)
    let s := s.updCapt jid (fun k =>
      let k := { k with table := k.table.map (fun (x : SegEnt) =>
        if !x.gap && decide (first < x.first + x.len) then { x with sharedEnd := true } else x) }
      { k.addEnt e with
        wins := k.wins.filter (fun v => v.mark ≠ w.mark), segs := k.segs + 1
        anyStopped := k.anyStopped || stopped, anyTrunc := k.anyTrunc || late, anyFlag := k.anyFlag || flagged
        maxStop := max k.maxStop hi, sumQ := if k.backed.isNone then k.sumQ ++ [e.seq] else k.sumQ })
    let s := s.count F.RECORD_CHn_SEG_CNT_COUNT 1 n
    let s := if late then s.count F.RECORD_CHn_TRUNC_CNT_COUNT 1 n else s
    let s := if k.backed.isNone && k.mode = 0 then
        let s := if k.shape = 3 then
            ws.foldl (fun s x => s.agWord n k.pre { w with stop := some hi } x.g x.w) s
          else s
        s.agClose n k.pre { w with stop := some hi } ws
      else s
    s.pumpReads jid

/-- Closes every open window and gate of a capture at once (R153): at the last word with a status other than 11. A window
whose last sample has passed Penumbra closes as it would have. `clock` says that a clock fault closes them. -/
def State.closeAll (s : State) (jid : Nat) (stopped clock : Bool) : State :=
  match s.capt? jid with
  | none => s
  | some k =>
    let c := s.rch k.input
    let back := countP (fun (_ : SWord) => true) (c.pen.takeWhile (fun w => w.status = 3))
    let lim := 64 * (c.penN - back)
    k.wins.foldl (fun s w =>
      let w := match w.trig with
        | some _ => w
        | none =>
          let tr := match trigOf c.lo w.mark.stamp true c.penN c.pen with
            | some t => t
            | none => lim - 1
          { w with trig := some tr, start := max (64 * c.lo) (tr - k.pre), truncStart := decide (tr < 64 * c.lo + k.pre) }
      let full := w.stop.getD lim
      let s := s.writeWin jid { w with stop := some (min full lim) }
      let cut := decide (lim < full) || w.stop.isNone
      let s := if clock && cut then s.count F.RECORD_CHn_CLOCK_CNT_COUNT 1 k.input else s
      s.closeWin jid w (min full lim) cut (stopped && cut)) s

end Sys2Proof.Machine
end

