-- ==== Sys2Proof/Machine/SegRead.lean ====
section
/-! DEFINITION. Machine/SegRead.lean: what a SEGMENT_READ delivers: samples in a format (R159, R160), table entries (R145),
word maps (R148), and damage found on a read (R146, R147). -/
namespace Sys2Proof.Machine

/-- A sample in I16 or F32 (R160). -/
def fmtSmp (fmt : Nat) (s16 : Bool) (x : Smp) : Bytes :=
  if fmt = 1 then
    leBytes 2 (unsg 16 (if s16 then x.v else if x.v = -512 then -32768 else if x.v = 511 then 32767 else 64 * x.v))
  else leBytes 4 (volts32 s16 x)

/-- The stored word that holds stored index `i`, if the store still holds it. -/
def Capt.word? (k : Capt) (i : Nat) : Option StW := if i / 64 < k.dropped then none else k.words[i / 64 - k.dropped]?

/-- A stored sample. -/
def Capt.smp? (k : Capt) (i : Nat) : Option Smp := (k.word? i).bind (fun x => x.w.smps[i % 64]?)

/-- Whether stored indices `a` and `i` of a stream lie in one run of consecutive words (R153, R169). -/
def Capt.sameRun (k : Capt) (a i : Nat) : Bool :=
  k.runs.all (fun r => !r.brk || decide (r.o ≤ a / 64) == decide (r.o ≤ i / 64))

/-- The delivered bytes of a segment's data, none where a byte is left unwritten (R160, R169): `len` samples from stored
index `first`; a range read stays within the run of its first sample. A PACK10 word with a sample that is not
delivered is left unwritten whole. -/
def segBytes (k : Capt) (fmt first len : Nat) (range : Bool) : List (Option Byte) :=
  let s16 := isS16 k.mode
  let get (i : Nat) : Option Smp := if range && !k.sameRun first (first + i) then none else k.smp? (first + i)
  let body : List (Option Byte) :=
    if fmt = 0 then
      ((List.range (ceilDiv len 6)).map (fun j =>
        let idx := (List.range (min 6 (len - 6 * j))).map (· + 6 * j)
        let xs := idx.map get
        if xs.all (·.isSome) then
          (leBytes 8 (pack10 (xs.map (fun x => unsg 10 ((x.map (·.v)).getD 0))))).map some
        else List.replicate 8 none)).flatten
    else
      ((List.range len).map (fun i => match get i with
        | some x => (fmtSmp fmt s16 x).map some
        | none => List.replicate (if fmt = 1 then 2 else 4) none)).flatten
  body ++ List.replicate (roundUp body.length 8 - body.length) (some 0)

/-- An entry's 128 bytes (R145). -/
def SegEnt.bytes (e : SegEnt) : Bytes :=
  let m := e.mark
  let mark := leBytes 8 m.stamp ++ leBytes 4 m.number ++ leBytes 1 m.flags ++ leBytes 1 (m.cond * 16 + m.unit) ++ leBytes 2 m.lost
  let flags := b2n e.retired * 2 ^ 10 + b2n e.overwritten * 2 ^ 9 + b2n e.stopped * 2 ^ 8 + b2n e.sharedEnd * 2 ^ 7 +
    b2n e.sharedStart * 2 ^ 6 + b2n e.truncEnd * 2 ^ 5 + b2n e.truncStart * 2 ^ 4 + b2n (decide (0 < e.damagedWords)) * 2 ^ 3 +
    b2n e.stat11 * 4 + b2n e.stat10 * 2 + b2n e.stat01
  let head := mark ++ leBytes 8 e.start ++ leBytes 8 (e.first % 2 ^ (if e.gap then 32 else 48)) ++
    leBytes 8 (e.len % 2 ^ (if e.gap then 32 else 48)) ++ leBytes 8 (e.trigIdx % 2 ^ 48) ++
    leBytes 4 (b2n e.gap * 2 ^ 30 + e.range % 4 * 2 ^ 28 + flags) ++ leBytes 4 e.damagedWords ++ leBytes 4 e.words ++ leBytes 4 e.seq
  head ++ ((List.range 16).map (fun i => leBytes 4 (e.metrics.getD i 0))).flatten

/-- The nibbles of a word map as bytes, padded with zero (R148). -/
def mapOf (ns : List Nat) : Bytes :=
  let n := mapBytes ns.length
  (List.range n).map (fun i => BitVec.ofNat 8 (ns.getD (2 * i) 0 + 16 * ns.getD (2 * i + 1) 0))

/-- The nibble of one stored word (R148). -/
def Capt.nibble (k : Capt) (missed : List Nat) (wi : Nat) : Nat :=
  match k.word? (64 * wi) with
  | some x => (if missed.contains wi then 8 else 0) + (if x.w.damaged then 4 else 0) + x.w.status
  | none => 8

/-- Writes the bytes that are delivered, in runs of consecutive addresses. -/
def State.writeRuns (s : State) (addr : Nat) : List (Option Byte) → Bytes → State
  | [], cur => if cur.isEmpty then s else s.emit (.hostWrite (addr - cur.length) cur)
  | some b :: r, cur => s.writeRuns (addr + 1) r (cur ++ [b])
  | none :: r, cur =>
    (if cur.isEmpty then s else s.emit (.hostWrite (addr - cur.length) cur)).writeRuns (addr + 1) r []

/-- A read finds a stored word damaged (R147): every entry that overlaps it says so, and it counts once. -/
def State.damageWord (s : State) (store wi : Nat) : State :=
  match s.capt? store with
  | none => s
  | some k =>
    match k.word? (64 * wi) with
    | none => s
    | some x =>
      if x.w.damaged then s else
      let s := s.updCapt store (fun k => { k with words := k.words.map (fun (y : StW) =>
        if y.g = x.g then { y with w := { y.w with damaged := true } } else y) })
      let retire (e : SegEnt) : SegEnt :=
        if !e.gap && decide (e.first < 64 * (wi + 1) ∧ 64 * wi < e.first + e.len) then
          { e with damagedWords := e.damagedWords + 1 } else e
      let s := { s with record := { s.record with capts := s.record.capts.map (fun (k : Capt) =>
        if k.jid = store || k.backed = some store then { k with table := k.table.map retire, anyFlag := true } else k) } }
      (s.count F.RECORD_CHn_DAMAGED_CNT_COUNT 1 k.input).setf F.RECORD_CHn_STAT_DAMAGED k.input

/-- The job's DETAIL and the reasons for its final STATUS follow the read (R169). -/
def State.readDetail (s : State) (jid : Nat) : State :=
  match s.record.reads.find? (fun r => r.jid = jid) with
  | none => s
  | some r => s.updJob jid (fun j => { j with
      detail := b2n r.anyNever * 2 ^ 27 + b2n r.anyMissed * 2 ^ 26 + b2n r.anyStat * 2 ^ 25 + b2n r.anyDamage * 2 ^ 24 +
        min r.whole 0xFFFFFF
      fPartial := j.fPartial || r.anyMissed, fFlagged := j.fFlagged || r.anyDamage || r.anyStat })

/-- The first sample and the length that a read's part names: an entry's, or the range's. -/
def SegRd.target (r : SegRd) (k : Capt) (ent : Nat) : Option (Nat × Nat) :=
  if r.range then some (r.firstIdx, r.last)
  else (k.table[ent - k.entBase]?).bind (fun e => if k.entBase ≤ ent then some (e.first, e.len) else none)

/-- The part of a data element: what the store holds is delivered, damage found is recorded, and what is not delivered is
noted (R147, R148, R169). `bad` lists the byte offsets within the element at which the read failed. -/
def State.segData (s : State) (r : SegRd) (k : Capt) (addr ent off moved : Nat) (bad : List Nat) : State :=
  let store := (s.storeOf k).jid
  match r.target k ent with
  | none => s.updRead r.jid (fun r => { r with anyMissed := true })
  | some (first, len) =>
    let word (o : Nat) : Nat :=
      (first + (if r.fmt = 0 then o / 8 * 6 else if r.fmt = 1 then o / 2 else o / 4)) / 64
    let s := bad.foldl (fun s o => s.damageWord store (word (off + o))) s
    let st := s.storeOf k
    let bs := segBytes st r.fmt first len r.range
    let part := (bs.drop off).take moved
    let s := s.writeRuns addr part []
    let full := fmtBytes r.fmt len
    let wis := ((List.range (segWords first len).2).map (· + first / 64)).filter (fun wi =>
      decide (moved ≠ 0) && decide (word off ≤ wi) && decide (wi ≤ word (min (off + moved) full - 1)))
    let gone := wis.filter (fun wi => (st.word? (64 * wi)).isNone || (r.range && !st.sameRun first (64 * wi)))
    let has (f : SWord → Bool) : Bool := wis.any (fun wi => !gone.contains wi &&
      (match st.word? (64 * wi) with | some x => f x.w | none => false))
    s.updRead r.jid (fun r =>
      let missed := (r.missed ++ gone).eraseDups
      let last := decide (bs.length ≤ off + moved)
      let ok := ((List.range (segWords first len).2).map (· + first / 64)).all (fun wi => !missed.contains wi)
      { r with
        missed := missed, anyMissed := r.anyMissed || !gone.isEmpty, anyDamage := r.anyDamage || has (·.damaged)
        anyStat := r.anyStat || has (fun w => w.status ≠ 0), whole := if last && ok then r.whole + 1 else r.whole })

/-- A table entry of a read (R146): one bad copy is repaired, two end the job INTEGRITY_FAULT. -/
def State.segEntry (s : State) (r : SegRd) (k : Capt) (addr ent off moved : Nat) (bad : List Nat) : State :=
  match (if k.entBase ≤ ent then k.table[ent - k.entBase]? else none) with
  | none => s.updRead r.jid (fun r => { r with anyMissed := true })
  | some e =>
    let s := if bad.length = 1 then s.count F.RECORD_TABLE_REPAIR_CNT_COUNT else s
    let s := if 2 ≤ bad.length then
        (s.count F.RECORD_TABLE_FAIL_CNT_COUNT).updJob r.jid (fun j => { j with fIntegrity := true })
      else s
    s.emit (.hostWrite addr ((e.bytes.drop off).take moved))

/-- A word map of a read (R148): a segment that was never written has w_max words that are not delivered. -/
def State.segMap (s : State) (r : SegRd) (k : Capt) (addr ent off moved : Nat) : State :=
  let st := s.storeOf k
  let ns := match r.target k ent with
    | some (first, len) => (List.range (segWords first len).2).map (fun i => st.nibble r.missed (first / 64 + i))
    | none => List.replicate k.wMax 8
  s.emit (.hostWrite addr (((mapOf ns).drop off).take moved))

/-- The bytes that an element of a SEGMENT_READ writes to host memory: what is left unwritten does not count (R51, R169). -/
def State.segWritten (s : State) (jid ent part off moved : Nat) : Nat :=
  match s.record.reads.find? (fun r => r.jid = jid) with
  | none => 0
  | some r =>
    match s.capt? r.cap with
    | none => 0
    | some k =>
      if part = 0 then
        match r.target k ent with
        | none => 0
        | some (first, len) =>
          countP (·.isSome) (((segBytes (s.storeOf k) r.fmt first len r.range).drop off).take moved)
      else if part = 1 ∧ (ent < k.entBase ∨ k.entBase + k.table.length ≤ ent) then 0
      else moved

/-- An element of a SEGMENT_READ has moved `moved` bytes. -/
def State.segDone (s : State) (jid addr ent part off moved : Nat) (bad : List Nat) : State :=
  match s.record.reads.find? (fun r => r.jid = jid) with
  | none => s
  | some r =>
    match s.capt? r.cap with
    | none => s.readDetail jid
    | some k =>
      let s := match part with
        | 0 => s.segData r k addr ent off moved bad
        | 1 => s.segEntry r k addr ent off moved bad
        | _ => s.segMap r k addr ent off moved
      s.readDetail jid

end Sys2Proof.Machine
end

