-- ==== Sys2Proof/Machine/RecJobs.lean ====
section
/-! DEFINITION. Machine/RecJobs.lean: the jobs of the record store and the events of its captures and streams ("Penumbra
buffer, gapless segmentation and decimation", R135-R169). -/
namespace Sys2Proof.Machine

/-- Whether no payload bit is set outside the listed fields: byte, high bit, low bit (R163 and its like). -/
def payloadOnly (d : Bytes) (fields : List (Nat × Nat × Nat)) : Bool :=
  let v := leNat (d.drop 8)
  let m := fields.foldl (fun m f => m ||| ((2 ^ (f.2.1 + 1 - f.2.2) - 1) * 2 ^ (8 * (f.1 - 8) + f.2.2))) 0
  v &&& m = v

/-- A fraction rounded up to units of 10 MB/s, from bytes per second. -/
def unitsOf (q : Q) : Nat := ceilDiv q.num (q.den * 10000000)

/-- Bytes rounded up to MiB. -/
def mibOf (n : Nat) : Nat := ceilDiv n (2 ^ 20)

/-- A side's values of an account kept per stack. -/
def bySide (n v : Nat) : Nat × Nat := if n / 2 = 0 then (v, 0) else (0, v)

/-- A writer's full stream rate R_w in bytes per second (R164). -/
def State.rwOf (s : State) (n mode factor : Nat) : Q :=
  let r := storedIn mode factor (s.spacing n) tickS
  if isS16 mode then ⟨r.num * 2, r.den⟩ else ⟨r.num * 8, r.den * 6⟩

/-- Record-path power in 0.1 W (R458): 2.5 W × r / 128, or 5.0 W for a pair; twice that for Afterglow. -/
def State.recPower (s : State) (n : Nat) (afterglow : Bool) : Q :=
  let u := if afterglow then 50 else 25
  if s.paired n then ⟨2 * u, 1⟩ else ⟨u, 2 ^ (s.ract F.PRISM_CHn_CTRL_RATE n)⟩

/-- The block is online for input `n`, and the input is not under calibration (R58, account 0x01). -/
def State.inputReady (s : State) (n : Nat) : Bool :=
  s.chOn n && !s.pairedOdd n && s.flag F.PRISM_CHn_STAT_ONLINE n && !s.calOwned n

/-- A store-writing job that would make the 257th capture or stream that is or can become held (R136). -/
def State.heldShort (s : State) : List (Nat × Nat) := if 256 ≤ s.record.capts.length then [(3, 0)] else []

/-- The fields of a CAPTURE_ARM payload (R163). -/
structure ArmCfg where
  n : Nat
  shape : Nat
  unit : Nat
  backed : Bool
  stopUnit : Nat
  mode : Nat
  bits : Nat
  factor : Nat
  pre : Nat
  post : Nat
  count : Nat
  rate : Nat
  burst : Nat
  metrics : List Nat
  limit : Nat
  armUs : Nat

/-- Reads a CAPTURE_ARM payload (R163). -/
def armCfg (j : Job) : ArmCfg :=
  { n := j.bits 8 1 1 0, shape := j.bits 9 1 1 0, unit := j.bits 9 1 6 4, backed := j.bits 9 1 7 7 = 1
    stopUnit := j.bits 10 1 2 0, mode := j.bits 11 1 2 0, bits := j.bits 11 1 5 4, factor := j.fld 12 4
    pre := j.fld 16 6, post := j.fld 24 6, count := j.fld 32 3 + 1, rate := j.fld 36 4, burst := j.fld 40 2 + 1
    metrics := (List.range 16).map (fun i => j.fld (42 + i) 1), limit := j.fld 58 2, armUs := j.fld 60 4 }

/-- The payload bits of a CAPTURE_ARM that a field covers (R163). -/
def armFields : List (Nat × Nat × Nat) :=
  [(8, 1, 0), (9, 1, 0), (9, 6, 4), (9, 7, 7), (10, 2, 0), (11, 2, 0), (11, 5, 4), (12, 31, 0), (16, 47, 0), (22, 15, 0),
   (24, 47, 0), (30, 5, 0), (32, 23, 0), (36, 31, 0), (40, 15, 0), (42, 127, 0), (58, 15, 0), (60, 31, 0)]

/-- w_max (R164). -/
def ArmCfg.wMax (a : ArmCfg) : Nat :=
  ceilDiv (a.pre + a.post + (if a.shape = 3 then a.limit * 2 ^ 20 else 0)) 64 + 1

/-- B_win in bytes (R164). -/
def ArmCfg.bWin (a : ArmCfg) (s16 : Bool) : Nat := if s16 then 128 * a.wMax else ceilDiv (64 * a.wMax) 6 * 8

/-- I in ticks (R141). -/
def markGap (rate : Nat) : Nat := tickS / max rate 1

/-- The samples that a stream's ring holds: PACK10 words of 6 samples, or S16 (R152). -/
def Capt.ringSamples (k : Capt) : Nat := if isS16 k.mode then k.limit * 2 ^ 20 / 2 else k.limit * 2 ^ 20 / 8 * 6

/-- The rules on a CAPTURE_ARM's own fields (R138, R144, R149, R154, R161, R163). -/
def State.armBad (s : State) (j : Job) (a : ArmCfg) (st : Option Capt) : Bool :=
  let limMax := if a.n / 2 = 0 then 1532 else 1536
  let limitBad := if a.shape = 2 then a.limit = 0 || decide (limMax < a.limit) else if a.shape = 3 then a.limit = 0
    else a.limit ≠ 0
  let decBad := if a.backed then a.mode ≠ 0 || a.factor ≠ 0 || a.bits ≠ 0 else !decOk a.mode a.factor a.bits
  let bw := a.bWin (isS16 a.mode)
  let rw := s.rwOf a.n a.mode (max a.factor 1)
  let preBad := match st with
    | some k => decide (k.ringSamples < a.pre + 2097152)
    | none => !a.backed && decide (preMax (s.paired a.n) a.mode (max a.factor 1) (s.spacing a.n) < a.pre)
  j.kflags ≠ 0 || !payloadOnly j.desc armFields || limitBad || decBad || preBad ||
    (a.shape ≠ 3 && a.stopUnit ≠ 0) || (a.shape = 0 && a.count ≠ 1) ||
    decide (a.pre + a.post < 64 ∨ 2 ^ 40 < a.pre + a.post) || a.rate = 0 || decide (500000000 < a.rate) ||
    (decide (a.shape < 2) && a.armUs = 0) || a.metrics.any (fun c => decide (18 < c)) ||
    (!a.backed && decide (a.rate * bw * rw.den < rw.num) && decide (2097152 < a.burst * 64 * a.wMax)) ||
    (a.backed && (match st with | none => true | some k => k.input ≠ a.n))

/-- The demands and state rules that Afterglow adds to a capture (R172, R177): whether the state allows it, the stack
bandwidth in bytes per second, and the space in bytes. -/
def State.agDemand (s : State) (a : ArmCfg) : Bool × Q × Nat :=
  if !s.agAny a.n then (true, ⟨0, 1⟩, 0) else
  let p := a.pre + a.post
  let sum := s.agOn a.n F.AFTERGLOW_CHn_CTRL_SUM_EN
  let env := s.agOn a.n F.AFTERGLOW_CHn_CTRL_ENV_EN
  let rate := s.ract F.PRISM_CHn_CTRL_RATE a.n
  let k := if s.paired a.n then 1 else 2 * 2 ^ rate
  let o := a.burst + (p * s.spacing a.n + s.span a.n) / markGap a.rate
  let areaOk := a.shape ≠ 3 && decide (p ≤ 4194304) && decide (a.rate * p ≤ 8000000000)
  let ok := a.mode = 0 && !a.backed && decide (o ≤ k) && (!(sum || env) || areaOk)
  let bytes6 := (if sum then 96 else 0) + (if env then 48 else 0) + (if sum || env then 8 else 0)
  (ok, ⟨a.rate * p * bytes6, 6⟩, (if sum then 16 * p else 0) + (if env then 8 * p else 0))

/-- The demands of a CAPTURE_ARM (R163, R164, R172). -/
def State.armPlan (s : State) (j : Job) : Plan :=
  let a := armCfg j
  let sq := j.bits 30 1 5 0
  let tag := j.fld 22 2
  let st := if a.backed then (s.captOf sq tag).bind (fun k => if k.isStream then some k else none) else none
  let ag := s.agDemand a
  let bw := a.bWin (isS16 a.mode)
  let rw := s.rwOf a.n a.mode (max a.factor 1)
  let win : Q := if a.backed then ⟨0, 1⟩ else if rw.num < a.rate * bw * rw.den then rw else Q.of (a.rate * bw)
  let units := unitsOf ((win.add (Q.of (a.rate * 256))).add ag.2.1)
  let table := (2 * a.count + 1) * 256
  let space := mibOf ((if a.backed then 0 else if a.shape = 2 then a.limit * 2 ^ 24 else a.count * bw) + table + ag.2.2)
  let power := if a.backed then hbmPower units else
    ((s.recPower a.n false).add (hbmPower units)).add (if s.agAny a.n then s.recPower a.n true else ⟨0, 1⟩)
  let ins := s.inputsOf a.n
  { malformed := s.armBad j a st
    stateOk := s.inputReady a.n && ag.1 && (match st with | some k => !k.ended | none => true)
    conflict := (s.heldCapts.any (fun k => k.sq = j.sq && k.tag = j.tag)) ||
      (match st with
        | some k => decide (8 ≤ countP (fun b => b.backed = some k.jid && !b.ended) s.record.capts)
        | none => ins.any s.owned)
    demand := fun _ _ => {
      claims := if a.backed then [] else ins.map (fun n => .input n .record)
      store0 := (bySide a.n space).1, store1 := (bySide a.n space).2
      hbm0 := (bySide a.n units).1, hbm1 := (bySide a.n units).2, power := power.ceil }
    specials := fun _ _ => s.heldShort
    work := fun _ _ => if a.backed then ⟨4, 1⟩ else (Q.of 4).add ⟨a.burst * bw, 10 * max units 1⟩
    dur := fun _ _ => if a.armUs = 0 then none else some (a.armUs * tickUs) }

/-- CAPTURE_ARM (R164): an admitted capture becomes its input's writer, or joins a stream. -/
def execCaptureArm (s : State) : Host.Outcome State Fault Refusal :=
  live s fun s => s.admission 0x01 s.armPlan (fun s j =>
    let a := armCfg j
    let st := if a.backed then (s.captOf (j.bits 30 1 5 0) (j.fld 22 2)).map (·.jid) else none
    let k : Capt :=
      { jid := j.jid, sq := j.sq, tag := j.tag, input := a.n, backed := st, shape := a.shape, unit := a.unit
        stopUnit := a.stopUnit, mode := a.mode, factor := max a.factor 1, bits := a.bits, pre := a.pre, post := a.post
        n := a.count, gap1 := markGap a.rate, burstL := (a.burst - 1) * markGap a.rate, metrics := a.metrics
        limit := a.limit, armTime := a.armUs, autoResume := j.autoResume, due := s.devTime + 2 * tickUs
        space := j.demand.store0 + j.demand.store1 }
    ({ s with record := { s.record with capts := s.record.capts ++ [k] } }).writerRegs a.n)

/-- CAPTURE_ARMING (R137): at the first word that begins at least 2 µs after admission. -/
def execCaptureArming (sq : Fin 64) (tag : BitVec 16) (s : State) : Host.Outcome State Fault Refusal :=
  live s fun s =>
    match s.captOf sq tag.toNat with
    | none => s
    | some k =>
      if k.isStream || k.ended || k.armed.isSome then s else
      let t := s.gridFrom k.input k.due
      let s := s.toDev t
      let s := s.updCapt k.jid (fun k => { k with armed := some t, tat := t, nextG := 0 })
      if k.backed.isSome then s else
      let s := if k.mode = 0 then s.writerRegs k.input else s.setDec k.input k.mode k.factor k.bits
      if s.agAny k.input then s.setf F.AFTERGLOW_CHn_STAT_ACTIVE k.input else s

/-- Ends a capture that has nothing left to do (R149). -/
def State.captCheck (s : State) (jid : Nat) : State :=
  match s.capt? jid with
  | some k => if !k.isStream && !k.ended && k.finished then s.captEnd jid id else s
  | none => s

/-- A capture's acceptance test and what follows (R141, R142, R151). -/
def State.takeMark (s : State) (k : Capt) (m : Mark) : State :=
  let n := k.input
  let s := if m.lost = 0 then s else s.count F.RECORD_CHn_LOST_CNT_COUNT m.lost n
  let s := s.updCapt k.jid (fun k => { k with anyLost := k.anyLost || m.lost ≠ 0 })
  if m.stamp + k.burstL < k.tat then
    let g : Gap := match k.gapOpen with
      | some g => { g with last := m.stamp, declined := g.declined + 1, lost := g.lost + m.lost }
      | none => { mark := m, last := m.stamp, declined := 1, lost := m.lost }
    let s := s.updCapt k.jid (fun k => { k with gapOpen := some g, anyDeclined := true })
    ((s.count F.RECORD_CHn_DECLINED_CNT_COUNT 1 n).setf F.RECORD_CHn_STAT_DECLINED n).ledgerAdd ctrDeclined
  else
    let s := s.closeGap k.jid
    let s := s.updCapt k.jid (fun k => { k with
      tat := max k.tat m.stamp + k.gap1, accepted := k.accepted + 1, wins := k.wins ++ [{ mark := m }] })
    s.captWork k.jid

/-- A gate is open: its closing mark has not come (R151). -/
def Capt.gateOpen (k : Capt) : Bool := k.wins.any (fun w => w.stop.isNone && w.closing.isNone)

/-- The capture of job `jid` judges the next mark that has reached it (R141, R151). A gate closes at the next mark of
STOP_UNIT; marks of UNIT are ignored until then, be it that the gate has ended at its LIMIT. -/
def State.judgeMark (s : State) (jid : Nat) : State :=
  match s.capt? jid with
  | none => s
  | some k =>
    match k.inbox with
    | [] => s
    | m :: rest =>
      let s := s.updCapt jid (fun k => { k with inbox := rest })
      let early := match k.armed with | some t => decide (m.stamp < t) | none => true
      let opens := k.wins.any (fun w => w.stop.isNone && w.closing.isNone && decide (m.stamp < w.mark.stamp))
      if early || k.hold || k.ended then s
      else if k.shape = 3 && (k.gateOpen || k.cut) then
        if m.unit = k.stopUnit && !opens then
          let s := s.updCapt jid (fun k => { k with
            cut := false
            wins := k.wins.map (fun w =>
              if w.stop.isNone && w.closing.isNone then { w with closing := some m.stamp } else w) })
          s.captWork jid
        else s
      else if m.unit ≠ k.unit || k.closed || (k.shape ≠ 2 && decide (k.n ≤ k.accepted)) then s
      else s.takeMark k m

/-- CAPTURE_MARK (R141, R151): the capture judges the next mark that has reached it. -/
def execCaptureMark (sq : Fin 64) (tag : BitVec 16) (s : State) : Host.Outcome State Fault Refusal :=
  live s fun s =>
    match s.captOf sq tag.toNat with
    | none => s
    | some k => s.judgeMark k.jid

/-- WINDOW_CLOSE (R145): the last sample of the capture's oldest window has passed Penumbra. -/
def execWindowClose (sq : Fin 64) (tag : BitVec 16) (s : State) : Host.Outcome State Fault Refusal :=
  live s fun s =>
    match s.captOf sq tag.toNat with
    | none => s
    | some k =>
      match k.wins with
      | [] => s
      | w :: _ =>
        match w.stop with
        | none => s
        | some e =>
          if 64 * (s.rch k.input).penN < e then s
          else ((s.writeWin k.jid w).closeWin k.jid w e false false).captCheck k.jid

/-- ARM_TIME_EXPIRY (R149): the capture takes no further marks; a gate that is open still takes its closing mark. -/
def execArmTimeExpiry (sq : Fin 64) (tag : BitVec 16) (s : State) : Host.Outcome State Fault Refusal :=
  live s fun s =>
    match s.captOf sq tag.toNat with
    | none => s
    | some k =>
      match k.armed with
      | none => s
      | some t =>
        if k.isStream || k.ended || k.armTime = 0 then s else
        let s := s.toDev (t + k.armTime * tickUs)
        (s.updCapt k.jid (fun k => { k with closed := true })).captCheck k.jid

/-- GATE_LIMIT (R151): an open gate has taken LIMIT × 2^20 stored samples, and ends there. -/
def execGateLimit (sq : Fin 64) (tag : BitVec 16) (s : State) : Host.Outcome State Fault Refusal :=
  live s fun s =>
    match s.captOf sq tag.toNat with
    | none => s
    | some k =>
      if k.shape ≠ 3 then s else
      match k.wins.find? (fun w => w.stop.isNone && w.trig.isSome) with
      | none => s
      | some w =>
        let e := k.winEnd w
        if 64 * (s.rch k.input).penN < e then s else
        s.updCapt k.jid (fun k => { k with
          cut := k.cut || w.closing.isNone
          wins := k.wins.map (fun v => if v.mark = w.mark then { v with stop := some e, truncEnd := true } else v) })

/-! ### Streams -/

/-- The demands of a STREAM_OPEN (R166). -/
def State.openPlan (s : State) (j : Job) : Plan :=
  let n := j.bits 8 1 1 0
  let mode := j.bits 9 1 2 0
  let factor := j.fld 12 4
  let mib := j.fld 16 4
  let ins := s.inputsOf n
  let units := unitsOf (s.rwOf n mode (max factor 1))
  { malformed := j.kflags ≠ 0 || !payloadOnly j.desc [(8, 1, 0), (9, 2, 0), (9, 5, 4), (12, 31, 0), (16, 31, 0)] ||
      !decOk mode factor (j.bits 9 1 5 4) || mib = 0 || decide ((if n / 2 = 0 then 24512 else 24576) < mib)
    stateOk := s.inputReady n
    conflict := s.heldCapts.any (fun k => k.sq = j.sq && k.tag = j.tag) || ins.any s.owned
    demand := fun _ _ => {
      claims := ins.map (fun n => .input n .record), store0 := (bySide n mib).1, store1 := (bySide n mib).2
      hbm0 := (bySide n units).1, hbm1 := (bySide n units).2, power := ((s.recPower n false).add (hbmPower units)).ceil }
    specials := fun _ _ => s.heldShort
    work := fun _ _ => ⟨4, 1⟩
    dur := fun _ _ => none }

/-- STREAM_OPEN (R166). -/
def execStreamOpen (s : State) : Host.Outcome State Fault Refusal :=
  live s fun s => s.admission 0x03 s.openPlan (fun s j =>
    let n := j.bits 8 1 1 0
    let k : Capt :=
      { jid := j.jid, sq := j.sq, tag := j.tag, input := n, isStream := true, mode := j.bits 9 1 2 0, factor := j.fld 12 4
        bits := j.bits 9 1 5 4, limit := j.fld 16 4, autoResume := j.autoResume, due := s.devTime + 2 * tickUs
        space := j.demand.store0 + j.demand.store1 }
    ({ s with record := { s.record with capts := s.record.capts ++ [k] } }).writerRegs n)

/-- STREAM_START (R166): at the first word that begins at least 2 µs after admission. -/
def execStreamStart (sq : Fin 64) (tag : BitVec 16) (s : State) : Host.Outcome State Fault Refusal :=
  live s fun s =>
    match s.captOf sq tag.toNat with
    | none => s
    | some k =>
      if !k.isStream || k.ended || k.armed.isSome then s else
      let t := s.gridFrom k.input k.due
      let s := (s.toDev t).updCapt k.jid (fun k => { k with armed := some t })
      if k.mode = 0 then s.writerRegs k.input else s.setDec k.input k.mode k.factor k.bits

/-- SEGMENT_READs in flight. -/
def State.readsInFlight (s : State) : List SegRd := s.record.reads.filter (fun r => (s.job? r.jid).isSome)

/-- The demands of a STREAM_CLOSE (R167). -/
def State.closePlan (s : State) (j : Job) : Plan :=
  let k := s.captOf (j.bits 10 1 5 0) (j.fld 8 2)
  let stop := j.bits 11 1 0 0 = 1
  let rel := j.bits 11 1 1 1 = 1
  let t := j.fld 16 8
  let ticks := 4 * tickUs + (t - (s.devTime % 2 ^ 64 - (s.phys - j.pickup)))
  { malformed := j.kflags ≠ 0 || !payloadOnly j.desc [(8, 15, 0), (10, 5, 0), (11, 1, 0), (16, 63, 0)] || k.isNone ||
      (stop && (match k with | some k => !k.isStream && decide (k.shape < 2) | none => false))
    stateOk := match k with
      | some k => !(stop && (k.ended || k.stopAt.isSome)) && !(rel && s.readsInFlight.any (fun r => r.cap = k.jid || (s.capt? r.cap).any (fun c => c.backed = some k.jid)))
      | none => true
    work := fun _ _ => ⟨ticks, tickUs⟩
    dur := fun _ _ => some ticks }

/-- STREAM_CLOSE (R167): a stop is set for its word; held data is released, or will be when the target ends. -/
def execStreamClose (s : State) : Host.Outcome State Fault Refusal :=
  live s fun s => s.admission 0x04 s.closePlan (fun s j =>
    let s := s.updJob j.jid (fun j => { j with anchor := some j.pickup })
    match s.captOf (j.bits 10 1 5 0) (j.fld 8 2) with
    | none => s.endJob j.jid id
    | some k =>
      let rel := j.bits 11 1 1 1 = 1
      if j.bits 11 1 0 0 = 1 then
        let t := j.fld 16 8
        let e := if t = 0 then s.gridFrom k.input s.devTime else s.devTime / 2 ^ 64 * 2 ^ 64 + t
        s.updCapt k.jid (fun k => { k with stopAt := some e, stopJid := j.jid, release := k.release || rel })
      else
        let s := if !rel then s else if k.ended then s.releaseHeld k.jid
          else s.updCapt k.jid (fun k => { k with release := true })
        s.endJob j.jid id)

/-- STREAM_STOP (R167): the target's last word, the one that holds STOP_TIME, has passed, and it ends; open windows end
with it. -/
def execStreamStop (sq : Fin 64) (tag : BitVec 16) (s : State) : Host.Outcome State Fault Refusal :=
  live s fun s =>
    match s.captOf sq tag.toNat with
    | none => s
    | some k =>
      match k.stopAt with
      | none => s
      | some t =>
        if k.ended then s else
        let s := (s.toDev t).updCapt k.jid (fun k => { k with closed := true })
        (s.closeAll k.jid false false).captEnd k.jid id

/-! ### Clock faults, supply warnings and abort (R153) -/

/-- An SSYN lock loss (R153): every open window and gate closes, a stream has a break, and marks are ignored until the end
of the clock hold. A capture whose last window this closes has ended. -/
def State.recLoss (s : State) : State :=
  let s := (s.record.capts.filter (fun k => !k.ended)).foldl (fun s k =>
    let s := (k.inbox.foldl (fun s _ => s.judgeMark k.jid) s).closeAll k.jid true true
    let s := s.updCapt k.jid (fun k => { k with hold := true, inbox := [], breaks := if k.isStream then k.breaks + 1 else k.breaks })
    s.captCheck k.jid) s
  (List.range 4).foldl (fun s n => s.setf F.RECORD_CHn_STAT_CLOCK_HOLD n) s

/-- The end of the clock hold (R134, R153): jobs with AUTO_RESUME continue, the others end CLOCK_FAULT. -/
def State.recHoldEnd (s : State) : State :=
  let s := (List.range 4).foldl (fun s n => (s.wr F.RECORD_CHn_STAT_CLOCK_HOLD 0 n).penResume n) s
  (s.record.capts.filter (fun k => !k.ended && k.hold)).foldl (fun s k =>
    let s := s.updCapt k.jid (fun k => { k with hold := false })
    if k.autoResume then s else s.captEnd k.jid (fun j => { j with fClock := true })) s

/-- An ABORT, a supply warning or a thermal emergency ends a capture or a stream at its last word (R153). -/
def State.recCut (s : State) (jid : Nat) (f : Job → Job) : State :=
  let s := s.updCapt jid (fun k => { k with closed := true })
  (s.closeAll jid true false).captEnd jid f

/-- A STREAM_CLOSE that is cut short no longer stops its target. -/
def State.closeCut (s : State) (jid : Nat) : State :=
  { s with record := { s.record with capts := s.record.capts.map (fun (k : Capt) =>
    if k.stopJid = jid then { k with stopJid := 0, stopAt := none } else k) } }

/-! ### SEGMENT_READ -/

/-- The bytes that a read in MODE 0 needs: data, and word maps; from written entries, and from w_max for the others
(R168). -/
def readNeed (k : Capt) (fmt a b : Nat) : Nat × Nat :=
  let es := ((List.range k.table.length).zip k.table).filter (fun p => decide (a ≤ k.entBase + p.1 ∧ k.entBase + p.1 < b))
  let d := sumL (es.map (fun p => if p.2.gap then 0 else roundUp (fmtBytes fmt p.2.len) 8))
  let m := sumL (es.map (fun p => if p.2.gap then 0 else mapBytes (segWords p.2.first p.2.len).2))
  let rest := b - max a k.nextEnt
  (d + rest * roundUp (fmtBytes fmt (64 * k.wMax)) 8, m + rest * mapBytes k.wMax)

/-- The demands of a SEGMENT_READ (R168, R169). -/
def State.readPlan (s : State) (j : Job) : Plan :=
  let fmt := j.bits 1 1 1 0
  let range := j.bits 1 1 2 2 = 1
  let kk := s.captOf (j.bits 10 1 5 0) (j.fld 8 2)
  let k := kk.getD { jid := 0, sq := 0, tag := 0, input := 0 }
  let st := s.storeOf k
  let a := j.fld 16 8
  let c := j.fld 24 8
  let table := j.fld 48 8
  let map := j.fld 56 8
  let need := if range then (roundUp (fmtBytes fmt c) 8, mapBytes (ceilDiv c 64 + 1)) else readNeed k fmt a (a + c)
  let bytes := need.1 + (if table = 0 then 0 else 128 * c) + (if map = 0 then 0 else need.2)
  let side := k.input / 2
  let t0 := s.spacing k.input * st.factor
  let dur : Option Nat :=
    if k.ended then some 0
    else if range then
      let due := if a ≤ s.devTime % 2 ^ 64 then 0 else a - s.devTime % 2 ^ 64
      let have' := match st.firstAt a with | some i => 64 * (st.dropped + st.words.length) - i | none => 0
      if c ≤ have' then some 0 else some (due + ceilDiv ((c - have') * t0) (if st.mode = 2 then 2 else 1))
    else if a + c ≤ k.nextEnt then some 0
    else if k.armTime = 0 then none
    else some (k.armed.getD k.due + k.armTime * tickUs - s.devTime)
  { malformed := j.bits 1 1 7 3 ≠ 0 || fmt = 3 || kk.isNone || (kk.isSome && range != k.isStream) ||
      (fmt = 0 && isS16 st.mode) || (range && table ≠ 0) || c = 0 || decide ((if range then 2 ^ 40 else 16777216) < c) ||
      decide (j.fld 40 8 < need.1) ||
      !payloadOnly j.desc [(8, 15, 0), (10, 5, 0), (12, 31, 0), (16, 63, 0), (24, 63, 0), (32, 63, 0), (40, 63, 0), (48, 63, 0), (56, 63, 0)]
    badAddr := rangeBad (j.fld 32 8) (j.fld 40 8) 8 || rangeBad table (128 * c) 64 || rangeBad map need.2 8
    d2h := some (j.fld 12 4)
    fracB := if side = 1 then ⟨1, 1⟩ else ⟨0, 1⟩
    demand := fun rd _ => {
      hbm0 := (bySide k.input rd).1, hbm1 := (bySide k.input rd).2, power := ((hbmPower rd).add (moverPower rd)).ceil }
    movers := fun rd _ => [(side, rd, rd)]
    work := fun _ _ => Q.of (2 + (if range then 1 else c) / 4096)
    bytes := bytes
    dur := fun _ _ => dur }

/-- SEGMENT_READ (R168, R169): what is written is read at once, and the rest as it is written. -/
def execSegmentRead (s : State) : Host.Outcome State Fault Refusal :=
  live s fun s => s.admission 0x02 s.readPlan (fun s j =>
    let range := j.bits 1 1 2 2 = 1
    match s.captOf (j.bits 10 1 5 0) (j.fld 8 2) with
    | none => s
    | some k =>
      let a := j.fld 16 8
      let c := j.fld 24 8
      let r : SegRd :=
        { jid := j.jid, cap := k.jid, fmt := j.bits 1 1 1 0, range := range, next := a, last := if range then c else a + c
          dataAt := j.fld 32 8, tableAt := j.fld 48 8, mapAt := j.fld 56 8 }
      let old := j.dur = some 0
      let s := if old then s.updJob j.jid (fun j => { j with anchor := some j.pickup }) else s
      let s := { s with record := { s.record with reads := s.readsInFlight ++ [r] } }
      (s.pumpReads k.jid).readDetail j.jid)

/-! ### SYNC -/

/-- RECORD_SYNC_GO (R158): a SYNC is requested, for the first word of the lowest named input that begins at least 64 ns
later, or for the next line event. -/
def State.recordSyncGoWrite (s : State) (v : Word) : State :=
  if !bit v.toNat 0 then s else
  let mask := s.rd F.RECORD_SYNC_CTRL_CH_MASK
  let n := ((List.range 4).find? (fun n => bit mask n)).getD 0
  let t := s.gridFrom n (s.devTime + 64 * tickNs)
  let r : SyncReq := { mask := mask, at' := if s.flag F.RECORD_SYNC_CTRL_SRC then none else some t
                       line := s.rd F.RECORD_SYNC_CTRL_LINE }
  ({ s with record := { s.record with sync := some r } }).setf F.RECORD_SYNC_STAT_PENDING

/-- RECORD_SYNC_GO (R158). -/
def execRecordSyncGo (v : Word) (s : State) : Host.Outcome State Fault Refusal := live s fun s => s.recordSyncGoWrite v

/-- A line event on line `i` at `t` starts a SYNC that is armed for it; without alignment it is not accepted (R158). -/
def State.syncLine (s : State) (i t : Nat) (aligned : Bool) : State :=
  match s.record.sync with
  | some r =>
    if r.at'.isSome || r.line ≠ i then s
    else if aligned then { s with record := { s.record with sync := some { r with at' := some t } } }
    else s.setf F.RECORD_SYNC_STAT_NO_ALIGN
  | none => s

/-- SYNC_APPLY (R158): T is reached; each named decimator restarts at its first input sample at or after T. -/
def execSyncApply (s : State) : Host.Outcome State Fault Refusal :=
  live s fun s =>
    match s.record.sync with
    | none => s
    | some r =>
      match r.at' with
      | none => s
      | some t =>
        let s := s.toDev t
        let s := (List.range 4).foldl (fun s n =>
          if bit r.mask n then
            let c := s.rch n
            let c := { c with dec := { c.dec with syncAt := some t } }
            s.setRch n { c with first := if c.dec.settle = 0 then c.first else c.penN }
          else s) s
        let s := ({ s with record := { s.record with sync := none } }).wr F.RECORD_SYNC_STAT_PENDING 0
        (s.wr64 F.RECORD_SYNC_STAMP_LO_T F.RECORD_SYNC_STAMP_HI_T (t % 2 ^ 64)).count F.RECORD_SYNC_CNT_COUNT

end Sys2Proof.Machine
end

