-- ==== Sys2Proof/Machine/Afterglow.lean ====
section
/-! DEFINITION. Machine/Afterglow.lean: the commands of Afterglow ("Afterglow accumulation", R171-R189). -/
namespace Sys2Proof.Machine

/-- The BAR0 range of the AFTERGLOW block's RWS registers (R189). -/
def agLo : Nat := 0xC00000
def agHi : Nat := 0xC02000

/-- AFTERGLOW_COMMIT (R172): refused whole where it changes the fields of an owned input. -/
def State.afterglowCommitWrite (s : State) (v : Word) : State :=
  let snap := s.shadow agLo agHi
  let base := lastPend s.record.agPend (s.active agLo agHi)
  if !bit v.toNat 0 || snap = base then s
  else if (List.range 4).any (fun n => s.owned n &&
      kget snap (0xC01000 + 0x100 * n) 0 ≠ kget base (0xC01000 + 0x100 * n) 0) then
    s.setf F.AFTERGLOW_COMMIT_STAT_REJ_OWNED
  else
    let s := { s with record := { s.record with agPend := addPend s.record.agPend (s.boundary + 64 * tickNs) snap } }
    s.setf F.AFTERGLOW_COMMIT_STAT_PENDING

/-- AFTERGLOW_COMMIT (R172). -/
def execAfterglowCommit (v : Word) (s : State) : Host.Outcome State Fault Refusal := live s fun s => s.afterglowCommitWrite v

/-- AFTERGLOW_COMMIT_APPLY (R172): at the first SCLK boundary at least 64 ns after the commit. -/
def execAfterglowCommitApply (s : State) : Host.Outcome State Fault Refusal :=
  live s fun s =>
    match s.record.agPend with
    | none => s
    | some p =>
      let s := (s.toDev p.due).applyShadow agLo agHi p.snap
      { s with record := { s.record with agPend := p.after } }.wr F.AFTERGLOW_COMMIT_STAT_PENDING (b2n p.after.isSome)

/-- A device-time stamp as a full device time of the present epoch. -/
def State.fullTime (s : State) (t : Nat) : Nat := s.devTime / 2 ^ 64 * 2 ^ 64 + t

/-- Whether the job table holds another admitted AFTERGLOW_CLEAR, or an AFTERGLOW_READ, on input `n`. -/
def State.agJob (s : State) (n : Nat) (f : Job → Bool) : Bool :=
  s.admittedJobs.any (fun j => j.bits 8 1 1 0 = n && f j)

/-- The input is owned by a fibre temperature job (R172). -/
def State.agFtemp (s : State) (n : Nat) : Bool := s.inputUse n = some .ftemp

/-! ### AFTERGLOW_CLEAR -/

/-- The demands of an AFTERGLOW_CLEAR (R182-R184). -/
def State.agClearPlan (s : State) (j : Job) : Plan :=
  let n := j.bits 8 1 1 0
  let load := j.bits 9 1 4 4 = 1
  let ticks := 4 * tickUs + (j.fld 16 8 - (s.devTime % 2 ^ 64 - (s.phys - j.pickup)))
  { malformed := j.kflags ≠ 0 || !payloadOnly j.desc [(8, 1, 0), (9, 4, 0), (16, 63, 0), (24, 63, 0)] || j.fld 9 1 = 0 ||
      (!load && j.fld 24 8 ≠ 0)
    badAddr := load && rangeBad (j.fld 24 8) 524288 64
    stateOk := s.chOn n && !s.pairedOdd n && !s.calOwned n
    conflict := s.agFtemp n || s.agJob n (fun x => x.kind = 0x05 || x.kind = 0x06)
    h2d := if load then some 0 else none
    fracB := if n / 2 = 1 then ⟨1, 1⟩ else ⟨0, 1⟩
    demand := fun _ rh => { power := if load then (moverPower rh).ceil else 0 }
    movers := fun _ rh => if load then [(n / 2, rh, rh)] else []
    work := fun _ _ => ⟨ticks, tickUs⟩
    bytes := if load then 524288 else 0
    toHost := false
    dur := fun _ _ => some ticks }

/-- AFTERGLOW_CLEAR (R182): a mask is read first; the clear point follows. -/
def execAfterglowClear (s : State) : Host.Outcome State Fault Refusal :=
  live s fun s => s.admission 0x06 s.agClearPlan (fun s j =>
    let n := j.bits 8 1 1 0
    let load := j.bits 9 1 4 4 = 1
    let c : AgClear := { jid := j.jid, what := j.fld 9 1, due := if load then none else some (s.devTime + 2 * tickUs) }
    let s := (s.setAg n { s.ag n with clear := some c }).setf F.AFTERGLOW_CHn_STAT_CLEAR_PENDING n
    let s := s.updJob j.jid (fun j => { j with anchor := some j.pickup })
    if load then s.queueElems j.jid (s.chanOn j.jid (n / 2)) (inElems (j.fld 24 8) 524288) else s)

/-- Bytes of a mask have arrived (R183): with the last of them the clear point is 2 µs away at the earliest. -/
def State.agMaskIn (s : State) (jid : Nat) : State :=
  match s.job? jid with
  | none => s
  | some j =>
    let n := j.bits 8 1 1 0
    match (s.ag n).clear with
    | some c => if c.jid = jid ∧ 524288 ≤ j.taken.length then
        s.setAg n { s.ag n with clear := some { c with due := some (s.devTime + 2 * tickUs) } } else s
    | none => s

/-- Zeroes the mask counts and the first-failure record (R182, R185). -/
def State.agMaskZero (s : State) (n : Nat) : State :=
  let s := (s.wr F.AFTERGLOW_CHn_MASK_TESTED_CNT_COUNT 0 n).wr F.AFTERGLOW_CHn_MASK_FAIL_CNT_COUNT 0 n
  let s := s.wr64 F.AFTERGLOW_CHn_MASK_FIRST_LO_STAMP F.AFTERGLOW_CHn_MASK_FIRST_HI_STAMP 0 n
  let s := (s.wr F.AFTERGLOW_CHn_MASK_FIRST_NUM_NUMBER 0 n).wr F.AFTERGLOW_CHn_MASK_FIRST_BIN_COLUMN 0 n
  (s.wr F.AFTERGLOW_CHn_MASK_FIRST_BIN_ROW 0 n).setAg n { s.ag n with firstFail := false }

/-- SUM_RECORDS shows the current sum area (R179). -/
def State.sumRegs (s : State) (n : Nat) : State :=
  s.wr64 F.AFTERGLOW_CHn_SUM_RECORDS_LO_COUNT F.AFTERGLOW_CHn_SUM_RECORDS_HI_COUNT (s.ag n).sumCur.recs n

/-- A mask as sparse bytes. -/
def maskCells (d : Bytes) : KMap Byte := kwrite 0 [] 0 d

/-- AFTERGLOW_CLEAR_POINT (R183): T_c is the first word that begins at or after the later of its two times. -/
def execAfterglowClearPoint (n : Fin 4) (s : State) : Host.Outcome State Fault Refusal :=
  live s fun s =>
    match (s.ag n).clear with
    | none => s
    | some c =>
      match c.due, s.job? c.jid with
      | some d, some j =>
        let t := s.gridFrom n (max d (s.fullTime (j.fld 16 8)))
        let s := s.toDev t
        let a := s.ag n
        let on (i : Nat) : Bool := bit c.what i
        let a := { a with clear := none }
        let a := if on 0 then { a with hist := [], poison := [], histT := t } else a
        let a := if on 1 then { a with sumCur := {}, sumOld := {}, sumT := t } else a
        let a := if on 2 then { a with envCur := {}, envOld := {}, envT := t } else a
        let a := if on 3 || on 4 then { a with maskT := t } else a
        let a := if on 4 then { a with mask := maskCells (j.taken.take 524288) } else a
        let s := s.setAg n a
        let s := if on 3 then s.agMaskZero n else s
        let s := (s.sumRegs n).wr F.AFTERGLOW_CHn_STAT_CLEAR_PENDING 0 n
        let s := s.wr64 F.AFTERGLOW_CHn_CLEAR_STAMP_LO_T F.AFTERGLOW_CHn_CLEAR_STAMP_HI_T (t % 2 ^ 64) n
        s.endJob c.jid (fun j => { j with detail := c.what })
      | _, _ => s

/-- An AFTERGLOW_CLEAR that is cut before T_c leaves everything unchanged (R183). -/
def State.agClearCut (s : State) (jid : Nat) : State :=
  (List.range 4).foldl (fun s n =>
    match (s.ag n).clear with
    | some c => if c.jid = jid then
        (s.setAg n { s.ag n with clear := none }).wr F.AFTERGLOW_CHn_STAT_CLEAR_PENDING 0 n else s
    | none => s) s

/-! ### Sums and recomputation -/

/-- The samples of an entry in its store. -/
def State.entSamples (s : State) (k : Capt) (e : SegEnt) : List (Option Smp) :=
  (List.range e.len).map (fun i => (s.storeOf k).smp? (e.first + i))

/-- The words of an entry in its store. -/
def State.entWords (s : State) (k : Capt) (e : SegEnt) : List (Option StW) :=
  let w := segWords e.first e.len
  (List.range w.2).map (fun i => (s.storeOf k).word? (64 * (w.1 + i)))

/-- A segment joins an area (R178): the first record writes the entries, and its RANGE and trim are the area's (R187). -/
def Area.add (a : Area) (e : SegEnt) (xs : List Smp) : Area :=
  let vs := xs.map (·.v)
  if a.recs = 0 then
    { recs := 1, cfg := (e.range, ((xs[e.trigIdx]?).map (·.cfg.2)).getD (0, 0)), sums := vs, mins := vs, maxs := vs, poison := a.poison }
  else
    { a with
      recs := a.recs + 1, sums := List.zipWith (· + ·) a.sums vs
      mins := List.zipWith (fun a b => if b < a then b else a) a.mins vs
      maxs := List.zipWith (fun a b => if a < b then b else a) a.maxs vs }

/-- Whether an area can take a segment (R179). -/
def Area.fits (a : Area) (range : Nat) : Bool := a.recs = 0 || (a.cfg.1 = range && decide (a.recs < 2 ^ 38))

/-- The drain boundary of a read of sums (1) or envelopes (2) that has started (R186). -/
def State.drainT (s : State) (n what : Nat) : Option Nat :=
  (s.record.agReads.find? (fun r => r.what = what && r.started && decide (r.next < r.count) &&
    (match s.job? r.jid with | some j => j.bits 8 1 1 0 = n | none => false))).map (·.ts)

/-- SUM_SEGMENT_READ (R179): the sum engine takes the next segment of input `n`. `bad` says that an area's read failed
its CRC-16 (R181). -/
def execSumSegmentRead (n : Fin 4) (bad : Bool) (s : State) : Host.Outcome State Fault Refusal :=
  live s fun s =>
    match s.record.capts.find? (fun k => k.input = n.val && !k.sumQ.isEmpty) with
    | none => s
    | some k =>
      let q := k.sumQ.headD 0
      let s := s.updCapt k.jid (fun k => { k with sumQ := k.sumQ.drop 1 })
      let sum := s.agOn n F.AFTERGLOW_CHn_CTRL_SUM_EN
      let env := s.agOn n F.AFTERGLOW_CHn_CTRL_ENV_EN
      if !sum && !env then s else
      let s := if bad then
          let a := s.ag n
          let a := if sum then { a with sumCur := { a.sumCur with poison := true } } else a
          let a := if env then { a with envCur := { a.envCur with poison := true } } else a
          (s.setAg n a).agPoison n 0xFFFFFFFF
        else s
      match (if k.entBase ≤ q then k.table[q - k.entBase]? else none) with
      | none => s.count F.AFTERGLOW_CHn_SUM_SKIP_CNT_COUNT 1 n
      | some e =>
        let xs := (s.entSamples k e).filterMap id
        let ws := s.entWords k e
        let ok := e.len = k.pre + k.post && xs.length = e.len && !e.retired &&
          ws.all (fun w => match w with | some w => !w.w.damaged && !s.excluded n w.w.status | none => false)
        let a := s.ag n
        let old (what : Nat) : Bool := match s.drainT n what with
          | some t => decide (e.mark.stamp < t)
          | none => false
        let sumTo := if old 1 then a.sumOld else a.sumCur
        let envTo := if old 2 then a.envOld else a.envCur
        let doSum := sum && decide (a.sumT ≤ e.mark.stamp)
        let doEnv := env && decide (a.envT ≤ e.mark.stamp)
        let okS := ok && sumTo.fits e.range
        let okE := ok && envTo.fits e.range
        let a := if doSum && okS then
            (if old 1 then { a with sumOld := sumTo.add e xs } else { a with sumCur := sumTo.add e xs }) else a
        let a := if doEnv && okE then
            (if old 2 then { a with envOld := envTo.add e xs } else { a with envCur := envTo.add e xs }) else a
        let s := (s.setAg n a).sumRegs n
        if (doSum && !okS) || (doEnv && !okE) then s.count F.AFTERGLOW_CHn_SUM_SKIP_CNT_COUNT 1 n else s

/-- Takes one increment back. -/
def histDec (h : KMap Nat) (b : Nat) : KMap Nat :=
  let v := kget h b 0
  if v = 0 ∨ v = 0xFFFFFFFF then h else kset h b (v - 1) 0

/-- AFTERGLOW_RECOMPUTE (R181): the contribution of the window that input `n`'s capture closed last was spoiled by a path
error. It is recomputed from its stored samples, or, where they are damaged or retired, it is omitted and the columns
that it touches are poisoned. -/
def execAfterglowRecompute (n : Fin 4) (s : State) : Host.Outcome State Fault Refusal :=
  live s fun s =>
    match s.record.capts.find? (fun k => k.input = n.val && k.backed.isNone && !k.isStream && k.table.any (fun e => !e.gap)) with
    | none => s
    | some k =>
      match (k.table.filter (fun e => !e.gap)).getLast? with
      | none => s
      | some e =>
        let good := !e.retired && (s.entWords k e).all (fun w => match w with | some w => !w.w.damaged | none => false)
        if good then (s.count F.AFTERGLOW_CHn_RECOMP_CNT_COUNT 1 n).setf F.AFTERGLOW_CHn_STAT_RECOMPUTED n
        else
          let h := s.hshift n
          let bins := ((List.range e.len).zip (s.entSamples k e)).filterMap (fun p =>
            match p.2 with
            | some x => binOf h (p.1 + k.pre - e.trigIdx) x.v
            | none => none)
          let on := s.agOn n F.AFTERGLOW_CHn_CTRL_HIST_EN && decide ((s.ag n).histT ≤ e.mark.stamp)
          let s := if on then s.setAg n { s.ag n with hist := bins.foldl histDec (s.ag n).hist } else s
          ((bins.map (· / 1024)).eraseDups).foldl (fun s c => s.agPoison n c) s

/-! ### AFTERGLOW_READ -/

/-- The capture that feeds Afterglow on input `n`. -/
def State.feeder (s : State) (n : Nat) : Option Capt := (s.writer n).bind (fun k => if k.isStream then none else some k)

/-- The points of an area (R185): P of the feeding capture, or the length of what the area holds. -/
def State.areaLen (s : State) (n what : Nat) : Nat :=
  match s.feeder n with
  | some k => k.pre + k.post
  | none => if what = 1 then (s.ag n).sumCur.sums.length else (s.ag n).envCur.sums.length

/-- The demands of an AFTERGLOW_READ (R185-R188). -/
def State.agReadPlan (s : State) (j : Job) : Plan :=
  let n := j.bits 8 1 1 0
  let what := j.bits 9 1 1 0
  let clr := j.bits 10 1 0 0 = 1
  let fmt := j.bits 10 1 1 1
  let a := j.fld 24 4
  let c := j.fld 28 4
  let rows := j.fld 34 2
  let on := s.agOn n ([F.AFTERGLOW_CHn_CTRL_HIST_EN, F.AFTERGLOW_CHn_CTRL_SUM_EN, F.AFTERGLOW_CHn_CTRL_ENV_EN,
    F.AFTERGLOW_CHn_CTRL_MASK_EN].getD what F.AFTERGLOW_CHn_CTRL_MASK_EN)
  let data := match what with
    | 0 => c * rows * (if fmt = 1 then 2 else 4)
    | 1 => c * (if fmt = 1 then 4 else 8)
    | 2 => 4 * c
    | _ => 0
  let rangeBad' := match what with
    | 0 => c = 0 || decide (4096 < a + c) || rows = 0 || decide (1024 < j.fld 32 2 + rows)
    | 3 => false
    | _ => c = 0 || decide (s.areaLen n what < a + c)
  let ts := j.fld 16 8
  let dur := ts - (s.devTime % 2 ^ 64 - (s.phys - j.pickup))
  let drain := decide (what = 1 ∨ what = 2)
  let w : Q := if !drain then ⟨2, 1⟩ else match s.feeder n with
    | some k => (Q.of 4).add ((⟨k.post * s.spacing n, tickUs⟩ : Q).add ⟨(k.burstL / max k.gap1 1 + 1) * (k.pre + k.post), 8000⟩)
    | none => ⟨4, 1⟩
  { malformed := j.kflags ≠ 0 || rangeBad' || !on || decide (j.fld 48 8 < data) || (drain && clr) ||
      (decide (2 ≤ what) && fmt ≠ 0) || (what ≠ 3 && j.fld 40 8 = 0) ||
      !payloadOnly j.desc [(8, 1, 0), (9, 1, 0), (10, 1, 0), (12, 31, 0), (16, 63, 0), (24, 31, 0), (28, 31, 0),
        (32, 15, 0), (34, 15, 0), (40, 63, 0), (48, 63, 0), (56, 63, 0)]
    badAddr := rangeBad (j.fld 40 8) (j.fld 48 8) 8 || rangeBad (j.fld 56 8) 64 64
    stateOk := !s.pairedOdd n && !s.calOwned n
    conflict := s.agFtemp n || s.agJob n (fun x => x.kind = 0x06 || (x.kind = 0x05 && x.bits 9 1 1 0 = what))
    d2h := some (j.fld 12 4)
    fracB := if n / 2 = 1 then ⟨1, 1⟩ else ⟨0, 1⟩
    demand := fun rd _ =>
      let u := if drain then rd else 0
      { hbm0 := (bySide n u).1, hbm1 := (bySide n u).2, power := ((hbmPower u).add (moverPower rd)).ceil }
    movers := fun rd _ => [(n / 2, rd, rd)]
    work := fun _ _ => w
    bytes := data + 64
    dur := fun _ _ => some dur }

/-- The 64-byte header (R187). -/
def State.agHeader (s : State) (n : Nat) (r : AgRead) (area : Area) : Bytes :=
  let hist := decide (r.what = 0)
  leBytes 8 (if hist then r.tFirst else r.ts) ++ leBytes 8 (if hist then r.tLast else r.ts) ++
    leBytes 8 (if hist then r.windows else if r.what = 3 then 0 else area.recs) ++ leBytes 4 r.saturated ++ leBytes 4 r.poisoned ++
    leBytes 4 (s.rd F.AFTERGLOW_CHn_MASK_TESTED_CNT_COUNT n) ++ leBytes 4 (s.rd F.AFTERGLOW_CHn_MASK_FAIL_CNT_COUNT n) ++
    leBytes 8 (s.rd64 F.AFTERGLOW_CHn_MASK_FIRST_LO_STAMP F.AFTERGLOW_CHn_MASK_FIRST_HI_STAMP n) ++
    leBytes 4 (s.rd F.AFTERGLOW_CHn_MASK_FIRST_NUM_NUMBER n) ++
    leBytes 4 (s.rd F.AFTERGLOW_CHn_MASK_FIRST_BIN_COLUMN n * 2 ^ 16 + s.rd F.AFTERGLOW_CHn_MASK_FIRST_BIN_ROW n) ++
    leBytes 1 (if r.what = 1 ∨ r.what = 2 then area.cfg.1 else 0) ++ zeros 7

/-- A read's channel. -/
def State.readChan (s : State) (jid : Nat) : Nat := (s.chansOf jid).head?.getD 0

/-- READING shows whether a read is in progress on input `n`. -/
def State.agReading (s : State) (n : Nat) : State :=
  s.wr F.AFTERGLOW_CHn_STAT_READING (b2n (s.record.agReads.any (fun r =>
    match s.job? r.jid with | some j => j.bits 8 1 1 0 = n | none => false))) n

/-- The last bytes and the header of a read are queued, and the job ends with them (R187, R188). -/
def State.agFinish (s : State) (n : Nat) (r : AgRead) (area : Area) (data : List Elem) (done : Nat) (flagged : Bool) : State :=
  let hdr := s.agHeader n r area
  let l := s.record.agReads.map (fun (x : AgRead) => if x.jid = r.jid then { r with started := true, next := r.count } else x)
  let s := { s with record := { s.record with agReads := l } }
  let s := s.updJob r.jid (fun j => { j with
    autoEnd := true, fFlagged := flagged, fIntegrity := j.fIntegrity || decide (0 < r.poisoned)
    detail := done % 2 ^ 23 + b2n (decide (0 < r.saturated)) * 2 ^ 24 + b2n (decide (0 < r.poisoned)) * 2 ^ 25 })
  (s.agReading n).queueElems r.jid (s.readChan r.jid) (data ++ outElems r.hdr hdr)

/-- T_s of a read is reached (R186): a drain begins, or a mask's results are taken. -/
def State.agSnap (s : State) (n : Nat) (r : AgRead) : State :=
  let upd (s : State) : State := { s with record := { s.record with agReads := s.record.agReads.map (fun x =>
    if x.jid = r.jid then { x with started := true, exclAt := s.rd F.AFTERGLOW_CHn_EXCL_CNT_COUNT n } else x) } }
  let a := s.ag n
  match r.what with
  | 1 => (upd (s.setAg n { a with sumOld := a.sumCur, sumCur := {} })).sumRegs n
  | 2 => upd (s.setAg n { a with envOld := a.envCur, envCur := {} })
  | 3 =>
    let s' := s.agFinish n r {} [] 0 false
    if r.clear then s'.agMaskZero n else s'
  | _ => upd s

/-- AFTERGLOW_READ (R185). -/
def execAfterglowRead (s : State) : Host.Outcome State Fault Refusal :=
  live s fun s => s.admission 0x05 s.agReadPlan (fun s j =>
    let n := j.bits 8 1 1 0
    let t := j.fld 16 8
    let ts := max s.boundary (s.fullTime t)
    let r : AgRead :=
      { jid := j.jid, what := j.bits 9 1 1 0, clear := j.bits 10 1 0 0 = 1, fmt := j.bits 10 1 1 1, first := j.fld 24 4
        count := j.fld 28 4, rowFirst := j.fld 32 2, rowCount := j.fld 34 2, addr := j.fld 40 8, hdr := j.fld 56 8, ts := ts }
    let l := s.record.agReads.filter (fun (x : AgRead) => (s.job? x.jid).isSome) ++ [r]
    let s := { s with record := { s.record with agReads := l } }.agReading n
    if s.fullTime t ≤ s.devTime then (s.updJob j.jid (fun j => { j with anchor := some j.pickup })).agSnap n r else s)

/-- SNAPSHOT_INSTANT (R186): T_s of the job `sq`, `tag`. -/
def execSnapshotInstant (sq : Fin 64) (tag : BitVec 16) (s : State) : Host.Outcome State Fault Refusal :=
  live s fun s =>
    match s.jobOf? sq tag.toNat with
    | none => s
    | some j =>
      match s.record.agReads.find? (fun r => r.jid = j.jid && !r.started) with
      | none => s
      | some r => ((s.toDev r.ts).anchorNow j.jid).agSnap (j.bits 8 1 1 0) r

/-- HISTOGRAM_COLUMN_TAKE (R186): the next column of input `n`'s histogram read, at the next word boundary, once the one
before has been delivered. -/
def execHistogramColumnTake (n : Fin 4) (s : State) : Host.Outcome State Fault Refusal :=
  live s fun s =>
    match s.record.agReads.find? (fun r => r.what = 0 && r.started && decide (r.next < r.count) &&
        (match s.job? r.jid with | some j => j.bits 8 1 1 0 = n.val && s.moved j | none => false)) with
    | none => s
    | some r =>
      let t := s.gridFrom n (max r.ts s.devTime)
      let s := s.toDev t
      let a := s.ag n
      let col := r.first + r.next
      let size := if r.fmt = 1 then 2 else 4
      let vs := (List.range r.rowCount).map (fun i => kget a.hist (col * 1024 + r.rowFirst + i) 0)
      let bad := a.poison.contains col
      let bytes := (vs.map (fun v => leBytes size (if r.fmt = 1 then min v 0xFFFF else v))).flatten
      let kept := a.hist.filter (fun c => decide (c.1 / 1024 = col))
      let s := if r.clear then
          s.setAg n { a with hist := a.hist.filter (fun c => decide (c.1 / 1024 ≠ col)), poison := a.poison.filter (· ≠ col) }
        else s
      let r : AgRead := { r with
        next := r.next + 1, tFirst := if r.next = 0 then t % 2 ^ 64 else r.tFirst, tLast := t % 2 ^ 64
        windows := if r.next = 0 then s.rd F.AFTERGLOW_CHn_WINDOWS_CNT_COUNT n else r.windows
        saturated := r.saturated + countP (fun v => decide (v = 0xFFFFFFFF || (r.fmt = 1 && 0xFFFF < v))) vs, poisoned := r.poisoned + b2n bad
        held := if r.clear then kept else [], heldBad := r.clear && bad }
      let es := outElems (r.addr + (r.next - 1) * r.rowCount * size) bytes
      if r.count ≤ r.next then
        s.agFinish n r {} es r.count (decide (0 < r.saturated) || decide (r.exclAt < s.rd F.AFTERGLOW_CHn_EXCL_CNT_COUNT n))
      else
        let l := s.record.agReads.map (fun (x : AgRead) => if x.jid = r.jid then r else x)
        let s := { s with record := { s.record with agReads := l } }
        s.queueElems r.jid (s.readChan r.jid) es

/-- A read that is cut short: counters of a column that was taken and not delivered come back (R188). -/
def State.agReadCut (s : State) (jid : Nat) : State :=
  match s.record.agReads.find? (fun r => r.jid = jid), s.job? jid with
  | some r, some j =>
    let n := j.bits 8 1 1 0
    let a := s.ag n
    let col := r.addr + (r.next - 1) * r.rowCount * (if r.fmt = 1 then 2 else 4)
    let isCol (e : Elem) : Bool := match e with | .toHost x _ => x = col | _ => false
    let out := r.what = 0 && r.next ≠ 0 && (j.elems.any (fun e => isCol e.2) || (s.chansOf jid).any (fun c =>
      match (s.chan c).cur with | some e => isCol e | none => false))
    let s := if !out then s else
      s.setAg n { a with
        hist := r.held.foldl (fun h c => kset h c.1 (min (kget h c.1 0 + c.2) 0xFFFFFFFF) 0) a.hist
        poison := if r.heldBad then a.poison ++ [r.first + r.next - 1] else a.poison }
    let d := if out then r.next - 1 else r.next
    let s := s.updJob jid (fun j => { j with detail := (if r.what = 0 then d else 0) })
    ({ s with record := { s.record with agReads := s.record.agReads.filter (fun x => x.jid ≠ jid) } }).agReading n
  | _, _ => s

/-- The bytes of `c` points of an area from point `i` (R178, R185); an area without a record holds undefined entries. -/
def areaBytes (free : Nat) (what fmt : Nat) (a : Area) (i c : Nat) : Bytes :=
  let size := if what = 1 ∧ fmt = 0 then 8 else 4
  if a.recs = 0 then (List.range (size * c)).map (fun k => Config.freeByte (free + 1) k)
  else if what = 2 then
    (((a.mins.zip a.maxs).drop i).take c).flatMap (fun p => leBytes 2 (unsg 16 (64 * p.1)) ++ leBytes 2 (unsg 16 (64 * p.2)))
  else if fmt = 0 then ((a.sums.drop i).take c).flatMap (fun v => leBytes 8 (unsg 64 v))
  else ((a.sums.drop i).take c).flatMap (fun v =>
    leBytes 4 (toBin32 ((64 * v - 4 * sgn 14 a.cfg.2.2 * (a.recs : Int)) * 204800 * rangeUv a.cfg.1) (a.recs * voltDen a.cfg)))

/-- SUM_DRAIN_DELIVER (R186): every record that belongs to the drained area of input `n` has been summed, and the area is
delivered. -/
def execSumDrainDeliver (n : Fin 4) (env : Bool) (s : State) : Host.Outcome State Fault Refusal :=
  live s fun s =>
    let what := if env then 2 else 1
    match s.record.agReads.find? (fun r => r.what = what && r.started && decide (r.next < r.count) &&
        (match s.job? r.jid with | some j => j.bits 8 1 1 0 = n.val | none => false)) with
    | none => s
    | some r =>
      let waits := s.record.capts.any (fun k => k.input = n.val && k.backed.isNone && !k.isStream &&
        (k.wins.any (fun w => decide (w.mark.stamp < r.ts)) || k.inbox.any (fun m => decide (m.stamp < r.ts)) ||
          k.sumQ.any (fun q => match (if k.entBase ≤ q then k.table[q - k.entBase]? else none) with
            | some e => decide (e.mark.stamp < r.ts)
            | none => false)))
      if waits then s else
      let a := s.ag n
      let area := if env then a.envOld else a.sumOld
      let f := s.fresh
      let s := f.2.setAg n (if env then { a with envOld := {} } else { a with sumOld := {} })
      let r := { r with poisoned := b2n area.poison }
      s.agFinish n r area (outElems r.addr (areaBytes f.1 what r.fmt area r.first r.count)) r.count
        (decide (r.exclAt < s.rd F.AFTERGLOW_CHn_EXCL_CNT_COUNT n))

end Sys2Proof.Machine
end

