-- ==== Sys2Proof/Machine/Amu.lean ====
section
/-! DEFINITION. Machine/Amu.lean: the commands of the AMU and the loops ("Auxiliary measurement unit and process
loops"). -/
namespace Sys2Proof.Machine

/-! ### Jobs (R416-R420) -/

/-- The demands of an AMU_SEQUENCE (R418-R420). -/
def State.amuSeqPlan (s : State) (table : Option Bytes) (j : Job) : Plan :=
  let n := j.bits 8 1 4 0
  let table := blockRead (j.fld 16 8) (32 * n) 64 table
  let tab := table.getD []
  let rows := (List.range n).map (fun i => (tab.drop (32 * i)).take 32)
  let tPass := sumL (rows.map (fun r => (amuEntry r).visit))
  let res := j.fld 24 8
  let slots := j.fld 32 4
  let passes := j.fld 36 4
  let ivl := j.fld 40 4 * tickUs
  { malformed := j.kflags ≠ 0 || j.bits 8 1 7 5 ≠ 0 || n = 0 || decide (16 < n) ||
      !restZero j.desc [(8, 1), (12, 4), (16, 8), (24, 8), (32, 4), (36, 4), (40, 4)] ||
      (if res = 0 then slots ≠ 0 else decide (slots < 2) || decide (65536 < slots)) ||
      (table.isSome && (rows.any (amuEntryBad false) || (ivl ≠ 0 && decide (ivl < tPass))))
    badAddr := table.isNone || (res ≠ 0 && rangeBad res (32 * slots) 32)
    conflict := s.host.jobs.any (fun x => x.kind = 0x50 && x.admitted)
    d2h := if res = 0 then none else some (j.fld 12 4)
    demand := fun _ _ => { claims := [.amuSeq] }
    movers := fun rd _ => if res = 0 then [] else [(0, rd, rd)]
    work := fun _ _ => Q.of 10
    bytes := if res = 0 then 0 else 32
    dur := fun _ _ => if passes = 0 then none else some (2 * tickUs + passes * max tPass ivl + 10 * tickUs) }

/-- AMU_SEQUENCE (R418): the first pass starts at admission plus 2 µs. -/
def execAmuSequence (table : Option Bytes) (s : State) : Host.Outcome State Fault Refusal :=
  live s fun s => s.admission 0x50 (s.amuSeqPlan table) (fun s j =>
    let tab := table.getD []
    let q : AmuSeq :=
      { jid := j.jid
        entries := (List.range (j.bits 8 1 4 0)).map (fun i => amuEntry ((tab.drop (32 * i)).take 32))
        passes := j.fld 36 4, interval := j.fld 40 4 * tickUs, resAddr := j.fld 24 8, slots := j.fld 32 4
        start := s.phys + 2 * tickUs }
    let s := (s.onAmu (fun a => { a with seq := some q, outputsOff := false })).setf F.AMU_STAT_SEQ_RUNNING
    (s.wr F.AMU_SEQ_JOB_SQ j.sq).wr F.AMU_SEQ_JOB_TAG j.tag)

/-- T_wait of an AMU_INJECT (R417), in ticks. -/
def State.injWait (s : State) : Nat :=
  match s.amu.slot with | some i => i.time + 4 * tickMs | none => 0

/-- The demands of an AMU_INJECT (R416, R417). -/
def State.amuInjPlan (s : State) (j : Job) : Plan :=
  let ent := (j.desc.drop 8).take 32
  let res := j.fld 40 8
  let wait := s.injWait
  let work : Q := ⟨10 * tickUs + wait, tickUs⟩
  let inj : AmuInj := { jid := j.jid, cal := false, entry := s.injEntry (amuEntry ent) }
  { malformed := j.kflags ≠ 0 || fieldAt j.desc 52 12 ≠ 0 || amuEntryBad true ent
    badAddr := res ≠ 0 && rangeBad res 32 32
    conflict := s.amu.slot.isSome && s.amu.waitHost.isSome
    d2h := if res = 0 then none else some (j.fld 48 4)
    movers := fun rd _ => if res = 0 then [] else [(0, rd, rd)]
    work := fun _ _ => work
    bytes := if res = 0 then 0 else 32
    dur := fun _ _ => some (wait + inj.time + 10 * tickUs + wait) }

/-- AMU_INJECT (R415-R417): the conversion takes the slot, or waits for it. -/
def execAmuInject (s : State) : Host.Outcome State Fault Refusal :=
  live s fun s => s.admission 0x51 s.amuInjPlan (fun s j =>
    let i : AmuInj := { jid := j.jid, cal := false, entry := s.injEntry (amuEntry ((j.desc.drop 8).take 32)) }
    (s.onAmu (fun a => { a with waitHost := some i })).fillSlot)

/-! ### The sequencer (R411, R412) -/

/-- AMU_PASS_START (R411, R418): at the scheduled time, or when the pass before ends if that is later. -/
def execAmuPassStart (s : State) : Host.Outcome State Fault Refusal :=
  live s fun s =>
    match s.amu.seq with
    | none => s
    | some q =>
      if q.visit.isSome || s.flag F.AMU_STAT_XIN_HOLD || (q.passes ≠ 0 && decide (q.passes ≤ q.pass)) then s else
      let s := s.toPhys (max (q.start + q.pass * q.interval) q.passEnd)
      (s.onAmu (fun a => { a with seq := some { q.discard with visit := some 0 } })).resumeVisit

/-- Posts a sequence result (R413, R414). -/
def State.postSeq (s : State) (q : AmuSeq) (n : Nat) (r : AmuRes) (settled : Bool) : State :=
  let s := s.postAmu n r settled q.brk
  let s := s.onAmu (fun a => { a with
    live := kset a.live n { kget a.live n {} with curve := ((q.entries[n]?).map (·.curve)).getD 0 } {} })
  let s := if r.ow && !q.owSeen.contains n then s.raise 1 0x3601 n (unsg 24 r.code) 0 else s
  let q' : AmuSeq := { q with
    brk := false, owSeen := if r.ow && !q.owSeen.contains n then q.owSeen ++ [n] else q.owSeen
    rseq := q.rseq + (if q.resAddr = 0 then 0 else 1), settled := q.settled + b2n settled
    anyOvr := q.anyOvr || r.ovr, anyOw := q.anyOw || r.ow, anyRef := q.anyRef || r.refLow
    anyRange := q.anyRange || r.range, anyUnsettled := q.anyUnsettled || !settled, anyBreak := q.anyBreak || q.brk }
  let s := s.onAmu (fun a => { a with seq := some q' })
  match s.job? q.jid with
  | none => s
  | some j =>
    if q.resAddr = 0 then s else
    let rec' := amuRecord s j q'.rseq n (s.rd F.AMU_RESULTn_HDR_SEQ n) r settled q.brk
    s.queueElems q.jid (s.chanOn q.jid 0) [.frame (q.resAddr + 32 * (q.rseq % max q.slots 1)) rec' 0]

/-- The visit of entry `n` ends: the next one begins, or the pass ends, and with the last pass the job's work is done
(R411, R418, R421). -/
def State.visitEnd (s : State) (q : AmuSeq) (n : Nat) : State :=
  let q := { q.discard with broken := false, clearAt := s.phys }
  if n + 1 < q.entries.length then s.onAmu (fun a => { a with seq := some { q with visit := some (n + 1) } })
  else
    let s := (s.onAmu (fun a => { a with seq := some { q with visit := none, pass := q.pass + 1, passEnd := s.phys } })).count
      F.AMU_PASS_CNT_COUNT
    if q.passes ≠ 0 ∧ q.passes ≤ q.pass + 1 then
      let s := (s.anchorNow q.jid).endSeq (fun j => { j with autoEnd := true })
      s.settle q.jid
    else s

/-- A settled result: it is posted, and with DWELL of them the visit ends. -/
def State.settledResult (s : State) (q : AmuSeq) (n : Nat) (r : AmuRes) : State :=
  let s := s.postSeq q n r true
  match s.amu.seq with
  | none => s
  | some q =>
    let q := { q with posted := q.posted + 1 }
    if (q.entries.getD n {}).dwell ≤ q.posted then s.visitEnd q n else s.onAmu (fun a => { a with seq := some q })

/-- AMU_OUTPUT (R403, R411, R412): one output period after the last one, the filter gives an output. -/
def execAmuOutput (v : Int) (vref : Nat) (s : State) : Host.Outcome State Fault Refusal :=
  live s fun s =>
    match s.amu.seq with
    | none => s
    | some q =>
      match q.visit with
      | none => s
      | some n =>
        if q.broken || s.flag F.AMU_STAT_XIN_HOLD then s else
        let e := q.entries.getD n {}
        let s := s.toPhys (q.clearAt + (q.outs + 1) * e.tOut)
        let x := ratioOf e v vref
        let y := if e.fir then (match q.prev with | some p => p.mean x | none => x) else x
        let low := e.mode ≠ 0 && decide (vref < 500000000)
        let q := { q with outs := q.outs + 1, prev := some x }
        let conv (z : Ratio) : AmuRes := amuConvert e z low (s.rd F.AMU_CJC_T)
        if q.outs < e.settle then
          if 0 < q.unsettled then s.postSeq { q with unsettled := q.unsettled - 1 } n (conv y) false
          else s.onAmu (fun a => { a with seq := some q })
        else if e.isrcMode = 3 then
          match q.half with
          | none => s.onAmu (fun a => { a with seq := some { q with
              half := some y, swapped := true, outs := 0, prev := none, clearAt := s.phys } })
          | some h => s.settledResult { q with
              half := none, swapped := false, outs := 0, prev := none, clearAt := s.phys } n (conv (h.mean y))
        else s.settledResult q n (conv y)

/-- AMU_SWAP (R412): with ISRC_MODE 2 the sources are exchanged and the settle count restarts; otherwise ignored. -/
def State.amuSwapWrite (s : State) (v : Word) : State :=
  match s.amu.seq with
  | none => s
  | some q =>
    match q.visit with
    | none => s
    | some n =>
      let e := q.entries.getD n {}
      if !bit v.toNat 0 || e.isrcMode ≠ 2 || q.broken then s else
      s.onAmu (fun a => { a with seq := some { q with
        swapped := !q.swapped, outs := 0, prev := none, unsettled := e.settle - 1, clearAt := s.phys } })

/-- AMU_SWAP (R412). -/
def execAmuSwap (v : Word) (s : State) : Host.Outcome State Fault Refusal := live s fun s => s.amuSwapWrite v

/-! ### Injected conversions (R415, R417) -/

/-- INJECT_START (R412, R415): the conversion that holds the slot starts, and preempts a visit in progress. -/
def execInjectStart (s : State) : Host.Outcome State Fault Refusal :=
  live s fun s =>
    match s.amu.slot with
    | none => s
    | some i =>
      if i.started.isSome || s.flag F.AMU_STAT_XIN_HOLD then s else
      let s := s.onAmu (fun a => { a with slot := some { i with started := some s.phys } })
      match s.amu.seq with
      | none => s
      | some q =>
        if q.visit.isSome && !q.broken then
          (s.onAmu (fun a => { a with seq := some q.discard })).count F.AMU_PREEMPT_CNT_COUNT
        else s

/-- The result of a host conversion: AMU_INJ_RES, the record, whose Entry field the spec does not number, and the job's end
(R414, R415, R417). -/
def State.injResult (s : State) (i : AmuInj) (r : AmuRes) : State :=
  let s := s.postAmu 16 r true false
  let flags := b2n r.range * 2 ^ 27 + b2n r.refLow * 2 ^ 26 + b2n r.ow * 2 ^ 25 + b2n r.ovr * 2 ^ 24
  let fin (j : Job) : Job :=
    { j with detail := flags + unsg 24 r.code, fFlagged := flags ≠ 0 }
  let s := s.anchorNow i.jid
  match s.job? i.jid with
  | none => s
  | some j =>
    if j.fld 40 8 = 0 then s.endJob i.jid fin
    else
      let d := amuRecord s j 1 (Config.arith 42 [i.jid] % 16) (s.rd F.AMU_INJ_RES_HDR_SEQ) r true false
      (s.updJob i.jid (fun j => { fin j with autoEnd := true })).queueElems i.jid (s.chanOn i.jid 0)
        [.frame (j.fld 40 8) d 0]

/-- INJECT_DONE (R415): K output periods after its start the conversion completes; the slot passes on and a preempted visit
restarts. -/
def execInjectDone (v : Int) (vref : Nat) (s : State) : Host.Outcome State Fault Refusal :=
  live s fun s =>
    match s.amu.slot with
    | none => s
    | some i =>
      match i.started with
      | none => s
      | some t =>
        if s.flag F.AMU_STAT_XIN_HOLD then s else
        let s := s.toPhys (t + i.time)
        let s := ((s.onAmu (fun a => { a with slot := none })).fillSlot).resumeVisit
        if i.cal then s.calLevel i.jid (roundAway v 1000)
        else
          let low := i.entry.mode ≠ 0 && decide (vref < 500000000)
          s.injResult i (amuConvert i.entry (ratioOf i.entry v vref) low (s.rd F.AMU_CJC_T))

/-! ### Registers and loops -/

/-- AMU_COMMIT (R425): a write of AMU_COMMIT. -/
def State.amuCommitWrite (s : State) (v : Word) : State :=
  let snap := s.shadow 0x360000C 0x3600010
  let osr := snap.rd F.AMU_INJ_CFG_OSR 0 0
  if !bit v.toNat 0 || snap = lastPend s.amu.pend (s.active 0x360000C 0x3600010) then s
  else if s.host.jobs.any (fun j => j.kind = 0x51) then s.setf F.AMU_COMMIT_STAT_REJ_BUSY
  else if snap.rd F.AMU_INJ_CFG_ORDER 0 0 = 3 ∨ osr < 32 ∨ 204800 < osr then s.setf F.AMU_COMMIT_STAT_REJ_INVALID
  else (s.setf F.AMU_COMMIT_STAT_PENDING).onAmu (fun a => { a with pend := addPend a.pend (s.phys + 64 * tickNs) snap })

/-- AMU_COMMIT (R425). -/
def execAmuCommit (v : Word) (s : State) : Host.Outcome State Fault Refusal := live s fun s => s.amuCommitWrite v

/-- AMU_COMMIT_APPLY (R425): at the first AMU clock cycle at least 64 ns after the write. -/
def execAmuCommitApply (s : State) : Host.Outcome State Fault Refusal :=
  live s fun s =>
    match s.amu.pend with
    | none => s
    | some p =>
      let s := ((s.toPhys p.due).applyShadow 0x360000C 0x3600010 p.snap).wr F.AMU_COMMIT_STAT_PENDING (b2n p.after.isSome)
      s.onAmu (fun a => { a with pend := p.after })

/-- The BAR0 address of a result block's HDR (R425). -/
def hdrAddr (n : Nat) : Nat := if n < 16 then 0x3600100 + 0x10 * n else 0x3600040

/-- A read of a result block's HDR returns HDR, copies VALUE and TIME to the latch and clears NEW (R413). -/
def State.amuHdrRead (s : State) (n : Fin 17) : State :=
  let w := s.word (hdrAddr n)
  let l := kget s.amu.live n {}
  let s := s.wr (resFld n F.AMU_RESULTn_VALUE_VALUE F.AMU_INJ_RES_VALUE_VALUE) l.value n
  let s := s.wr (resFld n F.AMU_RESULTn_TIME_LO_TIME F.AMU_INJ_RES_TIME_LO_TIME) l.time n
  let s := s.wr (resFld n F.AMU_RESULTn_TIME_HI_TIME F.AMU_INJ_RES_TIME_HI_TIME) (l.time / 2 ^ 32) n
  let s := s.wr (resFld n F.AMU_RESULTn_HDR_NEW F.AMU_INJ_RES_HDR_NEW) 0 n
  s.emit (.readData (hdrAddr n) w)

/-- AMU_RESULT_HDR_READ (R413). -/
def execAmuResultHdrRead (n : Fin 17) (s : State) : Host.Outcome State Fault Refusal :=
  liveRead s (hdrAddr n) fun s => s.amuHdrRead n

/-- AMU_CJC_READ (R409). -/
def execAmuCjcRead (t : Int) (s : State) : Host.Outcome State Fault Refusal :=
  live s fun s => s.wr F.AMU_CJC_T (unsg 16 (clampI (-32768) 32767 t))

/-- LOOP_SET (R423, R424): the current applies at once, clamped, and the watchdog restarts. -/
def State.loopSetWrite (s : State) (k : Fin 2) (v : Word) : State :=
  let ua := bits v.toNat 14 0
  let c := min (max ua 3800) 20500
  let s := s.wr F.LOOPk_SET_UA c k
  let s := if c = ua then s else s.setf F.LOOPk_STAT_CLAMP k
  ((s.setLoop k { s.loopDrv k with setAt := s.phys }).wr F.LOOPk_STAT_WDOG 0 k).loopShow k

/-- LOOP_SET (R423). -/
def execLoopSet (k : Fin 2) (v : Word) (s : State) : Host.Outcome State Fault Refusal := live s fun s => s.loopSetWrite k v

/-- LOOP_READBACK (R423, R424): a mismatch of more than 200 µA for 20 consecutive readings is a loop fault. -/
def execLoopReadback (k : Fin 2) (ua : Nat) (s : State) : Host.Outcome State Fault Refusal :=
  live s fun s =>
    let r := min ua 0x7FFF
    let s := s.wr F.LOOPk_READ_UA r k
    let want := s.loopUa k
    let off := s.flag F.LOOPk_CTRL_ENABLE k && decide (want + 200 < r ∨ r + 200 < want)
    let m := if off then (s.loopDrv k).miss + 1 else 0
    let s := s.setLoop k { s.loopDrv k with miss := m }
    if m = 20 then
      ((s.setf F.LOOPk_STAT_FAULT k).count F.LOOPk_FAULT_CNT_COUNT 1 k).raise 1 0x3602 k r 0
    else s

/-- LOOP_WDOG (R424): WDOG_MS passes without a SET write. -/
def execLoopWdog (k : Fin 2) (s : State) : Host.Outcome State Fault Refusal :=
  live s fun s =>
    let ms := s.rd F.LOOPk_CTRL_WDOG_MS k
    if ms = 0 || s.flag F.LOOPk_STAT_WDOG k then s else
    let s := (s.toPhys ((s.loopDrv k).setAt + ms * tickMs)).setf F.LOOPk_STAT_WDOG k
    (s.loopShow k).raise 1 0x3603 k (s.rd F.LOOPk_READ_UA k) 0

end Sys2Proof.Machine
end

