-- ==== Sys2Proof/Machine/BeaconOps.lean ====
section
/-! DEFINITION. Machine/BeaconOps.lean: Beacon's programs, plays, markers and output ("Fibre vibration sensing: Beacon
probes and the Glimmer engine", R192-R199, R222). -/
namespace Sys2Proof.Machine

/-- Beacon output `b`. -/
def State.bcn (s : State) (b : Nat) : BeaconSt := kget s.fibre.beacons b {}

/-- Replaces Beacon output `b`. -/
def State.setBcn (s : State) (b : Nat) (x : BeaconSt) : State :=
  { s with fibre := { s.fibre with beacons := kset s.fibre.beacons b x {} } }

/-- The program of a bank, where it is valid (R201). -/
def BeaconSt.prog (x : BeaconSt) (bank : Nat) : Option BProg := if bank = 0 then x.bank0 else x.bank1

/-- Installs a program in a bank. -/
def BeaconSt.setProg (x : BeaconSt) (bank : Nat) (p : BProg) : BeaconSt :=
  if bank = 0 then { x with bank0 := some p } else { x with bank1 := some p }

/-- Slot `i` of a program. -/
def BProg.slot (p : BProg) (i : Nat) : BSlot := p.slots.getD i ⟨0, 0, 0, 0, 0, 0, 0, 0⟩

/-- t_e(c, s) for a play that begins at `t0` (R196). -/
def BProg.te (p : BProg) (t0 c i : Nat) : Nat := t0 + (c * p.cyc + (p.slot i).offset) * cycle

/-- The slot entry at byte 64 + 32 i of a program block (R194). -/
def slotOf (d : Bytes) (i : Nat) : BSlot :=
  let o := 64 + 32 * i
  { offset := fieldAt d o 4, shape := fieldAt d (o + 4) 1, mkr := fieldAt d (o + 5) 1
    level := BitVec.ofNat 16 (fieldAt d (o + 6) 2), wave := fieldAt d (o + 8) 4, len := fieldAt d (o + 12) 4
    lead := fieldAt d (o + 16) 2, lag := fieldAt d (o + 18) 2 }

/-- Whether slot entry `i` keeps the rules of R194 and, against the slot after it, of R195. -/
def slotOk (d : Bytes) (p : BProg) (i : Nat) : Bool :=
  let x := p.slot i
  let after := if i + 1 < p.slots.length then (p.slot (i + 1)).offset else p.cyc + (p.slot 0).offset
  decide (x.shape ≤ 1) && decide (x.mkr < 4) && (x.shape = 0 || x.level == 0) &&
    (if x.shape = 0 then x.wave = 0 else x.wave % 4 = 0 && decide (x.wave + x.len ≤ 4194304)) &&
    x.len % 4 = 0 && decide (4 ≤ x.len ∧ x.len ≤ 4194304) && decide (4 * x.offset + x.len ≤ 4 * after) &&
    allZero ((d.drop (64 + 32 * i + 20)).take 12)

/-- A program block as a program, or the code of the first thing in it that is not valid: 0x20 for the header, slot + 1
otherwise (R194, R195, R201). -/
def parseProg (d : Bytes) : BProg × Nat :=
  let n := fieldAt d 4 1
  let p : BProg := { cyc := fieldAt d 0 4, idle := BitVec.ofNat 16 (fieldAt d 6 2), slots := (List.range n).map (slotOf d) }
  if p.cyc < 64 ∨ n = 0 ∨ 16 < n ∨ fieldAt d 5 1 ≠ 0 then (p, 0x20)
  else if !allZero ((d.drop 8).take 56) then (p, 0x20)
  else (p, match (List.range n).find? (fun i => !slotOk d p i) with | some i => i + 1 | none => 0)

/-- STAT.BANK_VALID, OWNED, PLAYING and ACTIVE_BANK follow the output (R229). -/
def State.bcnStat (s : State) (b : Nat) : State :=
  let x := s.bcn b
  let s := s.wr F.BEACON_Bb_STAT_BANK_VALID (b2n x.bank0.isSome + 2 * b2n x.bank1.isSome) b
  match x.play with
  | none => ((s.wr F.BEACON_Bb_STAT_PLAYING 0 b).wr F.BEACON_Bb_STAT_OWNED (b2n x.dir.isSome) b).wr F.BEACON_Bb_STAT_CLK_HOLD 0 b
  | some p =>
    let s := (s.wr F.BEACON_Bb_STAT_PLAYING (b2n p.started) b).wr F.BEACON_Bb_STAT_OWNED (b2n (p.owner ≠ 0)) b
    let s := s.wr F.BEACON_Bb_STAT_CLK_HOLD (b2n p.held) b
    if p.started then s.wr F.BEACON_Bb_STAT_ACTIVE_BANK p.bank b else s

/-- The count of cycles begun since T_start, as the register shows it: the number of the cycle in progress (R196). -/
def State.bcnCycle (s : State) (b : Nat) : Nat :=
  match (s.bcn b).play with
  | some p =>
    match (s.bcn b).prog p.bank with
    | some g => if p.started then (s.devTime - p.t0) / (max g.cyc 1 * cycle) else 0
    | none => 0
  | none => s.rd64 F.BEACON_Bb_CYCLE_LO_COUNT F.BEACON_Bb_CYCLE_HI_COUNT b

/-- Whether marker `m` (0 or 1) of output `b` is high: the OR of its open windows, or the direction line (R195, R239). -/
def State.mkLevel (s : State) (b m : Nat) : Bool :=
  let x := s.bcn b
  match m, x.dir with
  | 1, some d => d
  | _, _ => x.wins.any (fun w => w.mkr = m)

/-- Replaces output `b`; each marker whose level changes has an edge at `t`, which Lantern takes (R108, R197). The pin's
level is inverted by MK_INV. -/
def State.setMarkers (s : State) (b t : Nat) (x : BeaconSt) : State :=
  let s' := s.setBcn b x
  (List.range 2).foldl (fun s' m =>
    let l := s'.mkLevel b m
    if l = s.mkLevel b m then s' else
    (s'.emit (.marker (2 * b + m) (l != bit (s'.ract F.BEACON_Bb_CTRL_MK_INV b) m) (t % 2 ^ 64))).lanEdge
      (260 + 2 * b + m) l t) s'

/-- The code that output `b` emits at device time `t` while slot `i`'s probe of stamp `te` lasts, or none where that
sample has never been loaded (R193, R196). -/
def State.bcnCode (s : State) (b : Nat) (g : BProg) (te i t : Nat) : Option (BitVec 16) :=
  let x := g.slot i
  let j := (t - te) / 8192
  if t < te ∨ x.len ≤ j then some g.idle else if x.shape = 0 then some x.level else kget (s.bcn b).wave (x.wave + j) none

/-- Ends the play of output `b` now: the output goes to 0 V and every marker falls (R196, R198, R222). `next` is the play
that follows it. -/
def State.bcnEnd (s : State) (b : Nat) (next : Option Play := none) : State :=
  let c := s.bcnCycle b
  let s := s.setMarkers b s.boundary { s.bcn b with play := next, after := none, wins := [], dir := none }
  let s := s.wr64 F.BEACON_Bb_CYCLE_LO_COUNT F.BEACON_Bb_CYCLE_HI_COUNT (c % 2 ^ 64) b
  (s.wr F.BEACON_Bb_COMMIT_STAT_PENDING (b2n next.isSome) b).bcnStat b

/-- Counts a probe that is cut short (R222). -/
def State.bcnTrunc (s : State) (b : Nat) (p : Play) : State :=
  if s.devTime < p.probeEnd then (s.count F.BEACON_Bb_TRUNC_CNT_COUNT 1 b).setf F.BEACON_Bb_STAT_TRUNC b else s

/-- Stops the play of output `b`: after the probe in progress, at once where none is; `cut` ends the probe as well (R198,
R222). -/
def State.bcnStop (s : State) (b : Nat) (cut : Bool) : State :=
  match (s.bcn b).play with
  | none => s
  | some p =>
    if cut then (s.bcnTrunc b p).bcnEnd b
    else if p.probeEnd ≤ s.devTime then s.bcnEnd b
    else s.setBcn b { s.bcn b with
      after := none, play := some { p with stopAt := some p.probeEnd }
      wins := (s.bcn b).wins.map (fun (w : MkWin) => { w with fall := min w.fall p.probeEnd }) }

/-- T_start for a requested device time (R198, R224): rounded up to an SCLK boundary; 0, or a time less than 2 µs ahead,
gives the first boundary at least 2 µs ahead. -/
def State.tStart (s : State) (req : Nat) : Nat :=
  let t := s.devTime / 2 ^ 64 * 2 ^ 64 + req
  if req = 0 ∨ t < s.devTime + 2 * tickUs then s.boundaryAfter (2 * tickUs) else roundUp t cycle

/-- Schedules a play of output `b` that begins at `t0` (R196, R197); where a play still finishes its last probe, it follows
that play. -/
def State.bcnPlay (s : State) (b owner bank t0 : Nat) (left : Option Nat) : State :=
  let p : Play := { owner := owner, bank := bank, t0 := t0, floor := s.boundaryAfter tickUs, left := left }
  (s.setBcn b (if (s.bcn b).play.isSome then { s.bcn b with after := some p } else { s.bcn b with play := some p })).bcnStat b

/-- An SSYN lock loss: the output goes to 0 V, markers fall, and a probe is cut short (R222). The play of a temperature run
that stands is kept, since its last accumulation may be taken again (R242). -/
def State.bcnLoss (s : State) (b : Nat) : State :=
  match (s.bcn b).play with
  | none => s
  | some p =>
    let s := s.bcnTrunc b p
    let kept := match kget s.fibre.fts b none with | some r => r.jid = p.owner | none => false
    if p.stopAt.isSome && !kept then s.bcnEnd b ((s.bcn b).after.map (fun (q : Play) => { q with held := true })) else
    (s.setMarkers b s.boundary { s.bcn b with
      play := some { p with held := true, probeEnd := min p.probeEnd s.devTime, stopAt := none }, wins := []
      dir := (s.bcn b).dir.map (fun _ => false) }).bcnStat b

/-- The end of the clock hold: play resumes at the first cycle boundary at or after it, or the output is released
(R222). A bank change that waits applies at that boundary; a play whose last cycle had begun is over. -/
def State.bcnHoldEnd (s : State) (b : Nat) (resume : Bool) : State :=
  match (s.bcn b).play with
  | none => s
  | some p =>
    if !p.held then s else
    if !resume || p.left = some 0 then s.bcnEnd b else
    let g := (s.bcn b).prog p.bank
    let len := max ((g.map (·.cyc)).getD 1) 1 * cycle
    let c := ceilDiv (s.devTime - p.t0) len
    let next := p.next.map (fun x => (x.1, p.t0 + c * len, x.2.2))
    let q : Play := { p with
      held := false, c := c, slot := 0, floor := max p.floor s.boundary, next := next }
    (s.setBcn b { s.bcn b with play := some q }).bcnStat b

/-- Whether fibre runs or a play use bank `bank` of output `b` (R199). -/
def State.bankUsed (s : State) (b bank : Nat) : Bool :=
  let run := (match kget s.fibre.glims b none with | some r => r.cfg.bank = bank | none => false) ||
    (match kget s.fibre.fts b none with | some r => !r.cfg.lantern && r.cfg.bank = bank | none => false)
  let play := match (s.bcn b).play with
    | some p => p.bank = bank || (match p.next with | some x => x.1 = bank | none => false)
    | none => false
  let after := match (s.bcn b).after with | some p => p.bank = bank | none => false
  run || play || after

/-- Whether a program in use refers to a waveform sample from `lo` up to `hi` (R199). -/
def State.waveUsed (s : State) (b lo hi : Nat) : Bool :=
  (List.range 2).any (fun bank => s.bankUsed b bank &&
    (match (s.bcn b).prog bank with
      | some g => g.slots.any (fun x => x.shape = 1 && decide (x.wave < hi ∧ lo < x.wave + x.len))
      | none => false))

end Sys2Proof.Machine
end

