-- ==== Sys2Proof/Machine/GlimOps.lean ====
section
/-! DEFINITION. Machine/GlimOps.lean: the Glimmer engine's arithmetic, filters and frames ("Fibre vibration sensing: Beacon
probes and the Glimmer engine", R204-R223). -/
namespace Sys2Proof.Machine

/-- The FIBRE_VIB_RUN on fibre `f`. -/
def State.glim (s : State) (f : Nat) : Option GRun := kget s.fibre.glims f none

/-- Replaces the run on fibre `f`. -/
def State.setGlim (s : State) (f : Nat) (r : Option GRun) : State :=
  { s with fibre := { s.fibre with glims := kset s.fibre.glims f r none } }

/-- N_t and L_t of a tone (R205). -/
def GTone.n (t : GTone) : Nat := max t.coefs.length 1
def GCfg.traceLen (c : GCfg) (t : GTone) : Nat := c.posCount + c.gauge + t.n - 1

/-- max L_t over the tones. -/
def GCfg.maxLen (c : GCfg) : Nat := maxL (c.tones.map c.traceLen)

/-- N_ZONES. -/
def GCfg.nZones (c : GCfg) : Nat := c.posCount / max c.zone 1

/-- t(p) for an emission (R191). -/
def posTime (te delay p : Nat) : Nat := te + delay * cycle + p * 262144

/-- Half the channeliser's span, in ticks (R204, R221). -/
def halfSpan : Nat := 1048576

/-- The tones of a slot, ascending (R207). -/
def GCfg.slotTones (c : GCfg) (i : Nat) : List Nat := (List.range c.tones.length).filter (fun t => ((c.tones[t]?).map (·.slot)) = some i)

/-- A compressed part: `2^-shift` times an exact sum, rounded half to even and held at ±32,767, and whether it was held
(R206). -/
def compPart (shift : Nat) (x : Int) : Int × Bool :=
  let y := roundEvenI x (2 ^ shift)
  if 32767 < y then (32767, true) else if y < -32767 then (-32767, true) else (y, false)

/-- y[p] of a tone from the trace's samples at index `i` on (R206): the vector, and whether a part saturated. -/
def compress (t : GTone) (x : List (Int × Int)) (i : Nat) : (Int × Int) × Bool :=
  if t.coefs.isEmpty then (x.getD i (0, 0), false) else
  let s := ((List.range t.coefs.length).foldl (fun (a : Int × Int) n =>
    let c := t.coefs.getD n (0, 0)
    let v := x.getD (i + n) (0, 0)
    (a.1 + c.1 * v.1 + c.2 * v.2, a.2 + c.1 * v.2 - c.2 * v.1)) (0, 0))
  let re := compPart t.shift s.1
  let im := compPart t.shift s.2
  ((re.1, im.1), re.2 || im.2)

/-- The words of an input that a tone's sample at position `p` touches (R204, R212). -/
def touched (h : List FWord) (te delay p n : Nat) : List FWord :=
  let a := posTime te delay p - halfSpan
  let b := posTime te delay (p + n - 1) + halfSpan
  h.filter (fun w => decide (w.t ≤ b ∧ a < w.t + w.span))

/-- Whether words hold a status 01 or 10 (R212). -/
def flaggedWords (ws : List FWord) : Bool := ws.any (fun w => w.status = 1 || w.status = 2)

/-- One input's component at a position: its value, none where the trace is discarded or damaged (R222, R223), whether it is
flagged, whether a flagged word held a clip code, and whether it saturated (R206, R212). -/
structure GComp where
  z : Option C32
  flagged : Bool
  clip : Bool
  sat : Bool

/-- The component of a tone on one input at position index `i` (R204, R206, R212). -/
def component (c : GCfg) (e : GEmis) (t : GTone) (h : List FWord) (g : GTrace) (tr : List (Int × Int)) (i : Nat) : GComp :=
  let y := compress t tr i
  let ws := (touched h e.te c.delay (c.posFirst + i) t.n).filter (fun w => w.status = 1 || w.status = 2)
  let gone := g.late || g.damaged
  { z := if gone then none else some ⟨fint y.1.1, fint y.1.2⟩, flagged := !ws.isEmpty || g.late || (y.2 && !gone)
    clip := ws.any (·.clip), sat := y.2 && !gone }

/-- The components of an emission's slot at position index `i`, each tone's even input first (R207). -/
def components (c : GCfg) (hE hO : List FWord) (e : GEmis) (i : Nat) : List GComp :=
  ((c.slotTones e.slot).map (fun t =>
    match c.tones[t]?, e.got.find? (fun (g : GTrace) => g.tone = t) with
    | some k, some g => [component c e k hE g g.even i, component c e k hO g g.odd i]
    | _, _ => [])).flatten

/-- 2^-n as binary32. -/
def pow2neg (n : Nat) : Nat := toBin32 1 (2 ^ n)

/-- One tracker's step (R207). -/
def track (sh : Nat) (r : C32) (g z : C32) : C32 := g.add ((((z.mul r.conj).div r.abs).sub g).scale (pow2neg sh))

/-- Diversity combining at a position and slot (R207): the new trackers and the combined vector. A component of a trace that
is discarded or damaged takes no part; with no component left the slot's state stays. -/
def combine (sh : Nat) (st : GSlotSt) (zs : List (Option C32)) : GSlotSt × C32 :=
  if zs.all (·.isNone) then (st, {}) else
  let r := st.v.getD ((zs.getD 0 none).getD {})
  let g0 := (List.range zs.length).map (fun i => st.g.getD i {})
  let g := if !flt32 0 r.abs then g0 else
    (g0.zip zs).map (fun x => match x.2 with | some z => track sh r x.1 z | none => x.1)
  let v := (g.zip zs).foldl (fun (v : C32) x =>
    match x.2 with
    | some z => v.add (z.mul (if x.1.isZero then C32.one else x.1.conj.div x.1.abs))
    | none => v) {}
  ({ st with g := g, v := some v }, v)

/-- What a raw sample leaves at a position: its phase, and whether it was faded, flagged or a resync, and whether a clip
code was met. -/
structure GOut where
  phi : Nat
  faded : Bool
  flagged : Bool
  resync : Bool
  clip : Bool
  sats : Nat

/-- The slot offset of R208 and the unwrapping of R209 at one position for a raw sample of slot `sl`; `bad` says that it
is faded, flagged or damaged. -/
def unwrap (c : GCfg) (sl : Nat) (p : GPos) (v : C32) (bad : Bool) : GPos × Bool :=
  let st := p.slots.getD sl {}
  let o := if sl = 0 || st.a.isZero then C32.one else st.a.div st.a.abs
  let w := v.mul o.conj
  let a := match p.wPrev with
    | some wp => if sl ≠ 0 ∧ bad = false then track c.track wp st.a v else st.a
    | none => st.a
  let p := { p with slots := p.slots.set sl { st with a := a } }
  if bad then
    let run := p.run + 1
    ({ p with run := run, lost := p.lost || decide (c.fadeMax < run) }, false)
  else
    let ph := w.phase
    match p.good with
    | none => ({ p with wPrev := some w, good := some ph, run := 0, lost := false }, false)
    | some g =>
      if p.lost then ({ p with wPrev := some w, good := some ph, run := 0, lost := false }, true)
      else ({ p with wPrev := some w, good := some ph, run := 0, phi := fadd p.phi (wrap32 (fsubb ph g)) }, false)

/-- One position's raw sample of an emission (R207-R209, R212, R223). -/
def posStep (c : GCfg) (hE hO : List FWord) (e : GEmis) (damaged : Bool) (err : List Nat) (p : GPos) (i : Nat) : GPos × GOut :=
  let restart := err.contains (c.posFirst + i)
  let p := if restart then { slots := List.replicate c.nSlots {} } else p
  let cs := components c hE hO e i
  let q := combine c.track (p.slots.getD e.slot {}) (cs.map (·.z))
  let p := { p with slots := p.slots.set e.slot q.1 }
  let flagged := cs.any (·.flagged)
  let faded := flt32 q.2.abs c.fadeLevel || damaged
  let u := unwrap c e.slot p q.2 (faded || flagged)
  (u.1, { phi := u.1.phi, faded := faded && !flagged, flagged := flagged, resync := u.2 || restart
          clip := cs.any (·.clip), sats := countP (·.sat) cs })

/-- The zone raw sample of zone `z` (R210, R211): its value and its count of valid positions. -/
def zoneRaw (c : GCfg) (os : Array GOut) (z : Nat) : Nat × Nat :=
  let bad (i : Nat) : Bool := match os[i]? with | some o => o.faded || o.flagged | none => true
  let phi (i : Nat) : Nat := match os[i]? with | some o => o.phi | none => 0
  let ps := (List.range c.zone).map (fun k => z * c.zone + k)
  let ok := ps.filter (fun i => !bad i && !bad (i + c.gauge))
  let us := if ok.isEmpty then ps else ok
  (fdiv (us.foldl (fun a i => fadd a (fsubb (phi (i + c.gauge)) (phi i))) 0) (fint us.length), ok.length)

/-- The flags byte of zone `z` that a raw sample adds (R220): the zone's positions and their far ends. A position that counts
as flagged does not count as faded (R212). -/
def zoneFlags (c : GCfg) (os : Array GOut) (z : Nat) (settling integrity : Bool) : Nat :=
  let ps := ((List.range c.zone).map (fun k => [z * c.zone + k, z * c.zone + k + c.gauge])).flatten
  let f (g : GOut → Bool) : Nat := b2n (ps.any (fun i => match os[i]? with | some o => g o | none => false))
  f (·.faded) + 2 * f (·.resync) + 4 * b2n settling + 8 * f (·.flagged) + 16 * f (·.clip) + 32 * b2n integrity

/-- The high-pass stage (R213): the filtered sample and the stage's state. -/
def highPass (c : GCfg) (g : GZone) (x : Nat) : Nat × GZone :=
  if c.hp = 0 then (x, { g with x := some x, y := x }) else
  let xp := g.x.getD x
  let k := toBin32 ((2 ^ c.hp - 1 : Nat) : Int) (2 ^ c.hp)
  let y := fadd (fsubb x xp) (fmul k g.y)
  (y, { g with x := some x, y := y })

/-- The FIR stage over the means held, newest first (R213). -/
def firOut (c : GCfg) (us : List Nat) : Nat :=
  if c.fir.isEmpty then us.getD 0 0
  else (List.range c.fir.length).foldl (fun a i => fadd a (fmul (c.fir.getD i 0) (us.getD i 0))) 0

/-- T_out in seconds, binary32 (R213, R215). -/
def GCfg.tOut (c : GCfg) : Nat := toBin32 ((c.cyc * c.decMean * c.decFir : Nat) : Int) (c.nSlots * 2000000000)

/-- One raw sample through zone `z`'s stages (R213, R215); `m` is the raw sample's index since the run started or resumed.
The result is the output value where one is formed. -/
def zoneStep (c : GCfg) (m : Nat) (g : GZone) (x valid flags : Nat) : GZone × Option Nat :=
  let r := highPass c g x
  let g := r.2
  let sum := if m % c.decMean = 0 then r.1 else fadd g.sum r.1
  let g := { g with sum := sum, flags := g.flags ||| flags, valid := g.valid + valid, total := g.total + c.zone }
  if (m + 1) % c.decMean ≠ 0 then (g, none) else
  let us := ((fdiv sum (fint c.decMean)) :: g.us).take (max c.fir.length 1)
  let g := { g with us := us }
  if (m / c.decMean) % c.decFir ≠ 0 then (g, none) else
  let q := firOut c us
  let v := if c.output = 0 then q else match g.q with
    | some p => fdiv (fmul c.strain (fsubb q p)) c.tOut
    | none => 0
  ({ g with q := some q, fFlags := g.fFlags ||| g.flags, fValid := g.fValid + g.valid, fTotal := g.fTotal + g.total
            flags := 0, valid := 0, total := 0 }, some v)

/-! ### Frames -/

/-- S_frame (R216). -/
def GCfg.frameBytes (c : GCfg) : Nat :=
  64 + c.frameSamples * c.nZones * (if c.format = 0 then 2 else 4) + (if c.qual then 2 * c.nZones else 0)

/-- The exponent of R219: the smallest E from -40 to 40 with every value at most 32,767 × 2^E. -/
def scaleExp (vs : List Nat) : Int :=
  let fits (e : Int) : Bool := vs.all (fun v => match val32 v with
    | some x => if 0 ≤ e then decide (x.1.natAbs ≤ 32767 * 2 ^ e.toNat * x.2) else decide (x.1.natAbs * 2 ^ (-e).toNat ≤ 32767 * x.2)
    | none => false)
  (((List.range 81).map (fun (i : Nat) => (i : Int) - 40)).find? fits).getD 40

/-- A value in int16 under scale 2^E (R219). -/
def scaled (e : Int) (v : Nat) : Nat :=
  match val32 v with
  | some x => unsg 16 (clampI (-32767) 32767
      (if 0 ≤ e then roundEvenI x.1 (x.2 * 2 ^ e.toNat) else roundEvenI (x.1 * (2 ^ (-e).toNat : Nat)) x.2))
  | none => if neg32 v then unsg 16 (-32767) else 32767

/-- The quality block (R220). -/
def qualBlock (zs : List GZone) : Bytes :=
  (zs.map (fun g =>
    [BitVec.ofNat 8 ((510 * g.fValid + g.fTotal) / (2 * max g.fTotal 1)), BitVec.ofNat 8 g.fFlags])).flatten

/-- Closes the frame in progress, if it holds an output (R216-R219): it takes the next sequence number. -/
def GRun.closeFrame (f : Nat) (r : GRun) (stopped : Bool) : GRun :=
  if r.outs.isEmpty then r else
  let c := r.cfg
  let vs := r.outs.flatten
  let e := scaleExp vs
  let zf := r.zones.foldl (fun a g => a ||| g.fFlags) 0
  let flags := b2n r.brk + 2 * b2n stopped + 4 * b2n (bit zf 5) + 8 * b2n (bit zf 2) + 16 * b2n (bit zf 0) +
    32 * b2n (bit zf 1) + 64 * b2n (bit zf 3)
  let seq := r.seq + 1
  let anchor := posTime r.lastTe c.delay (c.posFirst + c.maxLen - 1) + halfSpan
  let pad := (c.frameSamples - r.outs.length) * c.nZones
  let data := if c.format = 0 then (vs.map (fun v => leBytes 2 (scaled e v))).flatten ++ zeros (2 * pad)
    else (vs.map (leBytes 4)).flatten ++ zeros (4 * pad)
  let header := leBytes 8 seq ++ leBytes 8 (r.tFirst % 2 ^ 64) ++
    leBytes 8 (c.cyc / max c.nSlots 1 * c.decMean * c.decFir * cycle) ++ leBytes 4 c.nZones ++ leBytes 2 r.outs.length ++
    leBytes 2 flags ++
    leBytes 4 (if c.format = 0 then (if 0 ≤ e then toBin32 ((2 ^ e.toNat : Nat) : Int) 1 else pow2neg (-e).toNat) else 0x3F800000) ++
    leBytes 1 (c.output + 2 * c.format) ++ leBytes 1 f ++ leBytes 2 r.tag ++ leBytes 8 (anchor % 2 ^ 64) ++
    leBytes 8 r.cycle0 ++ leBytes 1 r.sq ++ zeros 7
  { r with
    outs := [], seq := seq, anchor := anchor, brk := false
    zones := r.zones.map (fun (g : GZone) => { g with fFlags := 0, fValid := 0, fTotal := 0 })
    frames := r.frames ++ [{ seq := seq, flags := flags, header := header
                             body := data ++ (if c.qual then qualBlock r.zones else []), anchor := anchor }] }

/-- A position's state at the start of a run or resume (R207-R209, R222). -/
def GRun.fresh (r : GRun) : GRun :=
  { r with
    pos := List.replicate (r.cfg.posCount + r.cfg.gauge) { slots := List.replicate r.cfg.nSlots {} }
    zones := List.replicate r.cfg.nZones {}, n := 0, c0 := none, cycles := [], outs := [] }

/-- What one raw sample counts: faded, resyncs, flagged with saturated samples, restarted positions; and whether a trace of it
was damaged. -/
structure GCount where
  faded : Nat
  resync : Nat
  flagged : Nat
  restarted : Nat
  damaged : Bool

/-- The raw sample of an emission whose traces are complete (R207-R215): the run after it, and what it counts. -/
def GRun.raw (f : Nat) (r : GRun) (e : GEmis) : GRun × GCount :=
  let c := r.cfg
  let c0 := r.c0.getD e.c
  let settling := decide (e.c < c0 + 2 ^ (c.track + 2))
  let damaged := e.got.any (·.damaged)
  let err := (e.got.map (·.stateErr)).flatten
  let ps := ((List.range r.pos.length).zip r.pos).map (fun x => posStep c r.histE r.histO e damaged err x.2 x.1)
  let os := (ps.map (·.2)).toArray
  let zs := ((List.range r.zones.length).zip r.zones).map (fun x =>
    let z := zoneRaw c os x.1
    let hit := damaged || (List.range c.zone).any (fun k => err.contains (c.posFirst + x.1 * c.zone + k) ||
      err.contains (c.posFirst + x.1 * c.zone + k + c.gauge))
    zoneStep c r.n x.2 z.1 z.2 (zoneFlags c os x.1 settling hit))
  let vals := zs.filterMap (·.2)
  let last := r.n % c.decMean = 0
  let cycles := if last then e.c :: r.cycles else r.cycles
  let cycles := cycles.take (max c.fir.length 1)
  let t := max c.fir.length 1
  let tOut := e.te + 2 ^ 64 - ((c.decMean - 1) + (t - 1) * c.decMean) * (c.cyc / max c.nSlots 1) * 16384
  let first := r.outs.isEmpty
  let r := { r with
    pos := ps.map (·.1), zones := zs.map (·.1), n := r.n + 1, c0 := some c0, cycles := cycles }
  let r := if vals.isEmpty then r else
    { r with
      outs := r.outs ++ [vals], lastTe := e.te, tFirst := if first then tOut else r.tFirst
      cycle0 := if first then cycles.getLastD e.c else r.cycle0 }
  let r := if c.frameSamples ≤ r.outs.length then r.closeFrame f false else r
  let cnt (g : GOut → Bool) : Nat := countP (fun x => g x.2) ps
  (r, { faded := cnt (·.faded), resync := cnt (·.resync)
        flagged := cnt (·.flagged) + sumL (ps.map (fun x => x.2.sats)), restarted := countP (fun i => err.contains (c.posFirst + i)) (List.range r.pos.length)
        damaged := damaged })

/-- Counts what a raw sample met, in the registers (R209, R212, R223, R229). A run in which INTEGRITY was set ends
INTEGRITY_FAULT. -/
def State.glimCount (s : State) (f : Nat) (k : GCount) : State :=
  let one (s : State) (n : Nat) (cnt flag : Fld) : State := if n = 0 then s else (s.count cnt n f).setf flag f
  let s := one s k.faded F.GLIMMER_Ff_FADED_CNT_COUNT F.GLIMMER_Ff_STAT_FADED
  let s := one s k.resync F.GLIMMER_Ff_RESYNC_CNT_COUNT F.GLIMMER_Ff_STAT_RESYNC
  let s := one s k.flagged F.GLIMMER_Ff_FLAGGED_CNT_COUNT F.GLIMMER_Ff_STAT_FLAGGED
  let s := one s k.restarted F.GLIMMER_Ff_STATE_ERR_CNT_COUNT F.GLIMMER_Ff_STAT_STATE_ERR
  if k.restarted = 0 && !k.damaged then s else
  let s := s.setf F.GLIMMER_Ff_STAT_INTEGRITY f
  match s.glim f with
  | some r => s.updJob r.jid (fun j => { j with fIntegrity := true })
  | none => s

/-- Frames formed since number `old` go to the tiles that take them (R305). -/
def State.feedNew (s : State) (r : GRun) (old : Nat) : State :=
  (r.frames.filter (fun (x : GFrame) => decide (old < x.seq))).foldl (fun s (x : GFrame) =>
    s.feedFrame r.jid x.body (r.cfg.format = 0) r.cfg.nZones (fieldAt x.header 28 2) x.flags (fieldAt x.header 32 4)
      (fieldAt x.header 8 8)) s

/-- Takes the raw samples of the emissions at the front that have every tone's trace, in time order; at most `k`. -/
def State.glimRun (s : State) (f : Nat) : Nat → State
  | 0 => s
  | k + 1 =>
    match s.glim f with
    | none => s
    | some r =>
      match r.pending with
      | [] => s
      | e :: rest =>
        if e.got.length < (r.cfg.slotTones e.slot).length then s else
        let q := GRun.raw f { r with pending := rest } e
        let s := ((s.setGlim f (some q.1)).glimCount f q.2).feedNew q.1 r.seq
        let settling := match q.1.c0 with | some c0 => decide (e.c + 1 < c0 + 2 ^ (r.cfg.track + 2)) | none => true
        (s.wr F.GLIMMER_Ff_STAT_SETTLING (b2n settling) f).glimRun f k

/-- N_ZONES × f_out of a run, zone-samples per second (R227). -/
def GCfg.zoneRate (c : GCfg) : Q := ⟨c.nZones * c.nSlots * 2000000000, c.cyc * c.decMean * c.decFir⟩

/-- The zone-samples per second of every running run (R227). -/
def State.zoneRate (s : State) : Q :=
  (List.range 2).foldl (fun q f => match s.glim f with | some r => q.add r.cfg.zoneRate | none => q) ⟨0, 1⟩

/-- GB_ZONE_RATE, in units of 1,000 (R229). -/
def State.zoneRateReg (s : State) : State := s.wr F.GB_ZONE_RATE_RATE (s.zoneRate.ceil / 1000)

/-- No run owns fibre `f` any longer (R227, R229). -/
def State.glimDrop (s : State) (f : Nat) : State :=
  ((((s.setGlim f none).wr F.GLIMMER_Ff_STAT_RUNNING 0 f).wr F.GLIMMER_Ff_STAT_SETTLING 0 f).wr
    F.GLIMMER_Ff_STAT_CLK_HOLD 0 f).zoneRateReg

/-- Ends a run whose frames have all been handed to the mover and whose last raw sample has been taken (R222, R228). -/
def State.glimSettle (s : State) (f : Nat) : State :=
  match s.glim f with
  | none => s
  | some r =>
    if !r.done || !r.frames.isEmpty then s else
    (((s.glimDrop f).updJob r.jid (fun j => { j with autoEnd := true })).sourceEnded r.jid).settle r.jid

/-- A device time as an elapsed time. -/
def State.physOf (s : State) (t : Nat) : Nat := s.phys - (s.devTime - t)

/-- No further raw sample comes: the frame in progress is closed, and the job's anchor is that of its last frame (R218,
R222, R227); `now` says that the run is cut, and its anchor is then the present. -/
def State.glimFinish (s : State) (f : Nat) (stopped : Bool) (now : Bool := false) : State :=
  match s.glim f with
  | none => s
  | some r =>
    let q := { GRun.closeFrame f r stopped with pending := [], done := true }
    let a := if now || q.seq = 0 then s.phys else s.physOf q.anchor
    (((s.setGlim f (some q)).feedNew q r.seq).updJob r.jid (fun j => { j with anchor := some a })).glimSettle f

/-- An ABORT, a supply warning, a thermal emergency or a clock fault ends the run (R222): `g` sets the job's reason. -/
def State.glimCut (s : State) (f : Nat) (stopped cut : Bool) (g : Job → Job) : State :=
  match s.glim f with
  | none => s
  | some r => ((s.updJob r.jid g).bcnStop f cut).glimFinish f stopped true

/-- The last sample instant of an emission's traces (R191, R204, R205). -/
def GCfg.emisEnd (c : GCfg) (e : GEmis) : Nat :=
  posTime e.te c.delay (c.posFirst + maxL ((c.slotTones e.slot).map (fun t =>
    c.traceLen (c.tones[t]?.getD ⟨0, 0, 0, []⟩))) - 1) + halfSpan

/-- Whether an emission's traces touch a word with status 11 (R212, R222). -/
def GRun.hit11 (r : GRun) (e : GEmis) : Bool :=
  let lo := posTime e.te r.cfg.delay r.cfg.posFirst - halfSpan
  let hi := r.cfg.emisEnd e
  (r.histE ++ r.histO).any (fun w => w.status = 3 && decide (w.t ≤ hi ∧ lo < w.t + w.span))

/-- Discards the awaited emissions that `f` picks; each counts in EMIT_SKIP_CNT (R222). -/
def State.glimSkip (s : State) (f : Nat) (p : GEmis → Bool) : State :=
  match s.glim f with
  | none => s
  | some r =>
    let s := s.count F.GLIMMER_Ff_EMIT_SKIP_CNT_COUNT (countP p r.pending) f
    s.setGlim f (some { r with pending := r.pending.filter (fun e => !p e) })

/-- In a clock hold with no trace awaited, the frame in progress is closed with the outputs already complete (R222). -/
def State.glimHoldFrame (s : State) (f : Nat) : State :=
  match s.glim f with
  | none => s
  | some r =>
    if !r.hold || !r.pending.isEmpty then s else
    let q := GRun.closeFrame f r false
    (s.setGlim f (some q)).feedNew q r.seq

/-- An SSYN lock loss at device time `t` (R222): emissions whose traces reach past it are discarded, and the frame in progress
is closed once no trace is awaited. -/
def State.glimLoss (s : State) (f t : Nat) : State :=
  match s.glim f with
  | none => s
  | some r =>
    if r.done then s else
    let s := s.glimSkip f (fun e => decide (t ≤ r.cfg.emisEnd e))
    match s.glim f with
    | none => s
    | some r => ((s.setGlim f (some { r with hold := true })).setf F.GLIMMER_Ff_STAT_CLK_HOLD f).glimHoldFrame f

/-- Whether no further probe of fibre `f`'s run is to be emitted. -/
def State.playOver (s : State) (f : Nat) : Bool :=
  match (s.bcn f).play with | some p => p.stopAt.isSome | none => true

/-- The end of the clock hold (R222): every state entry restarts, or the run ends CLOCK_FAULT. A run whose last cycle had begun
is complete. -/
def State.glimHoldEnd (s : State) (f : Nat) : State :=
  match s.glim f with
  | none => s
  | some r =>
    if !r.hold then s else
    let s := ((s.wr F.GLIMMER_Ff_STAT_CLK_HOLD 0 f).glimSkip f (fun _ => true)).glimHoldFrame f
    if ((s.job? r.jid).map (·.autoResume)).getD false then
      match s.glim f with
      | none => s
      | some r =>
        let s := s.setGlim f (some { GRun.fresh r with hold := false, brk := true })
        if s.playOver f then s.glimFinish f false else s.setf F.GLIMMER_Ff_STAT_SETTLING f
    else s.glimCut f false false (fun j => { j with fClock := true })

/-- A word of an analogue input reaches the Glimmer run that owns it (R202, R212). Words that no awaited trace can touch
are not kept. -/
def State.glimWord (s : State) (n : Nat) (w : PWord) : State :=
  let f := n / 2
  match s.glim f with
  | none => s
  | some r =>
    let x : FWord := { t := w.t, span := w.span, status := w.status, clip := w.codes.any isClip, codes := [] }
    let lo := (match r.pending with | e :: _ => e.te | [] => w.t) - 4 * halfSpan
    let keep (h : List FWord) : List FWord := h.filter (fun v => decide (lo ≤ v.t + v.span))
    s.setGlim f (some (if n % 2 = 0 then { r with histE := keep r.histE ++ [x] } else { r with histO := keep r.histO ++ [x] }))

/-- Whether an input's words reach past device time `t`. -/
def wordsReach (h : List FWord) (t : Nat) : Bool :=
  match h.getLast? with | some w => decide (t < w.t + w.span) | none => false

end Sys2Proof.Machine
end

