-- ==== Sys2Proof/Machine/FtOps.lean ====
section
/-! DEFINITION. Machine/FtOps.lean: the fibre temperature engine's traces, accumulations and temperatures ("Fibre temperature
sensing", R230-R244). -/
namespace Sys2Proof.Machine

/-- The FIBRE_TEMP_RUN on instance `i`. -/
def State.ft (s : State) (i : Nat) : Option FtRun := kget s.fibre.fts i none

/-- Replaces the run on instance `i`. -/
def State.setFt (s : State) (i : Nat) (r : Option FtRun) : State :=
  { s with fibre := { s.fibre with fts := kset s.fibre.fts i r none } }

/-- A finite value as an exact fraction. -/
abbrev FRat := Int × Nat

/-- A fraction rounded to binary64, as the exact value of the pattern; an overflow holds 0, since no later use of it is
stated. -/
def r64 (x : FRat) : FRat := (binVal 53 11 (toBin64 x.1 x.2)).getD (0, 1)

/-- Binary64 sum, difference, product and quotient of fractions (R235). -/
def FRat.add (a b : FRat) : FRat := r64 (a.1 * (b.2 : Int) + b.1 * (a.2 : Int), a.2 * b.2)
def FRat.sub (a b : FRat) : FRat := r64 (a.1 * (b.2 : Int) - b.1 * (a.2 : Int), a.2 * b.2)
def FRat.mul (a b : FRat) : FRat := r64 (a.1 * b.1, a.2 * b.2)
def FRat.div (a b : FRat) : FRat :=
  let n := a.1 * (b.2 : Int)
  let d := b.1 * (a.2 : Int)
  if d = 0 then (0, 1) else r64 (if d < 0 then -n else n, d.natAbs)

/-- The natural logarithm in binary64: the spec does not fix it to the bit (free value). -/
def ln64 (x : FRat) : FRat := (binVal 53 11 (Config.arith 30 [toBin64 x.1 x.2] % 2 ^ 64)).getD (0, 1)

/-- A binary32 constant of the run block as a fraction. -/
def val32D (v : Nat) : FRat := (val32 v).getD (0, 1)

/-- A position in metres: half-position `p2` × 0.40838 / 2 m (R235). -/
def metres (p2 : Nat) : FRat := r64 (((p2 * 40838 : Nat) : Int), 200000)

/-- A position set: its first position and its length. -/
abbrev PosSet := Nat × Nat

/-- The zones and the references in use, in that order (R235, R246). -/
def FtCfg.zones (c : FtCfg) : List PosSet := (List.range c.nZones).map (fun z => (c.zoneFirst + z * c.zone, c.zone))
def FtCfg.refSets (c : FtCfg) : List PosSet := (c.refs.take c.refMode).map (fun d => (fieldAt d 0 4, fieldAt d 4 2))
def FtCfg.sets (c : FtCfg) : List PosSet := c.zones ++ c.refSets

/-- Twice the centre position of a set. -/
def PosSet.mid2 (p : PosSet) : Nat := 2 * p.1 + (p.2 - 1)

/-- The sum of area entries over the positions of a set; in the reverse direction at the mapped positions (R239). -/
def areaSum (c : FtCfg) (rev : Bool) (area : List Int) (p : PosSet) : Int :=
  (List.range p.2).foldl (fun a i =>
    let q := if rev then c.loopEnd - (p.1 + i) else p.1 + i
    a + area.getD (q - c.first) 0) 0

/-- X̄ of a set (R235): the mean over the set's entries less the background's. -/
def setMean (c : FtCfg) (rev : Bool) (area : List Int) (nm : Nat) (p : PosSet) : FRat :=
  if nm = 0 then (0, 1) else
  let bg := r64 (areaSum c false area (c.bgFirst, c.bgCount), max c.bgCount 1 * nm)
  (r64 (areaSum c rev area p, max p.2 1 * nm)).sub bg

/-- ln R of a set's means, where both are above 0 (R235). -/
def lnR (m : FRat × FRat) : Option FRat := if 0 < m.1.1 ∧ 0 < m.2.1 then some (ln64 (m.1.div m.2)) else none

/-- A set's ln R: of one accumulation, or the mean of both directions (R235, R239). -/
def lnRSet (fwd : FtMeans) (rev : Option FtMeans) (i : Nat) : Option FRat :=
  let z : FRat × FRat := ((0, 1), (0, 1))
  match lnR (fwd.sets.getD i z), rev with
  | some a, none => some a
  | some a, some r => (lnR (r.sets.getD i z)).map (fun b => (a.add b).div (2, 1))
  | none, _ => none

/-- The temperature in kelvin and the binary32 °C of a reference (R238): none where it is stale. -/
def State.refTemp (s : State) (d : Bytes) (last : Nat) : Option (FRat × Nat) :=
  let kelvin (v : Nat) : Option (FRat × Nat) := (val32 v).map (fun x => (FRat.add x (27315, 100), v))
  if fieldAt d 6 1 = 0 then kelvin (fieldAt d 8 4) else
  let n := fieldAt d 7 1
  let l := kget s.amu.live n {}
  if s.rd F.AMU_RESULTn_HDR_SEQ n = 0 || !s.flag F.AMU_RESULTn_HDR_SETTLED n || l.curve = 0 then none
  else if l.time + fieldAt d 12 2 * tickMs < last % 2 ^ 64 then none
  else kelvin l.value

/-- The frame's C and Δα (R236-R239), whether a reference was stale, and the references' temperatures. -/
def State.solve (s : State) (r : FtRun) (fwd : FtMeans) (rev : Option FtMeans) (last : Nat) :
    (FRat × FRat) × Bool × List (Option Nat) :=
  let c := r.cfg
  let ts := (c.refs.take c.refMode).map (fun d => s.refTemp d last)
  let kOf (i : Nat) : Option FRat :=
    match ts.getD i none, lnRSet fwd rev (c.nZones + i) with
    | some t, some l => some (((val32D c.gamma).div t.1).sub l)
    | _, _ => none
  let prev := r.cNow.getD (val32D c.c, val32D c.dalpha)
  let z (i : Nat) : FRat := metres (PosSet.mid2 (c.refSets.getD i (0, 1)))
  let shown := ts.map (fun t => t.map (·.2))
  match c.refMode, kOf 0, kOf 1 with
  | 0, _, _ => ((val32D c.c, val32D c.dalpha), false, shown)
  | 1, some k, _ =>
    if c.dbl then ((k, (0, 1)), false, shown)
    else ((k.add ((val32D c.dalpha).mul (z 0)), val32D c.dalpha), false, shown)
  | 2, some k0, some k1 =>
    if c.dbl then (((k0.add k1).div (2, 1), (0, 1)), false, shown)
    else
      let d := (k1.sub k0).div ((z 0).sub (z 1))
      ((k0.add (d.mul (z 0)), d), false, shown)
  | _, _, _ => (prev, true, shown)

/-- A zone's temperature in °C as binary32, and its flags byte (R236, R239, R241). -/
def zoneTemp (c : FtCfg) (fwd : FtMeans) (rev : Option FtMeans) (k : FRat × FRat) (z : Nat) : Nat × Nat :=
  let m := fwd.sets.getD z ((0, 1), (0, 1))
  let m' := (rev.map (fun r => r.sets.getD z ((0, 1), (0, 1)))).getD ((1, 1), (1, 1))
  let sBad := decide (m.1.1 ≤ 0 ∨ m'.1.1 ≤ 0)
  let aBad := decide (m.2.1 ≤ 0 ∨ m'.2.1 ≤ 0)
  let p := c.zones.getD z (0, 1)
  let near := c.refSets.any (fun q => decide (p.1 < q.1 + q.2 ∧ q.1 < p.1 + p.2))
  match lnRSet fwd rev z with
  | none => (nan32, b2n sBad + 2 * b2n aBad + 8 * b2n near)
  | some l =>
    let den := (l.add k.1).sub (if c.dbl then (0, 1) else k.2.mul (metres p.mid2))
    if den.1 ≤ 0 then (nan32, 4 + 8 * b2n near)
    else
      let t := ((val32D c.gamma).div den).sub (27315, 100)
      (toBin32 t.1 t.2, 8 * b2n near)

/-- S_frame (R240). -/
def FtCfg.frameBytes (c : FtCfg) : Nat :=
  64 + 4 * c.nZones + (if c.raw then 8 * (1 + b2n c.dbl) * c.nZones else 0) + (if c.qual then 8 * ceilDiv c.nZones 8 else 0)

/-- t(TRACE_FIRST + L - 1) of an emission plus half a point (R241). -/
def FtCfg.anchor (c : FtCfg) (te : Nat) : Nat := posTime te c.delay (c.first + c.len - 1) + 131072

/-- The frame of an accumulation (R240, R241, R244): its header, its body, its flags, its count of NaN zones, and what C,
Δα and the references were. -/
structure FtFrame where
  header : Bytes
  body : Bytes
  flags : Nat
  nans : Nat
  k : FRat × FRat
  refs : List (Option Nat)

/-- Forms a frame from the means of accumulation `r.k` and, in double-ended mode, the other direction's. -/
def State.ftFrame (s : State) (i : Nat) (r : FtRun) (m : FtMeans) (other : Option FtMeans) : FtFrame :=
  let c := r.cfg
  let rv := c.dbl && r.k % 2 = 1
  let fwd := if rv then other.getD m else m
  let rev := if c.dbl then (if rv then some m else other) else none
  let bad := m.bad || (match other with | some o => o.bad | none => false)
  let k := s.solve r fwd rev m.tLast
  let zs := (List.range c.nZones).map (zoneTemp c fwd rev k.1)
  let zs := if bad then zs.map (fun x => (nan32, x.2)) else zs
  let nans := countP (fun x => isNan32 x.1) zs
  let flags := b2n rv + 2 * b2n r.brk + 4 * b2n k.2.1 + 8 * b2n (decide (m.n < c.nAcc)) + 16 * b2n bad + 32 * b2n (decide (0 < nans))
  let b32 (x : FRat) : Bytes := leBytes 4 (toBin32 x.1 x.2)
  let refT (i : Nat) : Nat := (k.2.2.getD i none).getD nan32
  let mz (x : FtMeans) (z : Nat) : Bytes :=
    let y := x.sets.getD z ((0, 1), (0, 1))
    b32 y.1 ++ b32 y.2
  let rawB := if !c.raw then [] else ((List.range c.nZones).map (fun z =>
    mz fwd z ++ (match rev with | some x => mz x z | none => []))).flatten
  let q := if !c.qual then [] else zs.map (fun x => BitVec.ofNat 8 x.2) ++ zeros (8 * ceilDiv c.nZones 8 - c.nZones)
  let header := leBytes 8 (r.seq + 1) ++ leBytes 8 (m.tFirst % 2 ^ 64) ++ leBytes 8 (m.tLast % 2 ^ 64) ++ leBytes 4 c.nZones ++
    leBytes 4 m.n ++ b32 k.1.1 ++ (if c.dbl then zeros 4 else b32 k.1.2) ++ leBytes 8 (m.anchor % 2 ^ 64) ++ leBytes 2 flags ++
    leBytes 1 i ++ leBytes 1 r.sq ++ leBytes 2 r.tag ++ zeros 2 ++ leBytes 4 (refT 0) ++ leBytes 4 (refT 1)
  { header := header, body := (zs.map (fun x => leBytes 4 x.1)).flatten ++ rawB ++ q, flags := flags, nans := nans, k := k.1
    refs := [some (refT 0), some (refT 1)] }

/-! ### Traces and accumulations -/

/-- The code of the input sample at device time `t`, with its word's status. -/
def sampleIn (h : List FWord) (t : Nat) : Option (Int × Nat) :=
  (h.find? (fun w => decide (w.t ≤ t ∧ t < w.t + w.span))).map (fun w =>
    (w.codes.getD ((t - w.t) / max (w.span / 64) 1) 0, w.status))

/-- One point's exact sum of codes, and whether each word it touches carries status 00 (R232, R233). -/
def point (h : List FWord) (sp te delay p : Nat) : Int × Bool :=
  let a := posTime te delay p - 131072
  let t0 := roundUp a sp
  (List.range (262144 / sp)).foldl (fun (x : Int × Bool) j =>
    match sampleIn h (t0 + j * sp) with
    | some v => (x.1 + v.1, x.2 && v.2 = 0)
    | none => (x.1, false)) (0, true)

/-- A trace of `len` points (R232). -/
def trace (c : FtCfg) (h : List FWord) (sp te : Nat) : List Int × Bool :=
  let ps := (List.range c.len).map (fun i => point h sp te c.delay (c.first + i))
  (ps.map (·.1), ps.all (·.2))

/-- The sum of two areas, entry by entry. -/
def areaAdd (a b : List Int) : List Int := if a.isEmpty then b else (a.zip b).map (fun x => x.1 + x.2)

/-- Stops the play that run `r` owns on its instance's output, if it owns one (R231, R242). -/
def State.ftStop (s : State) (i : Nat) (r : FtRun) (cut : Bool) : State :=
  match (s.bcn i).play with
  | some p => if p.owner = r.jid then s.bcnStop i cut else s
  | none => s

/-- An emission joins the accumulation in progress, or the direction settle (R231, R234, R239). `next` is the instant at
which a change of direction after it is due. -/
def State.ftEmit (s : State) (i te next : Nat) : State :=
  match s.ft i with
  | none => s
  | some r =>
    let c := r.cfg
    if r.hold || (c.nRun ≠ 0 && decide (c.nRun ≤ r.kE)) then s else
    if 0 < r.settle then
      let s := s.setFt i (some { r with settle := r.settle - 1, last := some te, pending := r.pending ++ [(te, true)] })
      s.wr F.FTEMP_In_STAT_DIR_SETTLE (b2n (decide (1 < r.settle))) i
    else
      let r := { r with last := some te, pending := r.pending ++ [(te, false)], assigned := r.assigned + 1 }
      if r.assigned < c.nAcc then s.setFt i (some r) else
      let r := { r with kE := r.kE + 1, assigned := 0 }
      if c.nRun ≠ 0 ∧ c.nRun ≤ r.kE then (s.setFt i (some r)).ftStop i r false
      else if c.dbl then s.setFt i (some { r with settle := c.settle, dirDue := some next })
      else s.setFt i (some r)

/-- Whether the oldest awaited trace can be taken: both inputs' words reach its last point, and the accumulation that it joins
has an area (R232, R234). -/
def FtRun.ready (r : FtRun) : Bool :=
  match r.pending with
  | [] => false
  | (te, _) :: _ => decide (r.taken < r.cfg.nAcc) && wordsReach r.histE (r.cfg.anchor te - 1) &&
      wordsReach r.histO (r.cfg.anchor te - 1)

/-- The oldest awaited trace is complete (R232-R234): summed where it is clean, otherwise counted as skipped; inside a
direction settle neither. -/
def State.ftTrace (s : State) (i : Nat) (skip : Bool) : State :=
  match s.ft i with
  | none => s
  | some r =>
    match r.pending with
    | [] => s
    | (te, settle) :: rest =>
      let c := r.cfg
      if !r.ready then s else
      let r := { r with pending := rest }
      if settle then s.setFt i (some r) else
      let sp := s.spacing (2 * i)
      let a := trace c r.histE (max sp 1) te
      let b := trace c r.histO (max (s.spacing (2 * i + 1)) 1) te
      let r := { r with taken := r.taken + 1, tFirst := if r.taken = 0 then te else r.tFirst, tLast := te }
      if !skip && a.2 && b.2 then
        let r := { r with clean := r.clean + 1, areaS := areaAdd r.areaS a.1, areaA := areaAdd r.areaA b.1 }
        (s.setFt i (some r)).wr F.FTEMP_In_ACC_N_N r.clean i
      else ((s.setFt i (some r)).count F.FTEMP_In_SKIP_CNT_COUNT 1 i).setf F.FTEMP_In_STAT_SKIPPED i

/-- The run on instance `i` is over: its job ends with the last frame's elements (R242, R248). -/
def State.ftFinish (s : State) (i : Nat) (g : Job → Job) : State :=
  match s.ft i with
  | none => s
  | some r =>
    let s := s.setFt i none
    let s := ((s.wr F.FTEMP_In_STAT_RUNNING 0 i).wr F.FTEMP_In_STAT_DIR_SETTLE 0 i).wr F.FTEMP_In_STAT_CLK_HOLD 0 i
    let s := (s.wr F.FTEMP_In_STAT_DIR 0 i).wr F.FTEMP_In_ACC_N_N 0 i
    let s := if r.cfg.dbl then (s.setMarkers i s.boundary { s.bcn i with dir := none }).bcnStat i else s
    (s.updJob r.jid (fun j => { g j with autoEnd := true, anchor := some (j.anchor.getD s.phys) })).settle r.jid

/-- An ABORT, a supply warning or a thermal emergency (R242). -/
def State.ftCut (s : State) (i : Nat) (cut : Bool) (g : Job → Job) : State :=
  match s.ft i with
  | none => s
  | some r => (s.ftStop i r cut).ftFinish i g

/-- An SSYN lock loss at device time `t`: the accumulation in progress is discarded (R242). Accumulations whose last traces
end by then are still completed. -/
def State.ftLoss (s : State) (i t : Nat) : State :=
  match s.ft i with
  | none => s
  | some r =>
    let due := r.pending.filter (fun e => !e.2 && decide (r.cfg.anchor e.1 ≤ t))
    let n := (r.taken + due.length) / max r.cfg.nAcc 1
    let r : FtRun := { r with
      pending := due.take (n * r.cfg.nAcc - r.taken), kE := r.k + n, assigned := 0, settle := 0, dirDue := none, hold := true }
    let r : FtRun := if n = 0 then { r with taken := 0, clean := 0, areaS := [], areaA := [] } else r
    let s := s.setFt i (some r)
    let s := if r.cfg.dbl then s.setMarkers i s.boundary { s.bcn i with dir := some false } else s
    ((s.setf F.FTEMP_In_STAT_CLK_HOLD i).wr F.FTEMP_In_STAT_DIR_SETTLE 0 i).wr F.FTEMP_In_ACC_N_N r.clean i

/-- The end of the clock hold (R242): a new accumulation begins in the discarded one's direction, after a direction settle. -/
def State.ftHoldEnd (s : State) (i : Nat) : State :=
  match s.ft i with
  | none => s
  | some r =>
    if !r.hold then s else
    let s := s.wr F.FTEMP_In_STAT_CLK_HOLD 0 i
    if ((s.job? r.jid).map (·.autoResume)).getD false then
      let d := r.cfg.dbl && r.kE % 2 = 1
      let settle := if r.cfg.dbl then r.cfg.settle else 0
      let s := s.setFt i (some { r with hold := false, brk := true, settle := settle, dir := d })
      let s := if r.cfg.dbl then s.setMarkers i s.boundary { s.bcn i with dir := some d } else s
      let s := if r.cfg.nRun ≠ 0 ∧ r.cfg.nRun ≤ r.kE then s.ftStop i r false else s
      (s.wr F.FTEMP_In_STAT_DIR (b2n d) i).wr F.FTEMP_In_STAT_DIR_SETTLE (b2n (decide (0 < settle))) i
    else (s.ftStop i r false).ftFinish i (fun j => { j with fClock := true })

/-- A mark of a Lantern unit reaches the run that takes it as an emission (R231). -/
def State.ftMark (s : State) (u : Nat) (m : Mark) : State :=
  (List.range 2).foldl (fun s i =>
    match s.ft i with
    | none => s
    | some r =>
      let c := r.cfg
      let te := m.stamp
      if !c.lantern || c.unit ≠ u || r.hold || decide (te < c.start) then s
      else if decide (te < r.last.getD 0 + c.len * 262144) && r.last.isSome then s.count F.FTEMP_In_OVERLAP_CNT_COUNT 1 i
      else s.ftEmit i te (c.anchor te)) s

/-- A word of an analogue input reaches the temperature run that owns it (R230, R232). Words that no trace can touch are
not kept: the engine delays its inputs by 4 µs (R231). -/
def State.ftWord (s : State) (n : Nat) (w : PWord) : State :=
  let i := n / 2
  match s.ft i with
  | none => s
  | some r =>
    let x : FWord := { t := w.t, span := w.span, status := w.status, clip := false, codes := w.codes }
    let lo := (match r.pending with | e :: _ => e.1 | [] => w.t) - 5 * tickUs
    let keep (h : List FWord) : List FWord := h.filter (fun v => decide (lo ≤ v.t + v.span))
    s.setFt i (some (if n % 2 = 0 then { r with histE := keep r.histE ++ [x] } else { r with histO := keep r.histO ++ [x] }))

end Sys2Proof.Machine
end

