-- ==== Sys2Proof/Machine/Glimmer.lean ====
section
/-! DEFINITION. Machine/Glimmer.lean: the commands of the Glimmer engine ("Fibre vibration sensing: Beacon probes and the
Glimmer engine", R202-R228). -/
namespace Sys2Proof.Machine

/-- A tone entry of a run block (R225). -/
def gTone (d : Bytes) (t : Nat) : GTone :=
  let o := 64 + 32 * t
  let k := fieldAt d (o + 8) 4
  { freq := fieldAt d o 4, slot := fieldAt d (o + 4) 1, shift := fieldAt d (o + 5) 1
    coefs := (List.range (fieldAt d (o + 6) 2)).map (fun n =>
      (sgn 16 (fieldAt d (k + 4 * n) 2), sgn 16 (fieldAt d (k + 4 * n + 2) 2))) }

/-- A FIBRE_VIB_RUN's payload and run block (R224, R225), with its bank's program. -/
def gCfg (j : Job) (d : Bytes) (g : Option BProg) : GCfg :=
  { bank := j.bits 9 1 0 0, output := j.bits 10 1 0 0, format := j.bits 10 1 1 1, qual := j.bits 10 1 2 2 = 1
    posFirst := fieldAt d 0 4, posCount := fieldAt d 4 4, gauge := fieldAt d 8 2, zone := fieldAt d 10 1
    tones := (List.range (fieldAt d 11 1)).map (gTone d), delay := fieldAt d 12 4, track := fieldAt d 16 1
    hp := fieldAt d 17 1, decMean := fieldAt d 18 1, decFir := fieldAt d 19 1
    fir := (List.range (fieldAt d 20 2)).map (fun i => fieldAt d (fieldAt d 32 4 + 4 * i) 4), fadeMax := fieldAt d 22 2
    fadeLevel := fieldAt d 24 4, strain := fieldAt d 28 4, frameSamples := fieldAt d 36 2, frameSlots := fieldAt d 40 4
    frameAddr := fieldAt d 48 8, cyc := (g.map (·.cyc)).getD 64, nSlots := (g.map (·.slots.length)).getD 1 }

/-- Whether any two tones lie closer than 200 MHz (R203). -/
def tonesClose : List GTone → Bool
  | [] => false
  | t :: ts => ts.any (fun u => decide (max t.freq u.freq - min t.freq u.freq < 200000000)) || tonesClose ts

/-- Whether every byte of a block from `lo` up to `hi` that no listed range (its offset and length) covers is 0 (R225). -/
def gapsZero (d : Bytes) (lo hi : Nat) (rs : List (Nat × Nat)) : Bool :=
  ((List.range hi).zip d).all (fun x => decide (x.1 < lo) || x.2 == 0 || rs.any (fun r => decide (r.1 ≤ x.1 ∧ x.1 < r.1 + r.2)))

/-- The rules on the run block and its tones (R203, R205, R206, R225), for inputs at `rate` samples per second. -/
def glimBad (c : GCfg) (d : Bytes) (rate : Nat) : Bool :=
  let nt := fieldAt d 11 1
  let size := fieldAt d 56 4
  let toneBad (t : Nat) : Bool :=
    let k := c.tones[t]?.getD ⟨0, 0, 0, []⟩
    let off := fieldAt d (64 + 32 * t + 8) 4
    decide (k.freq < 125000000 ∨ rate / 2 - 125000000 < k.freq) || decide (15 < k.slot) || decide (31 < k.shift) ||
      decide (4096 < k.coefs.length) || off % 64 ≠ 0 || (k.coefs.isEmpty && off ≠ 0) ||
      decide (size < off + 4 * k.coefs.length) || !allZero ((d.drop (64 + 32 * t + 12)).take 20) ||
      decide (262144 < c.posFirst + c.traceLen k)
  decide (262143 < c.posFirst) || c.zone = 0 || decide (64 < c.zone) || c.posCount = 0 || c.posCount % max c.zone 1 ≠ 0 ||
    decide (c.gauge < 2 ∨ 512 < c.gauge) || nt = 0 || decide (16 < nt) || decide (1048575 < c.delay) ||
    decide (c.track < 4 ∨ 16 < c.track) || (c.hp ≠ 0 && decide (c.hp < 4 ∨ 24 < c.hp)) || c.decMean = 0 ||
    decide (64 < c.decMean) || c.decFir = 0 || decide (16 < c.decFir) || decide (128 < c.fir.length) ||
    (c.fir.isEmpty && c.decFir ≠ 1) || c.fadeMax = 0 || isNan32 c.fadeLevel || decide (2 ^ 31 < c.fadeLevel) ||
    fieldAt d 32 4 % 64 ≠ 0 || (c.fir.isEmpty && fieldAt d 32 4 ≠ 0) || decide (size < fieldAt d 32 4 + 4 * c.fir.length) ||
    c.frameSamples = 0 || decide (1024 < c.frameSamples) || decide (c.frameSlots < 2 ∨ 65536 < c.frameSlots) ||
    decide (size < 576 ∨ 1048576 < size) || !allZero ((d.drop 38).take 2) || !allZero ((d.drop 44).take 4) ||
    !allZero ((d.drop 60).take 4) ||
    !gapsZero d 576 size ((fieldAt d 32 4, 4 * c.fir.length) :: (List.range nt).map (fun t =>
      (fieldAt d (64 + 32 * t + 8) 4, 4 * (c.tones[t]?.getD ⟨0, 0, 0, []⟩).coefs.length))) || (List.range nt).any toneBad || tonesClose c.tones ||
    decide (16384 < sumL (c.tones.map (fun t => t.coefs.length)))

/-- The rules on the run and its bank (R203, R205, R226). -/
def glimBankBad (c : GCfg) (g : BProg) : Bool :=
  g.slots.length ≠ maxL (c.tones.map (·.slot)) + 1 ||
    (List.range g.slots.length).any (fun i => (g.slot i).offset * g.slots.length ≠ i * g.cyc || (c.slotTones i).isEmpty) ||
    g.cyc % max g.slots.length 1 ≠ 0 || c.tones.any (fun t => decide (g.cyc < 8 * c.traceLen t))

/-- Both inputs of a side as a fibre engine needs them (R202, R230). -/
def State.fibreInputs (s : State) (f : Nat) : Bool :=
  let a := 2 * f
  let rate := s.ract F.PRISM_CHn_CTRL_RATE a
  s.inputReady a && s.inputReady (a + 1) && !s.paired a && decide (4 ≤ rate ∧ rate ≤ 6) &&
    s.ract F.PRISM_CHn_CTRL_RATE (a + 1) = rate && s.flag F.PRISM_CHn_STAT_CAL_VALID a &&
    s.flag F.PRISM_CHn_STAT_CAL_VALID (a + 1)

/-- The samples per second of a side's inputs. -/
def State.fibreRate (s : State) (f : Nat) : Nat := tickS / max (s.spacing (2 * f)) 1

/-- R_w: both inputs' rate in PACK10, bytes per second (R227, R247). -/
def State.fibreRw (s : State) (f : Nat) : Q := ⟨16 * s.fibreRate f, 6⟩

/-- The side that a fibre run's data moves on, as the plan's part of side B. -/
def sideFrac (f : Nat) : Q := if f = 1 then ⟨1, 1⟩ else ⟨0, 1⟩

/-- The retention ring in bytes for a cycle of `cyc` SCLK cycles: max(2 T_cyc, 1 ms) × R_w (R223). -/
def retention (rw : Q) (cyc : Nat) : Q := rw.mul ⟨max (2 * cyc) 2000000, 2000000000⟩

/-- The demands of a FIBRE_VIB_RUN (R224-R227). -/
def State.vibPlan (s : State) (setup : Option Bytes) (j : Job) : Plan :=
  let f := j.bits 8 1 0 0
  let setup := blockRead (j.fld 16 8) 576 64 setup
  let d := setup.getD []
  let g := (s.bcn f).prog (j.bits 9 1 0 0)
  let c := gCfg j d g
  let sf := c.frameBytes
  let nt := c.tones.length
  let rps : Q := ⟨(c.posCount + c.gauge) * (16 * c.nSlots + 16 * nt) * 2000000000, c.cyc⟩
  let rzr : Q := ⟨c.nZones * c.nSlots * 2000000000, c.cyc⟩
  let fr : Q := ⟨c.nSlots * 2000000000, c.cyc * c.decMean * c.decFir * c.frameSamples⟩
  let rw := s.fibreRw f
  let hbm := unitsOf ((((rw.add (rps.mul (Q.of 2))).add (rzr.mul (Q.of 32))).add
    (c.zoneRate.mul (Q.of (4 * c.fir.length)))).add (fr.mul (Q.of (2 * sf))))
  let space := mibOf (((retention rw c.cyc).add (Q.of (2 * (c.posCount + c.gauge) * (16 * c.nSlots + 16 * nt) +
    c.nZones * (32 + 4 * c.fir.length) + 2 * sf))).ceil)
  let w : Q := ⟨200000 + c.maxLen, 1000⟩
  let rmin := unitsOf ((fr.mul (Q.of sf)).max ⟨sf * 1000000000, 1000000 - 200000 - 29920 - c.maxLen⟩)
  let mv := unitsOf (fr.mul (Q.of sf))
  let cycles := j.fld 32 4
  let power := (((Q.of 30).add ⟨5 * s.fibreRate f, 1000000000⟩).add ⟨35, 2⟩).add ((hbmPower hbm).add (moverPower mv))
  { malformed := j.kflags ≠ 0 || !payloadOnly j.desc [(8, 0, 0), (9, 0, 0), (10, 2, 0), (12, 31, 0), (16, 63, 0), (24, 63, 0),
      (32, 31, 0)] || (setup.isSome && (glimBad c d (s.fibreRate f) || (match g with | some g => glimBankBad c g | none => false)))
    badAddr := setup.isNone || rangeBad c.frameAddr (c.frameSlots * roundUp sf 4096) 4096
    stateOk := s.fibreInputs f && g.isSome && (s.zoneRate.add c.zoneRate).le (Q.of 2000000000)
    conflict := s.owned (2 * f) || s.owned (2 * f + 1) || s.claimed (.beacon f) || (s.bcn f).play.isSome
    d2h := some (j.fld 12 4)
    fracB := sideFrac f
    demand := fun _ _ => {
      claims := [.input (2 * f) .glimmer, .input (2 * f + 1) .glimmer, .beacon f]
      store0 := (bySide (2 * f) space).1, store1 := (bySide (2 * f) space).2
      hbm0 := (bySide (2 * f) hbm).1, hbm1 := (bySide (2 * f) hbm).2, power := power.ceil }
    movers := fun _ _ => [(f, mv, mv)]
    specials := fun rd _ => if rd < rmin then [(9, rmin - rd)] else []
    work := fun _ _ => w
    bytes := sf
    dur := fun _ _ => if cycles = 0 then none else some (2 * tickUs + cycles * c.cyc * cycle + tickMs) }

/-- FIBRE_VIB_RUN (R227): an admitted run owns its inputs and its Beacon output, and schedules its play. `setup` is the run
block as the host's memory answers, none where the read fails. -/
def execFibreVibRun (setup : Option Bytes) (s : State) : Host.Outcome State Fault Refusal :=
  live s fun s => s.admission 0x10 (s.vibPlan setup) (fun s j =>
    let f := j.bits 8 1 0 0
    let c := gCfg j (setup.getD []) ((s.bcn f).prog (j.bits 9 1 0 0))
    let cycles := j.fld 32 4
    let s := s.bcnPlay f j.jid c.bank (s.tStart (j.fld 24 8)) (if cycles = 0 then none else some cycles)
    let s := s.setGlim f (some (GRun.fresh { jid := j.jid, sq := j.sq, tag := j.tag, cfg := c }))
    let s := ((s.setf F.GLIMMER_Ff_STAT_RUNNING f).setf F.GLIMMER_Ff_STAT_SETTLING f).zoneRateReg
    (s.wr F.GLIMMER_Ff_JOB_SQ j.sq f).wr F.GLIMMER_Ff_JOB_TAG j.tag f)

/-- A tone's trace for the first emission that awaits it is complete, once both inputs' words reach its last sample. An
emission that touches a word with status 11 is discarded (R222). -/
def State.glimTrace (s : State) (f tone : Nat) (g : GTrace) : State :=
  match s.glim f with
  | none => s
  | some r =>
    match r.cfg.tones[tone]? with
    | none => s
    | some t =>
      match r.pending.find? (fun (e : GEmis) => e.slot = t.slot && !e.got.any (fun x => x.tone = tone)) with
      | none => s
      | some e =>
        let last := posTime e.te r.cfg.delay (r.cfg.posFirst + r.cfg.traceLen t - 1) + halfSpan
        if !wordsReach r.histE last || !wordsReach r.histO last then s else
        let s := if r.hit11 e then s.glimSkip f (fun x => x.te = e.te) else
          s.setGlim f (some { r with
            pending := r.pending.map (fun (x : GEmis) => if x.te = e.te then { x with got := x.got ++ [g] } else x) })
        let s := (s.glimRun f r.pending.length).glimHoldFrame f
        match s.glim f with
        | some q => if q.pending.isEmpty && s.playOver f && !q.hold then s.glimFinish f true else s
        | none => s

/-- A trace part as the channeliser gives it: saturated at ±32,767 (R204). -/
def chanPart (x : Int × Int) : Int × Int := (clampI (-32767) 32767 x.1, clampI (-32767) 32767 x.2)

/-- GLIMMER_TRACE (R204-R215): a tone's trace from both inputs, by position from POS_FIRST; `late` says that it could not be
processed in time (R222), and `stateErr` names positions whose state area failed its CRC-16 (R223). -/
def execGlimmerTrace (f : Fin 2) (tone : Fin 16) (even odd : List (Int × Int)) (late : Bool) (stateErr : List Nat)
    (s : State) : Host.Outcome State Fault Refusal :=
  live s fun s => s.glimTrace f tone
    { tone := tone, even := even.map chanPart, odd := odd.map chanPart, late := late, damaged := false, stateErr := stateErr }

/-- GLIMMER_RECOMPUTE (R223): a trace spoiled by a path error is recomputed from the retention ring; `damaged` says that the
retained words were damaged, so that its position-samples are treated as faded. -/
def execGlimmerRecompute (f : Fin 2) (tone : Fin 16) (even odd : List (Int × Int)) (damaged : Bool) (s : State) :
    Host.Outcome State Fault Refusal :=
  live s fun s =>
    match s.glim f with
    | none => s
    | some _ =>
      let s := (s.count F.GLIMMER_Ff_RECOMP_CNT_COUNT 1 f).setf F.GLIMMER_Ff_STAT_RECOMPUTED f
      let s := if damaged then s.setf F.GLIMMER_Ff_STAT_INTEGRITY f else s
      s.glimTrace f tone
        { tone := tone, even := even.map chanPart, odd := odd.map chanPart, late := false, damaged := damaged, stateErr := [] }

/-- The job's part in a frame that is written (R228). -/
def State.glimNote (s : State) (jid : Nat) (x : GFrame) : State :=
  s.updJob jid (fun j => { j with
    detail := min (j.detail % 2 ^ 24 + 1) (2 ^ 24 - 1) + ((j.detail / 2 ^ 24) ||| (b2n (bit x.flags 0) + 2 * b2n (bit x.flags 6) +
      4 * b2n (bit x.flags 5) + 8 * b2n (bit x.flags 2) + 16 * b2n (bit x.flags 1))) * 2 ^ 24
    fFlagged := j.fFlagged || bit x.flags 0 || bit x.flags 6
    fIntegrity := j.fIntegrity || bit x.flags 2 })

/-- GLIMMER_FRAME_WRITE (R216, R218): the oldest complete frame goes to its slot of the host ring: data and quality block,
then header bytes 8-63, then bytes 0-7. -/
def execGlimmerFrameWrite (f : Fin 2) (s : State) : Host.Outcome State Fault Refusal :=
  live s fun s =>
    match s.glim f with
    | none => s
    | some r =>
      match r.frames with
      | [] => s
      | x :: rest =>
        let slot := r.cfg.frameAddr + (x.seq - 1) % max r.cfg.frameSlots 1 * roundUp r.cfg.frameBytes 4096
        let s := (s.setGlim f (some { r with frames := rest })).glimNote r.jid x
        let s := { s with fibre := { s.fibre with
          anchors := kset s.fibre.anchors f (kget s.fibre.anchors f [] ++ [x.anchor]) [] } }
        let s := s.queueElems r.jid (s.chanOn r.jid f) (outElems (slot + 64) x.body ++ [.frame slot x.header f])
        s.glimSettle f

/-- The SEQ write of a fibre frame is issued: the frame is counted, with its anchor and the interval since it (R221, R241).
`k` is the fibre, or 2 plus the instance. -/
def State.fibreFrameDone (s : State) (k : Nat) : State :=
  match kget s.fibre.anchors k [] with
  | [] => s
  | a :: rest =>
    let s := { s with fibre := { s.fibre with anchors := kset s.fibre.anchors k rest [] } }
    let lat := ceilDiv (s.devTime - a) 6553600
    if k < 2 then
      let s := s.count F.GLIMMER_Ff_FRAME_CNT_COUNT 1 k
      (s.wr64 F.GLIMMER_Ff_ANCHOR_LO_STAMP F.GLIMMER_Ff_ANCHOR_HI_STAMP (a % 2 ^ 64) k).maxTo F.GLIMMER_Ff_LAT_MAX_LAT lat k
    else
      let s := s.count F.FTEMP_In_FRAME_CNT_COUNT 1 (k - 2)
      (s.wr64 F.FTEMP_In_ANCHOR_LO_STAMP F.FTEMP_In_ANCHOR_HI_STAMP (a % 2 ^ 64) (k - 2)).maxTo F.FTEMP_In_LAT_MAX_LAT lat (k - 2)

end Sys2Proof.Machine
end

