-- ==== Sys2Proof/Machine/FTemp.lean ====
section
/-! DEFINITION. Machine/FTemp.lean: the commands of the fibre temperature engine ("Fibre temperature sensing",
R230-R248). -/
namespace Sys2Proof.Machine

/-- A FIBRE_TEMP_RUN's payload and run block (R245, R246). -/
def ftCfg (j : Job) (d : Bytes) : FtCfg :=
  { dbl := j.bits 8 1 1 1 = 1, lantern := j.bits 8 1 2 2 = 1, unit := j.bits 9 1 2 0, bank := j.bits 9 1 4 4
    raw := j.bits 10 1 0 0 = 1, qual := j.bits 10 1 1 1 = 1, nAcc := j.fld 32 4, nRun := j.fld 36 4
    first := fieldAt d 0 4, len := fieldAt d 4 4, zoneFirst := fieldAt d 8 4, nZones := fieldAt d 12 4
    zone := fieldAt d 16 2, refMode := fieldAt d 18 1, delay := fieldAt d 20 4, bgFirst := fieldAt d 24 4
    bgCount := fieldAt d 28 4, gamma := fieldAt d 32 4, c := fieldAt d 36 4, dalpha := fieldAt d 40 4
    loopEnd := fieldAt d 44 4, frameAddr := fieldAt d 48 8, frameSlots := fieldAt d 56 4, settle := fieldAt d 60 2
    refs := [(d.drop 64).take 16, (d.drop 80).take 16] }

/-- Whether a run of positions lies within the trace and outside the background (R246). -/
def FtCfg.within (c : FtCfg) (p : PosSet) : Bool :=
  decide (c.first ≤ p.1 ∧ p.1 + p.2 ≤ c.first + c.len) &&
    decide (p.1 + p.2 ≤ c.bgFirst ∨ c.bgFirst + c.bgCount ≤ p.1)

/-- Whether a run of positions, mapped through the loop, lies within the trace (R239, R246). -/
def FtCfg.mapped (c : FtCfg) (p : PosSet) : Bool :=
  decide (c.first + (p.1 + p.2 - 1) ≤ c.loopEnd ∧ c.loopEnd < c.first + c.len + p.1)

/-- The rules on the payload and the run block (R245, R246). -/
def ftBad (c : FtCfg) (d : Bytes) : Bool :=
  let zones : PosSet := (c.zoneFirst, c.nZones * c.zone)
  let refs := c.refSets
  let refBad (i : Nat) : Bool :=
    let e := c.refs.getD i []
    fieldAt e 4 2 = 0 || decide (1 < fieldAt e 6 1) || decide (15 < fieldAt e 7 1) || fieldAt e 12 2 = 0 ||
      !allZero ((e.drop 14).take 2) || !c.within (refs.getD i (0, 0))
  let apart (i j : Nat) : Nat :=
    let a := (refs.getD i (0, 1)).mid2
    let b := (refs.getD j (0, 1)).mid2
    (max a b - min a b) * 40838
  c.nAcc = 0 || decide (16777216 < c.nAcc) || (c.dbl && c.nRun ≠ 0 && c.nRun % 2 = 0) || (!c.lantern && c.unit ≠ 0) ||
    (c.lantern && c.bank ≠ 0) || decide (c.len < 64 ∨ 1048576 < c.first + c.len) || c.nZones = 0 ||
    decide (65536 < c.nZones) || c.zone = 0 || decide (256 < c.zone) || !c.within zones || decide (2 < c.refMode) ||
    decide (1048575 < c.delay) || decide (c.bgFirst < c.first ∨ c.first + c.len < c.bgFirst + c.bgCount) ||
    decide (c.bgCount < 16 ∨ 65536 < c.bgCount) ||
    (match val32 c.gamma with | some g => decide (g.1 ≤ 0) | none => true) || (c.dbl && c.dalpha ≠ 0) ||
    decide (c.frameSlots < 2 ∨ 65536 < c.frameSlots) || (!c.dbl && c.settle ≠ 0) || (List.range c.refMode).any refBad ||
    (c.dbl && (!c.mapped zones || refs.any (fun p => !c.mapped p))) ||
    (c.refMode = 2 && !c.dbl && decide (apart 0 1 < 20000000)) || fieldAt d 19 1 ≠ 0 || !allZero ((d.drop 62).take 2)

/-- The demands of a FIBRE_TEMP_RUN (R245-R247). -/
def State.ftPlan (s : State) (setup : Option Bytes) (j : Job) : Plan :=
  let i := j.bits 8 1 0 0
  let setup := blockRead (j.fld 16 8) 128 64 setup
  let d := setup.getD []
  let c := ftCfg j d
  let g := (s.bcn i).prog c.bank
  let cyc := if c.lantern then 8 * c.len else (g.map (·.cyc)).getD 64
  let sf := c.frameBytes
  let w : Q := ⟨40000 + c.len + 2 * c.nZones, 1000⟩
  let tacc : Q := if c.lantern then ⟨w.num, w.den * 1000000⟩ else ⟨(c.nAcc + c.settle) * cyc, 2000000000⟩
  let rw := s.fibreRw i
  let hbm := unitsOf ((rw.add ⟨32 * c.len * 2000000000, cyc⟩).add ⟨32 * c.len * tacc.den, max tacc.num 1⟩)
  let space := mibOf (((retention rw cyc).add
    (Q.of (32 * c.len + 32 * c.nZones * (1 + b2n c.dbl) + 2 * sf))).ceil)
  let rmin := if c.lantern then 0 else unitsOf ⟨sf * tacc.den, max tacc.num 1⟩
  let own := !c.lantern || c.dbl
  let power (rd : Nat) := (((Q.of 20).add (if own then ⟨35, 2⟩ else ⟨0, 1⟩)).add (hbmPower hbm)).add (moverPower rd)
  { malformed := j.kflags ≠ 0 || !payloadOnly j.desc [(8, 2, 0), (9, 2, 0), (9, 4, 4), (10, 1, 0), (12, 31, 0), (16, 63, 0),
      (24, 63, 0), (32, 31, 0), (36, 31, 0)] ||
      (setup.isSome && (ftBad c d || (!c.lantern && g.isSome && decide (cyc < 8 * c.len))))
    badAddr := setup.isNone || rangeBad c.frameAddr (c.frameSlots * roundUp sf 4096) 4096
    stateOk := s.fibreInputs i && (c.lantern || ((match g with | some p => p.slots.length = 1 | none => false) &&
      w.le ⟨tacc.num * 1000000, tacc.den⟩))
    conflict := s.owned (2 * i) || s.owned (2 * i + 1) || (own && (s.claimed (.beacon i) || (s.bcn i).play.isSome))
    d2h := some (j.fld 12 4)
    fracB := sideFrac i
    demand := fun rd _ => {
      claims := [.input (2 * i) .ftemp, .input (2 * i + 1) .ftemp] ++ (if own then [.beacon i] else [])
      store0 := (bySide (2 * i) space).1, store1 := (bySide (2 * i) space).2
      hbm0 := (bySide (2 * i) hbm).1, hbm1 := (bySide (2 * i) hbm).2, power := (power rd).ceil }
    movers := fun rd _ => [(i, rd, rd)]
    specials := fun rd _ => if rd < rmin then [(9, rmin - rd)] else []
    work := fun _ _ => w
    bytes := sf
    dur := fun _ _ => if c.lantern || c.nRun = 0 then none
      else some (2 * tickUs + c.nRun * (c.nAcc + c.settle) * cyc * cycle + tickMs) }

/-- FIBRE_TEMP_RUN (R247): an admitted run owns its inputs and, unless it is single-ended from Lantern, its Beacon output.
`setup` is the run block as the host's memory answers, none where the read fails. -/
def execFibreTempRun (setup : Option Bytes) (s : State) : Host.Outcome State Fault Refusal :=
  live s fun s => s.admission 0x11 (s.ftPlan setup) (fun s j =>
    let i := j.bits 8 1 0 0
    let t := s.tStart (j.fld 24 8)
    let c : FtCfg := { ftCfg j (setup.getD []) with start := t }
    let s := s.setFt i (some { jid := j.jid, sq := j.sq, tag := j.tag, cfg := c })
    let s := if c.lantern then s else s.bcnPlay i j.jid c.bank t none
    let s := if c.dbl then (s.setBcn i { s.bcn i with dir := some false }).bcnStat i else s
    let s := (s.setf F.FTEMP_In_STAT_RUNNING i).wr F.FTEMP_In_STAT_DIR 0 i
    (s.wr F.FTEMP_In_JOB_SQ j.sq i).wr F.FTEMP_In_JOB_TAG j.tag i)

/-- FTEMP_TRACE (R233): the oldest awaited trace is complete on both inputs; `late` says that it could not be summed in
time (R242). -/
def execFtempTrace (i : Fin 2) (late : Bool) (s : State) : Host.Outcome State Fault Refusal :=
  live s fun s => s.ftTrace i late

/-- FTEMP_RECOMPUTE (R243): a trace spoiled by a parity error is recomputed and summed; with damaged retained words it is
skipped. -/
def execFtempRecompute (i : Fin 2) (damaged : Bool) (s : State) : Host.Outcome State Fault Refusal :=
  live s fun s =>
    match s.ft i with
    | none => s
    | some r =>
      if !r.ready then s
      else if damaged then s.ftTrace i true
      else ((s.count F.FTEMP_In_RECOMP_CNT_COUNT 1 i).setf F.FTEMP_In_STAT_RECOMPUTED i).ftTrace i false

/-- The job's part in a frame (R248). -/
def State.ftNote (s : State) (jid flags : Nat) : State :=
  s.updJob jid (fun j => { j with
    detail := min (j.detail % 2 ^ 24 + 1) (2 ^ 24 - 1) + ((j.detail / 2 ^ 24) ||| (b2n (bit flags 1) + 2 * b2n (bit flags 3) +
      4 * b2n (bit flags 2) + 8 * b2n (bit flags 4))) * 2 ^ 24
    fFlagged := j.fFlagged || bit flags 1 || bit flags 3 || bit flags 2
    fIntegrity := j.fIntegrity || bit flags 4 })

/-- Writes a frame (R240, R241) and shows what it used (R249). -/
def State.ftWrite (s : State) (i : Nat) (r : FtRun) (m : FtMeans) (other : Option FtMeans) : State :=
  let x := s.ftFrame i r m other
  let slot := r.cfg.frameAddr + r.seq % max r.cfg.frameSlots 1 * roundUp r.cfg.frameBytes 4096
  let s := s.setFt i (some { r with seq := r.seq + 1, brk := false, cNow := some x.k })
  let s := s.ftNote r.jid x.flags
  let s := if x.nans = 0 then s else (s.count F.FTEMP_In_INVALID_CNT_COUNT x.nans i).setf F.FTEMP_In_STAT_INVALID i
  let s := if bit x.flags 2 then (s.count F.FTEMP_In_REF_STALE_CNT_COUNT 1 i).setf F.FTEMP_In_STAT_REF_STALE i else s
  let s := if bit x.flags 4 then s.setf F.FTEMP_In_STAT_INTEGRITY i else s
  let s := (s.wr F.FTEMP_In_C_NOW_C (toBin32 x.k.1.1 x.k.1.2) i).wr F.FTEMP_In_DALPHA_NOW_DALPHA
    (if r.cfg.dbl then 0 else toBin32 x.k.2.1 x.k.2.2) i
  let s := (s.wr F.FTEMP_In_REF0_T_T ((x.refs.getD 0 none).getD nan32) i).wr F.FTEMP_In_REF1_T_T ((x.refs.getD 1 none).getD nan32) i
  let s := { s with fibre := { s.fibre with
    anchors := kset s.fibre.anchors (2 + i) (kget s.fibre.anchors (2 + i) [] ++ [m.anchor]) [] } }
  let s := s.updJob r.jid (fun j => { j with anchor := if r.cfg.nRun ≠ 0 ∧ r.cfg.nRun ≤ r.k + 1 then some (s.physOf m.anchor) else j.anchor })
  s.queueElems r.jid (s.chanOn r.jid i) (outElems (slot + 64) x.body ++ [.frame slot x.header i])

/-- FTEMP_ACCUMULATION_END (R234, R235): every emission of the accumulation has been taken; its areas are reduced and, but
for a double-ended run's first, a frame is written. `bad` and `badKept` say that a sum area, or the means kept from the
other direction, failed their CRC-16 (R244). -/
def execFtempAccumulationEnd (i : Fin 2) (bad badKept : Bool) (s : State) : Host.Outcome State Fault Refusal :=
  live s fun s =>
    match s.ft i with
    | none => s
    | some r =>
      let c := r.cfg
      if r.taken < c.nAcc then s else
      let sp := max (s.spacing (2 * i)) 1
      let nm := r.clean * (262144 / sp)
      let rv := c.dbl && r.k % 2 = 1
      let m : FtMeans :=
        { n := r.clean, sets := c.sets.map (fun p => (setMean c rv r.areaS nm p, setMean c rv r.areaA nm p))
          tFirst := r.tFirst, tLast := r.tLast, anchor := c.anchor r.tLast, bad := bad }
      let other := if !c.dbl then none else (if rv then r.fwd else r.rev).map (fun (o : FtMeans) => { o with bad := o.bad || badKept })
      let s := if c.dbl && other.isNone then s.setFt i (some r) else s.ftWrite i r m other
      match s.ft i with
      | none => s
      | some q =>
        let q : FtRun := { q with
          k := q.k + 1, taken := 0, clean := 0, areaS := [], areaA := []
          fwd := if c.dbl && !rv then some m else q.fwd, rev := if c.dbl && rv then some m else q.rev }
        let s := (s.setFt i (some q)).wr F.FTEMP_In_ACC_N_N 0 i
        if c.nRun ≠ 0 ∧ c.nRun ≤ q.k then (s.ftStop i q false).ftFinish i id else s

/-- DIRECTION_CHANGE (R239): the direction line changes after an accumulation's last emission, and a direction settle
begins. -/
def execDirectionChange (i : Fin 2) (s : State) : Host.Outcome State Fault Refusal :=
  live s fun s =>
    match s.ft i with
    | none => s
    | some r =>
      match r.dirDue with
      | none => s
      | some t =>
        let s := s.toDev t
        let s := s.setFt i (some { r with dirDue := none, dir := !r.dir })
        let s := s.setMarkers i t { s.bcn i with dir := some (!r.dir) }
        (s.wr F.FTEMP_In_STAT_DIR (b2n (!r.dir)) i).wr F.FTEMP_In_STAT_DIR_SETTLE (b2n (decide (0 < r.settle))) i

end Sys2Proof.Machine
end

