-- ==== Sys2Proof/Machine/Beacon.lean ====
section
/-! DEFINITION. Machine/Beacon.lean: the commands of the Beacon outputs ("Fibre vibration sensing: Beacon probes and the
Glimmer engine", R192-R201). -/
namespace Sys2Proof.Machine

/-! ### BEACON_LOAD -/

/-- The demands of a BEACON_LOAD (R199-R201). -/
def State.beaconPlan (s : State) (j : Job) : Plan :=
  let b := j.bits 8 1 0 0
  let bank := j.bits 8 1 1 1
  let prog := j.bits 8 1 2 2 = 1
  let wave := j.bits 8 1 3 3 = 1
  let first := j.fld 24 4
  let n := j.fld 28 4
  let other := s.host.jobs.any (fun x => x.admitted && x.kind = 0x12 && x.jid ≠ j.jid && x.bits 8 1 0 0 = b)
  { malformed := j.kflags ≠ 0 || !payloadOnly j.desc [(8, 3, 0), (12, 31, 0), (16, 63, 0), (24, 31, 0), (28, 31, 0), (32, 63, 0)] ||
      (!prog && !wave) || (!prog && j.fld 16 8 ≠ 0) || (!wave && (n ≠ 0 || j.fld 32 8 ≠ 0)) || first % 32 ≠ 0 ||
      (wave && (n % 32 ≠ 0 || decide (n < 32 ∨ 4194304 < n ∨ 4194304 < first + n)))
    badAddr := (prog && rangeBad (j.fld 16 8) 576 64) || (wave && rangeBad (j.fld 32 8) (2 * n) 64)
    conflict := other || (prog && s.bankUsed b bank) || (wave && s.waveUsed b first (first + n))
    h2d := some (j.fld 12 4)
    fracB := sideFrac b
    demand := fun _ rh => { power := (moverPower rh).ceil }
    movers := fun _ rh => [(b, rh, rh)]
    work := fun _ _ => ⟨4, 1⟩
    bytes := (if prog then 576 else 0) + 2 * n
    toHost := false
    dur := fun _ _ => some (4 * tickUs) }

/-- BEACON_LOAD (R201): the program block is read first, then the waveform. -/
def execBeaconLoad (s : State) : Host.Outcome State Fault Refusal :=
  live s fun s => s.admission 0x12 s.beaconPlan (fun s j =>
    let b := j.bits 8 1 0 0
    let prog := j.bits 8 1 2 2 = 1
    let n := j.fld 28 4
    let l : BLoad := { jid := j.jid, out := b, bank := j.bits 8 1 1 1, checked := !prog, prog := none, first := j.fld 24 4, count := n }
    let s := { s with fibre := { s.fibre with loads := s.fibre.loads ++ [l] } }
    let s := s.updJob j.jid (fun j => { j with anchor := some j.pickup })
    let es := (if prog then inElems (j.fld 16 8) 576 else []) ++ inElems (j.fld 32 8) (2 * n)
    s.queueElems j.jid (s.chanOn j.jid b) es)

/-- Drops a BEACON_LOAD's progress (R201). -/
def State.dropLoad (s : State) (jid : Nat) : State :=
  { s with fibre := { s.fibre with loads := s.fibre.loads.filter (fun (l : BLoad) => l.jid ≠ jid) } }

/-- Replaces a BEACON_LOAD's progress. -/
def State.setLoad (s : State) (l : BLoad) : State :=
  { s with fibre := { s.fibre with loads := s.fibre.loads.map (fun (x : BLoad) => if x.jid = l.jid then l else x) } }

/-- The 16-bit samples of a run of bytes (R193). -/
def samplesOf (d : Bytes) : List (Option (BitVec 16)) :=
  (List.range (d.length / 2)).map (fun i => some (BitVec.ofNat 16 (fieldAt d (2 * i) 2)))

/-- Bytes of a BEACON_LOAD have come from host memory (R201): the program block is checked, waveform samples are written as
they come, and with the last the program is installed and the job's work is done. -/
def State.beaconIn (s : State) (jid : Nat) (d : Bytes) : State :=
  match s.fibre.loads.find? (fun (l : BLoad) => l.jid = jid) with
  | none => s
  | some l =>
    let finish (s : State) (l : BLoad) : State :=
      if l.done < l.count then s else
      let s := match l.prog with
        | some p => (s.setBcn l.out ((s.bcn l.out).setProg l.bank p)).bcnStat l.out
        | none => s
      (s.dropLoad jid).endJob jid (fun j => { j with detail := b2n l.prog.isSome + 2 * b2n (decide (0 < l.count)) })
    if !l.checked then
      let r := parseProg d
      if r.2 = 0 then
        let l := { l with checked := true, prog := some r.1 }
        finish (s.setLoad l) l
      else (s.dropLoad jid).endJob jid (fun j => { j with special := some stDescriptor, detail := r.2 * 256 })
    else
      let xs := samplesOf d
      let s := s.setBcn l.out { s.bcn l.out with wave := kwrite none (s.bcn l.out).wave (l.first + l.done) xs }
      let l := { l with done := l.done + xs.length }
      finish (s.setLoad l) l

/-! ### Standalone play -/

/-- The registers of output `b` that a commit covers (R198). -/
def bcnLo (b : Nat) : Nat := 0x1002000 + 0x100 * b
def bcnHi (b : Nat) : Nat := 0x1002018 + 0x100 * b

/-- The standing floor with output `b`'s standalone PLAY at `v` (R198, R457). -/
def State.floorPlay (s : State) (b v : Nat) : Nat :=
  floorPower (s.cfgOf 0) (s.cfgOf 1) (s.cfgOf 2) (s.cfgOf 3) (v + s.ract F.BEACON_Bb_CTRL_PLAY (1 - b))

/-- BEACON_COMMIT (R198): a write of `v` to BEACON_Bb_COMMIT. -/
def State.beaconCommitWrite (s : State) (b : Fin 2) (v : Word) : State :=
  if !bit v.toNat 0 || s.shadow (bcnLo b) (bcnHi b) == s.active (bcnLo b) (bcnHi b) then s else
  let x := s.bcn b
  let play := s.rd F.BEACON_Bb_CTRL_PLAY b
  let bank := s.rd F.BEACON_Bb_CTRL_BANK b
  let was := s.ract F.BEACON_Bb_CTRL_PLAY b
  let old := s.ract F.BEACON_Bb_CTRL_MK_INV b
  let inv := s.rd F.BEACON_Bb_CTRL_MK_INV b ≠ old
  let start := play = 1 && was = 0
  let stop := play = 0 && was = 1
  let change := play = 1 && was = 1 && bank ≠ s.ract F.BEACON_Bb_CTRL_BANK b
  let owned := s.claimed (.beacon b) && (start || stop || change || inv)
  let invalid := (start || change) && (x.prog bank).isNone
  let power := start && decide (2150 < s.floorPlay b 1 + s.jobPower)
  if owned || invalid || power then
    let s := if owned then s.setf F.BEACON_Bb_COMMIT_STAT_REJ_OWNED b else s
    let s := if invalid then s.setf F.BEACON_Bb_COMMIT_STAT_REJ_INVALID b else s
    if power then s.setf F.BEACON_Bb_COMMIT_STAT_REJ_POWER b else s
  else
    let s := s.applyShadow (bcnLo b) (bcnHi b) (s.shadow (bcnLo b) (bcnHi b))
    let s := (List.range 2).foldl (fun s m => if bit old m = bit (s.ract F.BEACON_Bb_CTRL_MK_INV b) m then s else
      s.emit (.marker (2 * b + m) (s.mkLevel b m != bit (s.ract F.BEACON_Bb_CTRL_MK_INV b) m) (s.boundary % 2 ^ 64))) s
    if start then
      (s.bcnPlay b 0 bank (s.tStart (s.ract64 F.BEACON_Bb_START_LO_T F.BEACON_Bb_START_HI_T b)) none).setf
        F.BEACON_Bb_COMMIT_STAT_PENDING b
    else if stop then
      let s := s.bcnStop b false
      s.wr F.BEACON_Bb_COMMIT_STAT_PENDING (b2n (s.bcn b).play.isSome) b
    else if change then
      match x.play with
      | none => s
      | some p =>
        let floor := s.boundaryAfter tickUs
        match x.after with
        | some q => s.setBcn b { x with after := some { q with bank := bank, floor := max q.floor floor } }
        | none =>
        if !p.started && decide (s.devTime < p.t0) then
          s.setBcn b { x with play := some { p with bank := bank, floor := max p.floor floor } } else
        let len := max (((x.prog p.bank).map (·.cyc)).getD 1) 1 * cycle
        let at' := p.t0 + ((s.devTime - p.t0) / len + 1) * len
        (s.setBcn b { x with play := some { p with next := some (bank, at', floor) } }).setf
          F.BEACON_Bb_COMMIT_STAT_PENDING b
    else s

/-- BEACON_COMMIT (R198). -/
def execBeaconCommit (b : Fin 2) (v : Word) (s : State) : Host.Outcome State Fault Refusal := live s fun s => s.beaconCommitWrite b v

/-- BEACON_PLAY_START (R196): T_start is reached, or the first cycle boundary after a clock hold that spanned it (R222). -/
def execBeaconPlayStart (b : Fin 2) (s : State) : Host.Outcome State Fault Refusal :=
  live s fun s =>
    match (s.bcn b).play with
    | none => s
    | some p =>
      if p.started || p.held || p.stopAt.isSome then s else
      let s := s.toDev (p.t0 + p.c * (((s.bcn b).prog p.bank).map (·.cyc)).getD 0 * cycle)
      let s := (s.setBcn b { s.bcn b with play := some { p with started := true } }).bcnStat b
      let s := s.wr64 F.BEACON_Bb_TSTART_LO_T F.BEACON_Bb_TSTART_HI_T (p.t0 % 2 ^ 64) b
      if p.owner = 0 then s.wr F.BEACON_Bb_COMMIT_STAT_PENDING 0 b else s

/-- What an emission means to the fibre run that owns output `b` (R204, R231): a Glimmer emission whose traces are awaited,
or a temperature emission. `next` is the start of the next cycle. -/
def State.ownerEmit (s : State) (b owner c slot te next : Nat) : State :=
  if owner = 0 then s else
  match s.glim b with
  | some r =>
    if r.jid = owner then s.setGlim b (some { r with pending := r.pending ++ [{ c := c, slot := slot, te := te }] }) else s
  | none =>
    match s.ft b with
    | some r => if r.jid = owner then s.ftEmit b te next else s
    | none => s

/-- PROBE_EMISSION (R196): the next probe of output `b`'s play begins. -/
def execProbeEmission (b : Fin 2) (s : State) : Host.Outcome State Fault Refusal :=
  live s fun s =>
    match (s.bcn b).play with
    | none => s
    | some p =>
      match (s.bcn b).prog p.bank with
      | none => s
      | some g =>
        let te := g.te p.t0 p.c p.slot
        let switched := match p.next with | some x => decide (x.2.1 ≤ te) | none => false
        if !p.started || p.held || p.stopAt.isSome || switched || (p.left = some 0 && p.slot = 0) then s else
        let s := s.toDev te
        let left := if p.slot = 0 then p.left.map (· - 1) else p.left
        let last := p.slot + 1 = g.slots.length
        let fin := te + (g.slot p.slot).len * 8192
        let q : Play := { p with
          slot := if last then 0 else p.slot + 1, c := if last then p.c + 1 else p.c, left := left, probeEnd := fin
          stopAt := if last && left = some 0 then some fin else none }
        let wins := if q.stopAt.isNone then (s.bcn b).wins else
          (s.bcn b).wins.map (fun (w : MkWin) => { w with fall := min w.fall fin })
        let s := s.setBcn b { s.bcn b with play := some q, wins := wins }
        let s := (s.count F.BEACON_Bb_EMIT_CNT_COUNT 1 b).emit (.probe b p.slot (te % 2 ^ 64))
        s.ownerEmit b p.owner p.c p.slot te (p.t0 + (p.c + 1) * g.cyc * cycle)

/-- The marker window that slot `slot` of cycle `c` opens for marker `m` under play `p` and program `g`, with the instant of
its rise (R197): none where the play does not emit that probe, where the slot does not drive the marker, or where the marker
floor lies at or after the fall. A play that stops cuts the window at the end of its last probe (R198). -/
def Play.window (p : Play) (g : BProg) (m c slot : Nat) : Option (Nat × MkWin) :=
  let k := g.slot slot
  let te := g.te p.t0 c slot
  let t := max (te - k.lead * cycle) p.floor
  let fall := te + k.len * 8192 + k.lag * cycle
  let fall := match p.stopAt with | some x => min fall x | none => fall
  let switched := match p.next with | some y => decide (y.2.1 ≤ te) | none => false
  let stopped := match p.stopAt with | some x => decide (x ≤ te) | none => false
  let ended := match p.left with | some n => decide (p.c + n + b2n (p.slot ≠ 0) ≤ c) | none => false
  if p.held || stopped || switched || ended || decide (g.slots.length ≤ slot) ||
      !bit k.mkr m || decide (fall ≤ t) then none
  else some (t, { mkr := m, c := c, slot := slot, fall := fall })

/-- The plays under which a marker of an output may rise: the play, the bank change that waits, and the play that follows
(R197, R198). -/
def BeaconSt.schedule (x : BeaconSt) : List (Play × BProg) :=
  let at' (p : Play) : List (Play × BProg) := match x.prog p.bank with | some g => [(p, g)] | none => []
  let now := match x.play with
    | none => []
    | some p => at' p ++ (match p.next with
      | some n => at' { p with bank := n.1, t0 := n.2.1, c := 0, slot := 0, floor := max p.floor n.2.2, next := none }
      | none => [])
  now ++ (match x.after with | some q => at' q | none => [])

/-- MARKER_EDGE (R197): the window that slot `slot` of cycle `c` opens for marker `mk` rises or falls at its instant; the
marker's level is the OR of its windows (R195). A rise is that of the first play on the output's schedule that has it still to
come; a side's second marker drives no window while it is a direction line (R239). -/
def execMarkerEdge (mk : Fin 4) (c : Nat) (slot : Fin 16) (rise : Bool) (s : State) : Host.Outcome State Fault Refusal :=
  live s fun s =>
    let b := mk.val / 2
    let m := mk.val % 2
    let x := s.bcn b
    if rise then
      let ws := x.schedule.filterMap (fun pg => pg.1.window pg.2 m c slot.val)
      match ws.find? (fun (w : Nat × MkWin) => decide (s.devTime ≤ w.1) && (m = 0 || x.dir.isNone) && !x.wins.any (fun v => v == w.2)) with
      | none => s
      | some (t, w) =>
        let s := s.toDev t
        s.setMarkers b t { s.bcn b with wins := (s.bcn b).wins ++ [w] }
    else
      match x.wins.find? (fun w => w.mkr = m && w.c = c && w.slot = slot.val) with
      | none => s
      | some w =>
        let s := s.toDev w.fall
        s.setMarkers b w.fall { s.bcn b with wins := (s.bcn b).wins.filter (fun v => v ≠ w) }

/-- BEACON_BANK_SWITCH (R198): the cycle boundary at which a bank change applies becomes the new T_start. -/
def execBeaconBankSwitch (b : Fin 2) (s : State) : Host.Outcome State Fault Refusal :=
  live s fun s =>
    match (s.bcn b).play with
    | none => s
    | some p =>
      match p.next with
      | none => s
      | some n =>
        if p.held then s else
        let s := s.toDev n.2.1
        let q : Play := { p with bank := n.1, t0 := n.2.1, c := 0, slot := 0, floor := max p.floor n.2.2, next := none, started := true }
        let s := (s.setBcn b { s.bcn b with play := some q }).bcnStat b
        let s := s.wr64 F.BEACON_Bb_TSTART_LO_T F.BEACON_Bb_TSTART_HI_T (n.2.1 % 2 ^ 64) b
        s.wr F.BEACON_Bb_COMMIT_STAT_PENDING 0 b

/-- BEACON_PLAY_STOP (R198): the probe in progress has ended, and the play stops. -/
def execBeaconPlayStop (b : Fin 2) (s : State) : Host.Outcome State Fault Refusal :=
  live s fun s =>
    match (s.bcn b).play with
    | none => s
    | some p =>
      match p.stopAt with
      | none => s
      | some t =>
        let s := s.toDev t
        s.bcnEnd b (s.bcn b).after

end Sys2Proof.Machine
end

