-- ==== Sys2Proof/Machine/GlintOps.lean ====
section
/-! DEFINITION. Machine/GlintOps.lean: stamping, gates, measurements and results of the Glint inputs ("Glint timing inputs",
R250-R275). -/
namespace Sys2Proof.Machine

/-- Input `n`'s stamping path; 256 to 259 are GATE0 to GATE3. -/
def State.gin (s : State) (n : Nat) : GlIn := kget s.glint.ins n {}

/-- Replaces input `n`'s stamping path. -/
def State.setGin (s : State) (n : Nat) (x : GlIn) : State :=
  { s with glint := { s.glint with ins := kset s.glint.ins n x {} } }

/-- The GLINT_MEASURE that owns group `g`. -/
def State.glRun (s : State) (g : Nat) : Option GlRun := s.glint.runs.find? (fun r => r.group = g)

/-- Replaces a run, by its job. -/
def State.setGlRun (s : State) (r : GlRun) : State :=
  { s with glint := { s.glint with runs := s.glint.runs.map (fun (x : GlRun) => if x.jid = r.jid then r else x) } }

/-- The result registers of group `g`. -/
def State.glGroup (s : State) (g : Nat) : GlGroup := kget s.glint.groups g {}
def State.setGlGroup (s : State) (g : Nat) (x : GlGroup) : State :=
  { s with glint := { s.glint with groups := kset s.glint.groups g x {} } }

/-- The window's start, 64 ns after the gate's opening (R259). -/
def Meas.ws (m : Meas) : Nat := m.tg + 64 * tickNs

/-- The instant past which no stamp enters a measurement (R259). -/
def Meas.lim (m : Meas) : Nat := m.tg + 2 ^ 47

/-- Whether a time lies in the window: from its start up to its end; a window that the 2^47 limit ends, or a fault ends at
its last stamp, takes that instant as well (R259, R270). -/
def Meas.inWin (m : Meas) (t : Nat) : Bool :=
  decide (m.ws ≤ t) && decide (t ≤ m.lim) &&
    (match m.wend with | none => true | some e => decide (t < e) || (m.incl && t = e))

/-- Whether an input's SLOPE passes an edge (R251). -/
def State.slopePass (s : State) (n : Nat) (rise : Bool) : Bool :=
  bit (s.ract F.GLINT_INn_CTRL_SLOPE n) (if rise then 0 else 1)

/-- The inputs whose stamps a run takes into its measurement, and R_sum of an input over the running jobs (R255, R274). -/
def State.rSum (s : State) (n : Nat) : Nat := sumL ((s.glint.runs.filter (fun r => r.takes.contains n)).map (·.rate))

/-- Stamps reserved per second (R274). -/
def State.stampRate (s : State) : Nat := sumL (s.glint.runs.map (fun r => r.rate * r.takes.length))

/-! ### Class I -/

/-- The candidates of stop entry `j`, an input, for the cycle of start `ts` (R261): earliest first. -/
def Meas.cands (m : Meas) (r : GlRun) (a : StopAcc) (inp ts : Nat) : List Nat :=
  let lo := max (ts - max r.lead 255) m.ws
  (m.stamps.filter (fun x => x.inp = inp && decide (lo ≤ x.t) && decide (x.t < ts + r.span) && decide (x.t ≤ m.lim) &&
    !(inp = r.startIn && x.t = ts) && !a.used.contains x.t)).map (·.t)

/-- Takes a sample (R262). -/
def StopAcc.sample (a : StopAcc) (d : Int) : StopAcc :=
  { a with
    n := a.n + 1, sum := a.sum + d, sq := a.sq + d.natAbs * d.natAbs
    mn := if a.n = 0 then d else min a.mn d, mx := if a.n = 0 then d else max a.mx d }

/-- Pairs a stop entry with the earliest candidate (R261). -/
def StopAcc.pair (a : StopAcc) (signed : Bool) (ts : Nat) : List Nat → StopAcc
  | [] => { a with miss := a.miss + 1 }
  | t :: rest =>
    let d : Int := (t : Int) - (ts : Int)
    if -256 < d ∧ d < 256 then { a.sample d with near := true, used := t :: a.used }
    else if d ≤ -256 ∧ signed = false then { a with rev := a.rev + 1 }.pair signed ts rest
    else { a.sample d with used := t :: a.used }

/-- The oldest open cycle closes: every stop entry is paired (R260, R261). -/
def Meas.closeCycle (m : Meas) (r : GlRun) : Meas :=
  match m.cycles with
  | [] => m
  | ts :: rest =>
    { m with
      cycles := rest
      accs := ((r.stops.zip m.accs).map (fun x => x.2.pair r.signed ts (m.cands r x.2 x.1 ts))) }

/-- Every open cycle closes. -/
def Meas.closeCycles (r : GlRun) : Nat → Meas → Meas
  | 0, m => m
  | n + 1, m => Meas.closeCycles r n (m.closeCycle r)

/-- A stamp of the start input that passes its SLOPE in the window (R260). -/
def Meas.start (m : Meas) (r : GlRun) (t : Nat) : Meas :=
  let close := match m.lastStart with | some p => decide (t < p + r.span) | none => false
  if r.nCycles ≠ 0 ∧ r.nCycles ≤ m.starts then m
  else if close then { m with startSkip := m.startSkip + 1 }
  else { m with starts := m.starts + 1, lastStart := some t, cycles := m.cycles ++ [t] }

/-- Inserts a stamp in rising time, equal times in rising input number (R268). -/
def insertStamp (x : GStamp) : List GStamp → List GStamp
  | [] => [x]
  | y :: ys => if x.t < y.t ∨ (x.t = y.t ∧ x.inp < y.inp) then x :: y :: ys else y :: insertStamp x ys

/-- A measurement takes a stamp of one of its inputs (R259, R260). -/
def Meas.take (m : Meas) (r : GlRun) (x : GStamp) : Meas :=
  if x.t < m.ws ∨ m.lim < x.t then m else
  let m := { m with stamps := insertStamp x m.stamps }
  if !r.clsF && x.inp = r.startIn && m.inWin x.t then m.start r x.t else m

/-! ### Results -/

/-- The quiet NaN of binary64. -/
def nan64 : Nat := 0x7FF8000000000000

/-- Some stamp of an input was lost in the window. -/
def Meas.lossOn (m : Meas) (n : Nat) : Bool := m.lost.any (fun x => x.1 = n && m.inWin x.2)

/-- A class I entry (R262, R266). -/
def entryI (m : Meas) (inp : Nat) (a : StopAcc) (gone : Bool) : Bytes :=
  let a : StopAcc := if gone then { a with n := 0, mn := 0, mx := 0 } else a
  let n := a.n
  let mean := if n = 0 then nan64 else toBin64 a.sum n
  let sdev := if n = 0 then nan64 else if n = 1 then 0 else sqrt64 (n * a.sq - a.sum.natAbs * a.sum.natAbs) (n * (n - 1))
  leBytes 2 inp ++ leBytes 2 (b2n a.near + 2 * b2n (decide (0 < a.rev)) + 4 * b2n (m.lossOn inp)) ++ leBytes 4 n ++
    leBytes 4 a.miss ++ leBytes 4 a.rev ++ leBytes 8 (unsg 64 a.mn) ++ leBytes 8 (unsg 64 a.mx) ++ leBytes 8 mean ++ leBytes 8 sdev

/-- The stamps of an input in the window, in time order. -/
def Meas.ofInput (m : Meas) (n : Nat) : List Nat := (m.stamps.filter (fun x => x.inp = n && m.inWin x.t)).map (·.t)

/-- The exact sums of a class F input (R264): n, Σi, Σi², Σu, Σu², Σiu. -/
def sumsF (ts : List Nat) : Nat × Nat × Nat × Nat × Nat × Nat :=
  let t0 := ts.headD 0
  ((List.range ts.length).zip ts).foldl (fun (a : Nat × Nat × Nat × Nat × Nat × Nat) x =>
    let i := x.1
    let u := x.2 - t0
    (a.1 + 1, a.2.1 + i, a.2.2.1 + i * i, a.2.2.2.1 + u, a.2.2.2.2.1 + u * u, a.2.2.2.2.2 + i * u)) (0, 0, 0, 0, 0, 0)

/-- PERIOD, FREQ and RESID of a class F input (R264), each rounded once to binary64. -/
def fitF (p : Nat) (ts : List Nat) : Nat × Nat × Nat :=
  let q := sumsF ts
  let n := q.1
  let a := n * q.2.2.1 - q.2.1 * q.2.1
  let b := n * q.2.2.2.2.2 - q.2.1 * q.2.2.2.1
  let c := n * q.2.2.2.2.1 - q.2.2.2.1 * q.2.2.2.1
  if n < 2 then (nan64, nan64, nan64) else
  (toBin64 (b : Int) (a * p), if b = 0 then 0x7FF0000000000000 else toBin64 ((tickS * p * a : Nat) : Int) b,
    if n < 3 then nan64 else sqrt64 (c * a - b * b) (n * a * (n - 2)))

/-- A class F entry (R264, R267). -/
def entryF (m : Meas) (inp p : Nat) (gone : Bool) : Bytes :=
  let ts := m.ofInput inp
  let ts := if gone then [] else ts
  let f := fitF p ts
  leBytes 2 inp ++ leBytes 2 (4 * b2n (m.lossOn inp)) ++ leBytes 4 ts.length ++ leBytes 8 (ts.headD 0 % 2 ^ 64) ++
    leBytes 8 f.1 ++ leBytes 8 f.2.1 ++ leBytes 8 f.2.2 ++ leBytes 8 (ts.getLastD 0 % 2 ^ 64)

/-- The inputs of a class F run, ascending (R263). -/
def GlRun.masked (r : GlRun) : List Nat := ((List.range 8).filter (fun i => bit r.mask i)).map (· + 8 * r.group)

/-- N_ENTRIES (R265). -/
def GlRun.nEntries (r : GlRun) : Nat := if r.clsF then r.masked.length else r.stops.length

/-- The entries of a result; those listed in `gone` could not be recomputed (R271). -/
def GlRun.entries (r : GlRun) (m : Meas) (gone : List Nat) : List Bytes :=
  if r.clsF then ((List.range r.masked.length).zip r.masked).map (fun x => entryF m x.2 r.presc (gone.contains x.1))
  else ((List.range r.stops.length).zip (r.stops.zip m.accs)).map (fun x => entryI m x.2.1 x.2.2 (gone.contains x.1))

/-- The stamp entries of a measurement (R268): the group's stamps in its window. -/
def GlRun.stampEntries (r : GlRun) (m : Meas) : List Bytes :=
  (m.stamps.filter (fun x => r.delivers.contains x.inp && m.inWin x.t)).map (fun x =>
    leBytes 8 (x.t % 2 ^ 64) ++ leBytes 2 (x.inp + 512 * b2n x.rise) ++ zeros 2 ++ leBytes 4 (x.t / 2 ^ 64 % 2 ^ 32))

/-! ### Gates and ends -/

/-- STAT of group `g` (R277). -/
def State.glStat (s : State) (g : Nat) : State :=
  match s.glRun g with
  | none => (((s.wr F.GLINT_Gg_STAT_RUNNING 0 g).wr F.GLINT_Gg_STAT_WINDOW 0 g).wr F.GLINT_Gg_STAT_CLASS 0 g).wr
      F.GLINT_Gg_STAT_CLK_HOLD 0 g
  | some r => (((s.wr F.GLINT_Gg_STAT_RUNNING 1 g).wr F.GLINT_Gg_STAT_WINDOW (b2n r.meas.isSome) g).wr
      F.GLINT_Gg_STAT_CLASS (b2n r.clsF) g).wr F.GLINT_Gg_STAT_CLK_HOLD (b2n r.hold) g

/-- Whether a run takes no further gate. -/
def GlRun.isOver (r : GlRun) : Bool := r.closed || (r.nGates ≠ 0 && decide (r.nGates ≤ r.gates))

/-- Ends a run that takes no further gate and owes no result: its job ends with the last element (R270, R275). -/
def State.glSettle (s : State) (jid : Nat) : State :=
  match s.glint.runs.find? (fun r => r.jid = jid) with
  | none => s
  | some r =>
    if !r.isOver || r.meas.isSome || !r.ended.isEmpty then s else
    let s := { s with glint := { s.glint with runs := s.glint.runs.filter (fun (x : GlRun) => x.jid ≠ jid) } }
    let s := s.glStat r.group
    let s := s.wr F.GLINT_STAMP_RATE_RATE (s.stampRate / 1000000)
    let a := match r.lastClose with
      | some t => s.phys - (s.devTime - t)
      | none => s.phys
    let s := s.updJob jid (fun j => { j with
      autoEnd := true, anchor := some a, fPartial := j.fPartial || (r.limited && decide (r.seq < r.nGates)) })
    (s.sourceEnded jid).settle jid

/-- A measurement ends when its window has closed and its last cycle has (R260). -/
def State.measCheck (s : State) (r : GlRun) : State :=
  match r.meas with
  | none => s.setGlRun r
  | some m =>
    if m.wend.isNone || !m.cycles.isEmpty then s.setGlRun r else
    (s.setGlRun { r with meas := none, ended := r.ended ++ [m] }).glStat r.group

/-- The window closes at `t` (R259). -/
def State.winClose (s : State) (r : GlRun) (t : Nat) (wrap : Bool) : State :=
  match r.meas with
  | none => s
  | some m =>
    if m.wend.isSome then s else
    s.measCheck { r with meas := some { m with wend := some t, wrap := m.wrap || wrap }, lastClose := some t }

/-- The gate opens at `t` (R258): a measurement begins, or the opening is ignored and counted. The inputs it takes
calibrate (R256). -/
def State.gateOpen (s : State) (r : GlRun) (t : Nat) : State :=
  if !r.armed || r.hold then s else
  match r.meas with
  | some m =>
    (s.setGlRun { r with meas := some { m with skips := m.skips + 1 } }).count F.GLINT_GATE_SKIP_CNT_COUNT
  | none =>
    if r.isOver then s else
    let m : Meas := { tg := t, brk := r.brk, accs := r.stops.map (fun _ => {}) }
    let s := (s.setGlRun { r with meas := some m, gates := r.gates + 1, brk := false }).glStat r.group
    ((r.takes ++ (if r.gateSrc < 256 then [r.gateSrc] else [])).eraseDups).foldl (fun s n =>
      s.setGin n { s.gin n with calAt := t, scaleAt := t + 64 * tickNs }) s

/-- An edge of a gate source at `t` (R258): it opens a gate, or closes the window of a level gate, which ends no later than
the 2^47 limit (R259). -/
def State.gateEdge (s : State) (n : Nat) (rise : Bool) (t : Nat) : State :=
  (s.glint.runs.filter (fun r => r.gateSrc = n)).foldl (fun s q =>
    match s.glint.runs.find? (fun r => r.jid = q.jid) with
    | none => s
    | some r =>
      if rise = decide (r.pol = 0) then s.gateOpen r t
      else if r.gateLen ≠ 0 then s else
      match r.meas with
      | none => s
      | some m =>
        if decide (m.lim < t) && m.wend.isNone then s.winClose { r with meas := some { m with incl := true } } m.lim true
        else s.winClose r t false) s

/-- Ends the measurement in progress at its last stamp (R270): its open cycles close. A gate that was still open closes at
this instant (R65). -/
def State.measStop (s : State) (r : GlRun) : State :=
  match r.meas with
  | none => s.setGlRun r
  | some m =>
    let e := match m.wend with
      | some e => e
      | none => ((m.stamps.getLast?).map (·.t)).getD (min s.devTime m.ws)
    let close := m.wend.getD s.devTime
    let m := { m with wend := some e, stopped := true, incl := m.incl || m.wend.isNone }
    let m := Meas.closeCycles r m.cycles.length m
    s.measCheck { r with meas := some m, lastClose := some close }

/-- An SSYN lock loss: no stamp is taken, and measurements in progress end (R270). -/
def State.glLoss (s : State) : State :=
  let s := { s with glint := { s.glint with holding := true } }
  s.glint.runs.foldl (fun s q =>
    match s.glint.runs.find? (fun r => r.jid = q.jid) with
    | none => s
    | some r => (s.measStop { r with hold := true }).glStat r.group) s

/-- Ends a run: no further gate is taken, and the measurement in progress ends (R270). -/
def State.glCut (s : State) (jid : Nat) (g : Job → Job) : State :=
  match s.glint.runs.find? (fun r => r.jid = jid) with
  | none => s
  | some r =>
    let s := (s.updJob jid g).setGlRun { r with closed := true }
    (s.measStop { r with closed := true }).glSettle jid

/-- The end of the clock hold (R256, R270): inputs stamp again once they have calibrated; jobs with AUTO_RESUME wait for
their next gate, the others end CLOCK_FAULT. -/
def State.glHoldEnd (s : State) : State :=
  let s := { s with glint := { s.glint with
    holding := false, ins := (List.range 256).foldl (fun m n => kset m n { kget m n {} with wait := true } {}) s.glint.ins } }
  s.glint.runs.foldl (fun s q =>
    match s.glint.runs.find? (fun r => r.jid = q.jid) with
    | none => s
    | some r =>
      if !r.hold then s else
      let s := (s.setGlRun { r with hold := false, brk := true }).glStat r.group
      if ((s.job? r.jid).map (·.autoResume)).getD false then s else s.glCut r.jid (fun j => { j with fClock := true })) s

end Sys2Proof.Machine
end

