-- ==== Sys2Proof/Machine/Glint.lean ====
section
/-! DEFINITION. Machine/Glint.lean: the commands of the Glint timing inputs ("Glint timing inputs", R250-R277). -/
namespace Sys2Proof.Machine

/-! ### Edges -/

/-- The FIFO's fill at present, at its slowest drain (R255). -/
def State.fifoLevel (s : State) (n : Nat) : Nat :=
  let x := s.gin n
  x.lvl - s.rSum n * (s.devTime - x.lvlAt)

/-- Counts a lost stamp and notes it in the measurements of its input (R253, R255, R265). -/
def State.loseStamp (s : State) (n t : Nat) (f : Fld) : State :=
  let s := (s.count F.GLINT_INn_LOSS_CNT_COUNT 1 n).setf f n
  { s with glint := { s.glint with runs := s.glint.runs.map (fun (r : GlRun) =>
    if !r.takes.contains n then r else
    { r with meas := r.meas.map (fun (m : Meas) => { m with lost := m.lost ++ [(n, t)] }) }) } }

/-- Whether a run's measurement takes a stamp of input `n` at `t` that passes its SLOPE: in the window, or as a stop of an
open cycle (R259-R261). -/
def GlRun.wants (r : GlRun) (n t : Nat) : Bool :=
  r.takes.contains n && (match r.meas with
    | none => false
    | some m => decide (m.ws ≤ t ∧ t ≤ m.lim) && (m.inWin t || (!r.clsF && r.stops.contains n)))

/-- The measurements take a stamp, after the input's FIFO (R255); `full` says that the FIFO was found full, which it can be
only where its slowest drain leaves it so. -/
def State.pathStamp (s : State) (n t : Nat) (rise full : Bool) : State :=
  if !s.slopePass n rise || !s.glint.runs.any (fun r => r.wants n t) then s else
  let lvl := s.fifoLevel n
  if full && decide (4095 * tickS < lvl) then s.loseStamp n t F.GLINT_INn_STAT_FIFO_OVF else
  let s := s.setGin n { s.gin n with lvl := lvl + tickS, lvlAt := s.devTime }
  { s with glint := { s.glint with runs := s.glint.runs.map (fun (r : GlRun) =>
    if !r.wants n t then r else { r with meas := r.meas.map (fun m => m.take r ⟨t, n, rise⟩) }) } }

/-- The prescaler of an input (R263): whether the edge at `t` is stamped, and the state with the edge counted. -/
def State.prescale (s : State) (n t : Nat) (rise : Bool) : Bool × State :=
  match s.glint.runs.find? (fun r => r.clsF && decide (1 < r.presc) && r.masked.contains n &&
    (match r.meas with | some m => m.inWin t | none => false)) with
  | none => (true, s)
  | some r =>
    if !s.slopePass n rise then (false, s) else
    match r.meas with
    | none => (true, s)
    | some m =>
      let k := kget m.pre n 0
      (k % r.presc = 0, s.setGlRun { r with meas := some { m with pre := kset m.pre n (k + 1) 0 } })

/-- A stamp of an input reaches Lantern, the measurements and the gates (R252). -/
def State.stampEdge (s : State) (n t : Nat) (rise full : Bool) : State :=
  let s := s.count F.GLINT_INn_STAMP_CNT_COUNT 1 n
  let s := s.lanEdge n rise t
  (s.pathStamp n t rise full).gateEdge n rise t

/-- GLINT_EDGE (R252, R253): input `n` (256 to 259 are GATE0 to GATE3) crosses its switching level, and `t` is the first tick
at or after the crossing; `full` says that the stamp finds its FIFO full (R255). -/
def execGlintEdge (n : Fin 260) (rise full : Bool) (t : Nat) (s : State) : Host.Outcome State Fault Refusal :=
  live s fun s =>
    let s := s.toDev t
    if !s.running || s.flag F.POWER_STAT_THERM_EMERG then s
    else if s.glint.holding then
      if n.val < 256 ∧ s.ract F.GLINT_INn_CTRL_ENABLE n = 1 then
        { s with lan := { s.lan with levels := kset s.lan.levels n rise false } }
      else s
    else if 256 ≤ n.val then s.gateEdge n rise t
    else
      let x := s.gin n
      if s.ract F.GLINT_INn_CTRL_ENABLE n = 0 || x.wait || decide (t < x.from') then s else
      let st := ((t : Int) + sgn 16 (s.ract F.GLINT_INn_TERM_DESKEW n)).toNat
      let p := s.prescale n st rise
      if !p.1 then p.2 else
      let s := p.2
      if x.freeA ≤ t then (s.setGin n { s.gin n with freeA := t + 327680 }).stampEdge n st rise full
      else if x.freeB ≤ t then (s.setGin n { s.gin n with freeB := t + 327680 }).stampEdge n st rise full
      else s.loseStamp n st F.GLINT_INn_STAT_INTERP_LOSS

/-- GLINT_INTERP_CAL (R256): an enabled input's periodic calibration completes, or its first after a clock hold; the new
scale, and after a hold stamping, applies at the first TCLK cycle after it. -/
def execGlintInterpCal (n : Fin 256) (s : State) : Host.Outcome State Fault Refusal :=
  live s fun s =>
    if s.glint.holding || !s.running || s.ract F.GLINT_INn_CTRL_ENABLE n = 0 then s else
    let x := s.gin n
    let t := (s.devTime / cycle + 1) * cycle
    s.setGin n { x with calAt := s.devTime, scaleAt := t, wait := false, from' := if x.wait then t else x.from' }

/-! ### GLINT_MEASURE -/

/-- A GLINT_MEASURE's payload and setup block (R272, R273), with the group's enabled inputs. -/
def State.glCfg (s : State) (j : Job) (d : Bytes) : GlRun :=
  let g := j.bits 8 1 4 0
  let clsF := j.bits 8 1 5 5 = 1
  let mask := j.fld 9 1
  let stops := (List.range (j.bits 10 1 5 0)).map (fun i => fieldAt d (64 + 2 * i) 2 % 512)
  let grp := (List.range 8).map (· + 8 * g)
  let on := grp.filter (fun n => s.ract F.GLINT_INn_CTRL_ENABLE n = 1 && s.ract F.GLINT_INn_CTRL_SLOPE n ≠ 0)
  let stampsOn := j.bits 8 1 6 6 = 1
  let dels := if stampsOn then on else []
  let own := if clsF then grp.filter (fun n => bit mask (n - 8 * g)) else (8 * g + mask % 8) :: stops
  { jid := j.jid, sq := j.sq, tag := j.tag, group := g, clsF := clsF, signed := j.bits 8 1 7 7 = 1, stampsOn := stampsOn
    startIn := 8 * g + mask % 8, mask := mask, stops := stops, presc := j.fld 11 1 + 1, gateSrc := j.bits 12 2 8 0
    pol := j.bits 12 2 9 9, ret := j.fld 14 2, nGates := j.fld 16 4, nCycles := j.fld 20 4, span := j.fld 24 6
    lead := j.fld 32 4, gateLen := j.fld 36 4, rate := j.fld 40 4, resAddr := fieldAt d 0 8, resSlots := fieldAt d 8 4
    stampAddr := fieldAt d 16 8, stampSize := fieldAt d 24 8, limit := fieldAt d 40 4, takes := (own ++ dels).eraseDups
    delivers := dels, armAt := 0 }

/-- The rules on the payload and the setup block (R272, R273). -/
def glBad (r : GlRun) (j : Job) (d : Bytes) : Bool :=
  let n := j.bits 10 1 5 0
  let cls := if r.clsF then r.mask = 0 || n ≠ 0 || r.nCycles ≠ 0 || r.span ≠ 0 || r.lead ≠ 0 || r.signed
    else decide (7 < r.mask) || n = 0 || r.presc ≠ 1 || r.span = 0 || decide (2 ^ 47 < r.span)
  cls || decide (0x103 < r.gateSrc) || decide (2147483 < r.gateLen) || r.rate = 0 || decide (400000000 < r.rate) ||
    decide (r.resSlots < 2 ∨ 65536 < r.resSlots) ||
    (if r.stampsOn then r.stampSize % 16 ≠ 0 || r.stampSize = 0 else r.stampAddr ≠ 0 || r.stampSize ≠ 0) ||
    !allZero ((d.drop 12).take 4) || !allZero ((d.drop 44).take 20) || !allZero ((d.drop (64 + 2 * n)).take (192 - 2 * n)) ||
    (List.range n).any (fun i => decide (255 < fieldAt d (64 + 2 * i) 2))

/-- The record size (R265). -/
def GlRun.recBytes (r : GlRun) : Nat := 64 + 48 * r.nEntries

/-- An input's side: 0 for groups 0 to 15 (R257). -/
def ginSide (n : Nat) : Nat := n / 128

/-- The demands of a GLINT_MEASURE (R257, R272-R274). -/
def State.glPlan (s : State) (setup : Option Bytes) (j : Job) : Plan :=
  let setup := blockRead (j.fld 48 8) 256 64 setup
  let d := setup.getD []
  let r := s.glCfg j d
  let side := r.group / 16
  let nd := r.delivers.length
  let on (k : Nat) : Nat := countP (fun n => ginSide n = k) r.takes
  let stack (k : Nat) : Nat := unitsOf (Q.of (16 * r.rate * (on k + (if side = k then nd else 0))))
  let far := unitsOf (Q.of (16 * r.rate * countP (fun n => ginSide n ≠ side) (r.stops.eraseDups)))
  let need := unitsOf (Q.of (16 * r.rate * nd))
  let power (rd : Nat) := (((⟨26 * r.rate * r.takes.length, 2400000000⟩ : Q).add (hbmPower (stack 0))).add (hbmPower (stack 1))).add (moverPower rd)
  { malformed := j.kflags ≠ 0 || !payloadOnly j.desc [(8, 7, 0), (9, 7, 0), (10, 5, 0), (11, 7, 0), (12, 9, 0), (14, 15, 0),
      (16, 31, 0), (20, 31, 0), (24, 47, 0), (32, 31, 0), (36, 31, 0), (40, 31, 0), (44, 31, 0), (48, 63, 0)] ||
      (setup.isSome && glBad r j d)
    badAddr := setup.isNone || rangeBad r.resAddr (r.resSlots * roundUp r.recBytes 64) 64 ||
      (r.stampsOn && rangeBad r.stampAddr r.stampSize 64)
    stateOk := r.takes.all (fun n => s.ract F.GLINT_INn_CTRL_ENABLE n = 1 && s.ract F.GLINT_INn_CTRL_SLOPE n ≠ 0) &&
      (decide (256 ≤ r.gateSrc) || s.ract F.GLINT_INn_CTRL_ENABLE r.gateSrc = 1) &&
      decide (s.stampRate + r.rate * r.takes.length ≤ 2400000000)
    conflict := s.claimed (.group r.group)
    d2h := some (j.fld 44 4)
    fracB := if side = 1 then ⟨1, 1⟩ else ⟨0, 1⟩
    demand := fun rd _ => {
      claims := [.group r.group], store0 := r.ret * on 0, store1 := r.ret * on 1, hbm0 := stack 0, hbm1 := stack 1
      xba := if side = 0 then far else 0, xab := if side = 1 then far else 0, power := (power rd).ceil }
    movers := fun rd _ => [(side, rd, rd)]
    specials := fun rd _ => if rd < need then [(9, need - rd)] else []
    work := fun _ _ => ((Q.of 10).add ⟨r.span, tickUs⟩).add ⟨r.ret * 32768, 1000⟩
    bytes := r.recBytes + 65536 * nd
    dur := fun _ _ => if r.limit = 0 then none else some (r.limit * tickUs) }

/-- GLINT_MEASURE (R274): an admitted job owns its group. `setup` is the setup block as the host's memory answers, none where
the read fails. -/
def execGlintMeasure (setup : Option Bytes) (s : State) : Host.Outcome State Fault Refusal :=
  live s fun s => s.admission 0x20 (s.glPlan setup) (fun s j =>
    let d := setup.getD []
    let start := fieldAt d 32 8
    let at' := if start = 0 then 0 else s.devTime / 2 ^ 64 * 2 ^ 64 + start
    let r : GlRun := { s.glCfg j d with armAt := max (s.devTime + 2 * tickUs) at' }
    let s := { s with glint := { s.glint with runs := s.glint.runs ++ [r] } }
    (s.glStat r.group).wr F.GLINT_STAMP_RATE_RATE (s.stampRate / 1000000))

/-- GLINT_ARM (R258): at the later of START_TIME and admission plus 2 µs. -/
def execGlintArm (g : Fin 32) (s : State) : Host.Outcome State Fault Refusal :=
  live s fun s =>
    match s.glRun g with
    | none => s
    | some r => if r.armed then s else (s.toDev r.armAt).setGlRun { r with armed := true }

/-- GLINT_WINDOW_END (R259): a timed gate's window ends at t_g + GATE_LEN. -/
def execGlintWindowEnd (g : Fin 32) (s : State) : Host.Outcome State Fault Refusal :=
  live s fun s =>
    match s.glRun g with
    | none => s
    | some r =>
      match r.meas with
      | none => s
      | some m =>
        if r.gateLen = 0 || m.wend.isSome then s else
        let t := m.tg + r.gateLen * tickUs
        (s.toDev t).winClose r t false

/-- CLASS_I_CYCLE_CLOSE (R260): the oldest open cycle closes at t_s + SPAN. -/
def execClassICycleClose (g : Fin 32) (s : State) : Host.Outcome State Fault Refusal :=
  live s fun s =>
    match s.glRun g with
    | none => s
    | some r =>
      match r.meas with
      | none => s
      | some m =>
        match m.cycles with
        | [] => s
        | ts :: _ =>
          if m.lim < ts + r.span then s else
          (s.toDev (ts + r.span)).measCheck { r with meas := some (m.closeCycle r) }

/-- TIME_WRAP (R259): a window or class I cycle reaches t_g + 2^47 ticks and ends there. -/
def execTimeWrap (g : Fin 32) (s : State) : Host.Outcome State Fault Refusal :=
  live s fun s =>
    match s.glRun g with
    | none => s
    | some r =>
      match r.meas with
      | none => s
      | some m =>
        if !(m.wend.isNone && r.gateLen = 0) && !m.cycles.any (fun ts => decide (m.lim < ts + r.span)) then s else
        let s := s.toDev m.lim
        let m' := Meas.closeCycles r m.cycles.length { m with
          wend := some (m.wend.getD m.lim), wrap := true, incl := m.incl || m.wend.isNone }
        s.measCheck { r with meas := some m', lastClose := some (m.wend.getD m.lim) }

/-- GLINT_LIMIT (R270): LIMIT_US after arming, no further gate is taken. -/
def execGlintLimit (g : Fin 32) (s : State) : Host.Outcome State Fault Refusal :=
  live s fun s =>
    match s.glRun g with
    | none => s
    | some r =>
      if r.limit = 0 || !r.armed then s else
      let t := r.armAt + r.limit * tickUs
      let close := if r.meas.isNone then some t else r.lastClose
      ((s.toDev t).setGlRun { r with closed := true, limited := true, lastClose := close }).glSettle r.jid

/-- The live record of a group takes a completed result (R269). -/
def State.glLive (s : State) (r : GlRun) (m : Meas) (es : List Bytes) (flags : Nat) : State :=
  let g := r.group
  let e := es.getD (s.rd F.GLINT_Gg_CTRL_RES_SEL g) (zeros 48)
  let e := if s.rd F.GLINT_Gg_CTRL_RES_SEL g < es.length then e else zeros 48
  let bs := leBytes 8 (m.ws % 2 ^ 64) ++ leBytes 8 (m.wend.getD 0 % 2 ^ 64) ++ e
  let ws := (List.range 16).map (fun i => BitVec.ofNat 32 (fieldAt bs (4 * i) 4))
  let s := s.setGlGroup g { s.glGroup g with live := ws }
  let q := s.rd F.GLINT_Gg_RES_HDR_SEQ g
  let s := (s.wr F.GLINT_Gg_RES_HDR_SEQ (if q = 0xFFFF then 1 else q + 1) g).wr F.GLINT_Gg_RES_HDR_NEW 1 g
  let fl := b2n (bit flags 0) + 2 * b2n (bit flags 1) + 4 * b2n (bit flags 2) + 8 * b2n (bit flags 6) + 16 * b2n (bit flags 7)
  (s.wr F.GLINT_Gg_RES_HDR_FLAGS fl g).wr F.GLINT_Gg_RES_HDR_N_ENTRIES es.length g

/-- GLINT_RESULT (R265-R269, R271): the group's oldest ended measurement gives its result record. `spoiled` lists entries
that a parity error spoiled, `crc` says that a retained stamp entry failed its CRC-16, and `damaged` that a delivered one
did. -/
def execGlintResult (g : Fin 32) (spoiled : List (Fin 64)) (crc damaged : Bool) (s : State) :
    Host.Outcome State Fault Refusal :=
  live s fun s =>
    match s.glRun g with
    | none => s
    | some r =>
      match r.ended with
      | [] => s
      | m :: rest =>
        let sp := spoiled.map (·.val)
        let held := (m :: rest ++ r.meas.toList).map (fun (x : Meas) => x.stamps)
        let kept := r.takes.all (fun n => decide (countP (fun x => x.inp = n) held.flatten ≤ 65536 * r.ret))
        let failed := !sp.isEmpty && (crc || r.ret = 0 || !kept)
        let es := r.entries m (if failed then sp else [])
        let all := r.stampEntries m
        let room := r.stampSize / 16 - r.sent
        let out := all.take room
        let loss := countP (fun x => m.inWin x.2) m.lost
        let flags := b2n m.wrap + 2 * b2n (decide (0 < loss)) + 4 * b2n (m.accs.any (·.near)) +
          8 * b2n (m.accs.any (fun a => decide (0 < a.rev))) + 16 * b2n (decide (out.length < all.length)) + 32 * b2n m.brk +
          64 * b2n m.stopped + 128 * b2n failed + 256 * b2n (!sp.isEmpty && !failed) +
          512 * b2n (decide (m.wend.getD 0 < m.ws)) + 1024 * b2n damaged
        let header := leBytes 8 (r.seq + 1) ++ leBytes 8 (m.ws % 2 ^ 64) ++ leBytes 8 (m.wend.getD 0 % 2 ^ 64) ++
          leBytes 4 m.starts ++ leBytes 4 m.startSkip ++ leBytes 4 m.skips ++ leBytes 4 loss ++ leBytes 8 r.sent ++
          leBytes 4 out.length ++ leBytes 2 flags ++ leBytes 1 (r.group + 32 * b2n r.clsF) ++ leBytes 1 r.nEntries ++
          leBytes 2 r.tag ++ leBytes 1 r.sq ++ zeros 5
        let slot := r.resAddr + r.seq % max r.resSlots 1 * roundUp r.recBytes 64
        let at' := r.stampAddr + 16 * r.sent
        let s := s.setGlRun { r with ended := rest, seq := r.seq + 1, sent := r.sent + out.length }
        let s := s.updJob r.jid (fun j => { j with
          detail := min (j.detail % 2 ^ 24 + 1) (2 ^ 24 - 1) + ((j.detail / 2 ^ 24) ||| flags % 128) * 2 ^ 24
          fPartial := j.fPartial || bit flags 4
          fFlagged := j.fFlagged || bit flags 0 || bit flags 1 || bit flags 5 || bit flags 10
          fIntegrity := j.fIntegrity || failed })
        let one (s : State) (b : Bool) (f : Fld) : State := if b then s.setf f g else s
        let s := one s m.wrap F.GLINT_Gg_STAT_TIME_WRAP
        let s := one s (bit flags 1) F.GLINT_Gg_STAT_LOSS
        let s := one s (bit flags 2) F.GLINT_Gg_STAT_NEAR
        let s := one s (bit flags 3) F.GLINT_Gg_STAT_REVERSED
        let s := one s failed F.GLINT_Gg_STAT_INTEGRITY
        let s := s.glLive r m es flags
        let s := s.feedStamps r.jid r.seq m.brk
          (GlRun.stampEntries { r with delivers := (List.range 8).map (· + 8 * r.group) } m)
        let s := s.queueElems r.jid (s.chanOn r.jid (r.group / 16))
          (outElems at' out.flatten ++ [.frame slot (header ++ es.flatten) 0])
        s.glSettle r.jid

/-! ### Set-up and result registers -/

/-- The registers that GLINT_COMMIT covers (R276). -/
def glLo : Nat := 0x1800000
def glHi : Nat := 0x1881020

/-- The code of the lowest input or GATE pin that a commit changes and an admitted job owns, borrows or names (R276). -/
def State.glOffender (s : State) : Option Nat :=
  let sh := s.shadow glLo glHi
  let ac := lastPend s.glint.pend (s.active glLo glHi)
  let touched (lo hi : Nat) : Bool := (shadowRows sh lo hi) != (shadowRows ac lo hi)
  let names (n : Nat) : Bool := s.glint.runs.any (fun r => r.gateSrc = n || (n < 256 && (r.takes.contains n || n / 8 = r.group)))
  (List.range 260).find? (fun n => names n &&
    (if n < 256 then touched (0x1800000 + 0x100 * n) (0x1800100 + 0x100 * n) else touched (0x1881010 + 4 * (n - 256)) (0x1881014 + 4 * (n - 256))))

/-- GLINT_COMMIT (R276): a write of `v` to GLINT_COMMIT. -/
def State.glintCommitWrite (s : State) (v : Word) : State :=
  if !bit v.toNat 0 || s.shadow glLo glHi == lastPend s.glint.pend (s.active glLo glHi) then s else
  match s.glOffender with
  | some n => (s.setf F.GLINT_COMMIT_STAT_REJ_OWNED).wr F.GLINT_COMMIT_STAT_REJ_WHERE n
  | none =>
    let p := addPend s.glint.pend (s.boundaryAfter (64 * tickNs)) (s.shadow glLo glHi)
    ({ s with glint := { s.glint with pend := p } }).setf F.GLINT_COMMIT_STAT_PENDING

/-- GLINT_COMMIT (R276). -/
def execGlintCommit (v : Word) (s : State) : Host.Outcome State Fault Refusal := live s fun s => s.glintCommitWrite v

/-- The comparator levels that Lantern sees after a commit (R112): a disabled input's is 0, and that of an input that the
commit enables is its comparator's output. Patterns are judged again without an event. -/
def State.enableLevels (s : State) (was : List Bool) (high : List Nat) : State :=
  let s := (List.range 256).foldl (fun s n =>
    let on := s.ract F.GLINT_INn_CTRL_ENABLE n = 1
    if on = was.getD n on then s
    else { s with lan := { s.lan with levels := kset s.lan.levels n (on && high.contains n) false } }) s
  (List.range 16).foldl (fun s c =>
    let k := condCfg s.act c
    let now := patternTrue k s.lan.levels
    if !condUsed s.act c || k.type ≠ 9 || now = (s.cond c).truth then s else s.setCond c { truth := now }) s

/-- GLINT_COMMIT_APPLY (R276); `high` lists the inputs that it enables whose comparator output is high. -/
def execGlintCommitApply (high : List (Fin 256)) (s : State) : Host.Outcome State Fault Refusal :=
  live s fun s =>
    match s.glint.pend with
    | none => s
    | some p =>
      let s := (s.toDev p.due).settlePatterns p.due
      let was := (List.range 256).map (fun n => decide (s.ract F.GLINT_INn_CTRL_ENABLE n = 1))
      let s := (s.applyShadow glLo glHi p.snap).enableLevels was (high.map (·.val))
      ({ s with glint := { s.glint with pend := p.after } }).wr F.GLINT_COMMIT_STAT_PENDING (b2n p.after.isSome)

/-- The BAR0 addresses of group `g`'s RES_HDR and RES_DATA (R277). -/
def resHdrAddr (g : Nat) : Nat := 0x1880008 + 0x10 * g
def resDataAddr (g : Nat) : Nat := 0x188000C + 0x10 * g

/-- A read of RES_HDR returns the header of the live record; the record goes to the read latch, the index to 0, and NEW
clears (R269). -/
def State.resHdrRead (s : State) (g : Nat) : State :=
  let x := s.glGroup g
  let s := s.emit (.readData (resHdrAddr g) (s.word (resHdrAddr g)))
  (s.setGlGroup g { x with latch := x.live, idx := 0 }).wr F.GLINT_Gg_RES_HDR_NEW 0 g

/-- RES_HDR_READ (R269). -/
def execResHdrRead (g : Fin 32) (s : State) : Host.Outcome State Fault Refusal :=
  liveRead s (resHdrAddr g) fun s => s.resHdrRead g

/-- A read of RES_DATA returns the latch word at the index, which then increments (R269). -/
def State.resDataRead (s : State) (g : Nat) : State :=
  let x := s.glGroup g
  let s := s.emit (.readData (resDataAddr g) (x.latch.getD x.idx 0))
  s.setGlGroup g { x with idx := min (x.idx + 1) 16 }

/-- RES_DATA_READ (R269). -/
def execResDataRead (g : Fin 32) (s : State) : Host.Outcome State Fault Refusal :=
  liveRead s (resDataAddr g) fun s => s.resDataRead g

end Sys2Proof.Machine
end

