-- ==== Sys2Proof/Machine/Hbm.lean ====
section
/-! DEFINITION. Machine/Hbm.lean: the record-store memory controllers ("Record-store memory controller"). Bank number
within a pseudo-channel: SID × 16 + BG × 4 + BANK. -/
namespace Sys2Proof.Machine

/-- Bytes of one stack (R360). -/
def stackBytes : Nat := 0x600000000

/-- A burst's place (R360): pseudo-channel within the stack, bank and row, for grain exponent `g`. -/
structure HbmPlace where
  pc : Nat
  bank : Nat
  row : Nat
  col : Nat
deriving DecidableEq, Repr

/-- The address decode of R360, from an offset within the stack. -/
def hbmPlace (g o : Nat) : HbmPlace :=
  let chunk := o / 2 ^ g
  let p := chunk / 32 * 2 ^ g + o % 2 ^ g
  { pc := chunk % 32, bank := p / 2 ^ 28 * 16 + bits p 11 10 * 4 + bits p 13 12, row := bits p 27 14, col := bits p 9 6 }

/-- The grain exponent of a stack (R361). -/
def State.grain (s : State) (k : Nat) : Nat := s.ract F.HBMC_Ss_CTRL_GRAIN k + 8

/-- The place of store address `a`. -/
def State.place (s : State) (a : Nat) : HbmPlace := hbmPlace (s.grain (a / stackBytes)) (a % stackBytes)

/-- Pseudo-channel `p` of 64. -/
def State.pc (s : State) (p : Nat) : HbmPc := kget s.hbm.pcs p {}

/-- Replaces a pseudo-channel; DRAIN shows whether any of its stack is in drain mode. -/
def State.setPc (s : State) (p : Nat) (x : HbmPc) : State :=
  let s := { s with hbm := { s.hbm with pcs := kset s.hbm.pcs p x {} } }
  s.wr F.HBMC_Ss_STAT_DRAIN
    (b2n (s.hbm.pcs.any (fun c => decide (c.1 / 32 = p / 32) && c.2.drain))) (p / 32)

/-- What a byte of the store that is not listed reads as. -/
def State.hbmFill (s : State) (a : Nat) : Byte :=
  let f := kget s.hbm.fill (a / stackBytes) 0
  if f = 0 then 0 else Config.freeByte f a

/-- A byte of the store. -/
def State.hbmByte (s : State) (a : Nat) : Byte := kget s.hbm.mem a (s.hbmFill a)

/-- `n` bytes of the store from `a`. -/
def State.hbmBytes (s : State) (a : Nat) : Nat → Bytes
  | 0 => []
  | n + 1 => s.hbmByte a :: s.hbmBytes (a + 1) n

/-- Writes bytes to the store from `a`. -/
def State.hbmPut (s : State) (a : Nat) : Bytes → State
  | [] => s
  | b :: bs =>
    ({ s with hbm := { s.hbm with mem := kset s.hbm.mem a b (s.hbmFill a) } }).hbmPut (a + 1) bs

/-- The spare bits of the burst at `a` (R373). -/
def State.spareOf (s : State) (a : Nat) : Nat := kget s.hbm.spare (a / 64) 0

/-- Sets the spare bits of the burst at `a`. -/
def State.setSpare (s : State) (a v : Nat) : State :=
  { s with hbm := { s.hbm with spare := kset s.hbm.spare (a / 64) v 0 } }

/-- The byte enables of a write laid over a burst. -/
def mergeBytes (mask : BitVec 64) (new old : Bytes) : Bytes :=
  (List.range 64).map (fun i => if mask.getLsbD i then new.getD i 0 else old.getD i 0)

/-- The damaged indication of a burst read (R373, R375): 1 for a failed CRC-16, or a mask of the PACK10 words whose nibble
fails. -/
def damage (crc : Bool) (data : Bytes) (spare addr : Nat) : Nat :=
  if crc then b2n (crc16 data addr ≠ spare)
  else sumL ((List.range 8).map (fun i => if nibbleOk (fieldAt data (8 * i) 8) then 0 else 2 ^ i))

/-- The bits set in a byte. -/
def popcount8 (v : Nat) : Nat := countP (bit v) (List.range 8)

/-- A check that failed (R375): counted, recorded and entered in the ledger. -/
def State.hbmDamage (s : State) (crc : Bool) (addr d : Nat) : State :=
  if d = 0 then s else
  let k := addr / stackBytes
  let s := if crc then s.count F.HBMC_Ss_CRC_CNT_COUNT 1 k else s.count F.HBMC_Ss_NIB_CNT_COUNT (popcount8 d) k
  let s := (s.wr F.HBMC_Ss_ERR_ADDR_LO_ADDR addr k).wr F.HBMC_Ss_ERR_ADDR_HI_ADDR (addr / 2 ^ 32) k
  (s.setf F.HBMC_Ss_STAT_CRC k).ledgerAdd ctrHbm

/-- A request completes (R369): its time enters MAXLAT, and after its deadline it is overdue. -/
def State.hbmDone (s : State) (q : HbmReq) : State :=
  let k := q.addr / stackBytes
  let s := s.maxTo F.HBMC_Ss_MAXLATp_LAT (ceilDiv (s.phys - q.arrival) tickNs) k q.port
  if q.deadline < s.phys then (s.setf F.HBMC_Ss_STAT_OVERDUE k).count F.HBMC_Ss_OVERDUE_CNT_COUNT 1 k else s

/-- A write's column command (R373, R374): a PACK10 write or a whole burst is written; a partial CRC16 write reads the
burst and merges, and one whose read fails its check leaves the burst poisoned. -/
def State.hbmWrite (s : State) (q : HbmReq) : State :=
  let k := q.addr / stackBytes
  let old := s.hbmBytes q.addr 64
  let new := mergeBytes q.mask q.data old
  let s :=
    if !q.crc then s.hbmPut q.addr new
    else
      let whole := decide (q.mask = BitVec.allOnes 64)
      let d := if whole then 0 else damage true old (s.spareOf q.addr) q.addr
      let c := crc16 new q.addr
      let s := ((s.hbmDamage true q.addr d).hbmPut q.addr new).setSpare q.addr (if d = 0 then c else 0xFFFF - c)
      if d = 0 then s else s.count F.HBMC_Ss_POISON_CNT_COUNT 1 k
  s.hbmDone q

/-- The latency target of a port in ticks (R368). -/
def State.latency (s : State) (k port : Nat) : Nat := s.ract F.HBMC_Ss_LTp_LT k port * tickNs

/-- A request is urgent once its deadline is a quarter of its target or less away (R369). -/
def State.urgent (s : State) (q : HbmReq) : Bool :=
  decide (4 * (q.deadline - s.phys) ≤ q.deadline - q.arrival)

/-- Drain mode follows the write queue's watermarks (R370). -/
def State.hbmDrain (s : State) (p : Nat) : State :=
  let x := s.pc p
  let k := p / 32
  if !x.drain && decide (s.ract F.HBMC_Ss_WM_HIGH k ≤ x.wr.length) then
    (s.setPc p { x with drain := true }).count F.HBMC_Ss_DRAIN_CNT_COUNT 1 k
  else if x.drain && decide (x.wr.length ≤ s.ract F.HBMC_Ss_WM_LOW k) then s.setPc p { x with drain := false }
  else s

/-- Puts a request into its queue if there is room (R369); the second component says so. -/
def HbmPc.enter (x : HbmPc) (q : HbmReq) : HbmPc × Bool :=
  if q.port < 2 then
    if x.priv.length < 32 then ({ x with priv := x.priv ++ [q] }, true) else (x, false)
  else if q.write then
    if x.wr.length < 64 then ({ x with wr := x.wr ++ [q] }, true) else (x, false)
  else if x.rd.length < 32 then ({ x with rd := x.rd ++ [q] }, true) else (x, false)

/-- Held requests enter their queues as room appears, each port in arrival order. -/
def HbmPc.takeHeld (x : HbmPc) : List HbmReq → List Nat → HbmPc
  | [], _ => x
  | q :: qs, full =>
    if full.contains q.port then { x with held := x.held ++ [q] }.takeHeld qs full
    else
      let r := x.enter q
      if r.2 then r.1.takeHeld qs full else { x with held := x.held ++ [q] }.takeHeld qs (q.port :: full)

/-- Lets held requests in, and settles drain mode. -/
def State.hbmSettle (s : State) (p : Nat) : State :=
  let x := s.pc p
  (s.setPc p ({ x with held := [] }.takeHeld x.held [])).hbmDrain p

/-- A write merges into the pending write of its burst (R372): the later data wins byte for byte, and the entry keeps its
place and its deadline. -/
def mergeInto (q : HbmReq) (e : HbmReq) : HbmReq :=
  if e.write && e.addr = q.addr then { e with mask := e.mask ||| q.mask, data := mergeBytes q.mask q.data e.data } else e

/-- The pending write of a burst. -/
def HbmPc.pendingWrite (x : HbmPc) (addr : Nat) : Option HbmReq :=
  (x.priv ++ x.wr ++ x.held).find? (fun e => e.write && e.addr = addr)

/-- The stack takes no command and its ports are held (R376). -/
def State.hbmPaused (s : State) : Bool := s.hbm.mpllHold || s.hbm.stopHold

/-- A read that is forwarded (R372): its data is the pending write's over the stored burst, checked as R373 checks. -/
def State.hbmForward (s : State) (q e : HbmReq) : State :=
  let k := q.addr / stackBytes
  let old := s.hbmBytes q.addr 64
  let data := mergeBytes e.mask e.data old
  let whole := decide (e.mask = BitVec.allOnes 64)
  let d := if q.crc then (if whole then 0 else damage true old (s.spareOf q.addr) q.addr) else damage false data 0 q.addr
  let s := (s.count F.HBMC_Ss_FWD_CNT_COUNT 1 k).hbmDamage q.crc q.addr d
  ({ s with hbm := { s.hbm with last := some ⟨q.port, q.addr, data, d⟩ } }).hbmDone q

/-- HBM_REQUEST (R368-R372): the request joins its pseudo-channel; a write may merge, a read may be forwarded. Ports 0 and
1 only write, and an offline or untrained stack carries no data (R365). -/
def execHbmRequest (k : Fin 2) (port : Fin 8) (write : Bool) (addr : Nat) (mask : BitVec 64) (data : Bytes) (crc : Bool)
    (s : State) : Host.Outcome State Fault Refusal :=
  live s fun s =>
    let a := addr / 64 * 64
    if a / stackBytes ≠ k.val || (port.val < 2 && !write) || s.flag F.HBMC_Ss_STAT_OFFLINE k ||
        !s.flag F.HBMC_Ss_STAT_TRAINED k then s else
    let p := 32 * k.val + (s.place a).pc
    let q : HbmReq := { port := port, write := write, addr := a, mask := mask, data := data, crc := crc, arrival := s.phys
                        deadline := s.phys + s.latency k port, seq := s.hbm.seq }
    let s := { s with hbm := { s.hbm with seq := s.hbm.seq + 1 } }
    let x := s.pc p
    match x.pendingWrite a with
    | some e =>
      if write then
        let f (l : List HbmReq) : List HbmReq := l.map (mergeInto q)
        s.setPc p { x with priv := f x.priv, wr := f x.wr, held := f x.held }
      else s.hbmForward q e
    | none =>
      let s := s.setPc p { x with held := x.held ++ [q] }
      if s.hbmPaused then s else s.hbmSettle p

/-- HBM_REFRESH (R366): a bank's refresh is due. -/
def execHbmRefresh (pc : Fin 64) (bank : Fin 48) (must : Bool) (s : State) : Host.Outcome State Fault Refusal :=
  live s fun s =>
    let x := s.pc pc
    if s.hbmPaused then s
    else s.setPc pc { x with due := x.due.filter (fun d => d.1 ≠ bank.val) ++ [(bank.val, must)] }

/-- The bank and row of a request. -/
def State.reqPlace (s : State) (q : HbmReq) : HbmPlace := s.place q.addr

/-- A write may not issue while an older read of its burst is queued (R372). -/
def HbmPc.free (x : HbmPc) (q : HbmReq) : Bool :=
  !(q.write && (x.rd ++ x.held).any (fun r => !r.write && r.addr = q.addr && decide (r.seq < q.seq)))

/-- The request whose row is open first, else the oldest, among those that a slot may serve (R369). -/
def State.openFirst (s : State) (x : HbmPc) (l : List HbmReq) : Option HbmReq :=
  let opened (q : HbmReq) : Bool := kget x.rows (s.reqPlace q).bank 0 = (s.reqPlace q).row + 1
  (l.find? opened).or l.head?

/-- The request with the earliest deadline. -/
def earliest : List HbmReq → Option HbmReq
  | [] => none
  | q :: qs => match earliest qs with
    | none => some q
    | some r => some (if r.deadline < q.deadline then r else q)

/-- The request that a slot serves, and whether it is served as urgent (R369). -/
def State.pickReq (s : State) (x : HbmPc) (blocked : List Nat) : Option (HbmReq × Bool) :=
  let ok (q : HbmReq) : Bool :=
    let b := (s.reqPlace q).bank
    !blocked.contains b && x.free q && !x.nr.any (fun n => n.1 = b)
  let pr := x.priv.filter ok
  let rd := x.rd.filter ok
  let wr := x.wr.filter ok
  match earliest ((pr ++ rd ++ wr).filter s.urgent) with
  | some q => some (q, true)
  | none =>
    match s.openFirst x pr with
    | some q => some (q, false)
    | none =>
      match (if x.drain then s.openFirst x wr else none) with
      | some q => some (q, false)
      | none =>
        match s.openFirst x rd with
        | some q => some (q, false)
        | none => if x.rd.isEmpty then (s.openFirst x wr).map (·, false) else none

/-- NR_PROB in force (R367). -/
def State.nrProb (s : State) (k : Nat) : Nat := min (s.ract F.HBMC_Ss_CTRL_NR_PROB k) 0x400

/-- One command for a request (R359, R367, R369): a column command where its row is open, an activate where its bank is
closed, a precharge where another row is open. -/
def State.serve (s : State) (p : Nat) (q : HbmReq) (urgent : Bool) (draw : Nat) : State :=
  let x := s.pc p
  let k := p / 32
  let pl := s.reqPlace q
  let row := kget x.rows pl.bank 0
  if row = pl.row + 1 then
    let rest (l : List HbmReq) : List HbmReq := l.filter (fun e => e.seq ≠ q.seq)
    let s := if urgent then s.count F.HBMC_Ss_URGENT_CNT_COUNT 1 k else s
    if q.write then
      ((s.setPc p { x with priv := rest x.priv, wr := rest x.wr }).hbmWrite q).hbmSettle p
    else
      (s.setPc p { x with
        rd := rest x.rd, flight := x.flight ++ [(q, s.hbmBytes q.addr 64, s.spareOf q.addr)] }).hbmSettle p
  else if row = 0 then
    let nr := decide (draw < s.nrProb k)
    if nr && decide (4 ≤ countP (fun n => n.1 = pl.bank) x.nr) then s
    else s.setPc p { x with
      rows := kset x.rows pl.bank (pl.row + 1) 0, nr := if nr then x.nr ++ [(pl.bank, pl.row)] else x.nr }
  else s.setPc p { x with rows := kset x.rows pl.bank 0 0 }

/-- Performs a refresh of a bank, which closes its row (R366). -/
def State.refreshBank (s : State) (p b : Nat) : State :=
  let x := s.pc p
  s.setPc p { x with due := x.due.filter (fun d => d.1 ≠ b), rows := kset x.rows b 0 0 }

/-- COMMAND_SLOT (R369): a refresh that cannot wait, a neighbour refresh, the highest-ranked request, or else a refresh
that is due. -/
def execCommandSlot (pc : Fin 64) (blocked : List (Fin 48)) (draw : Fin 65536) (s : State) :
    Host.Outcome State Fault Refusal :=
  live s fun s =>
    let x := s.pc pc
    let bl := blocked.map (·.val)
    let go (b : Nat) : Bool := !bl.contains b
    if s.hbmPaused then s else
    match x.due.find? (fun d => d.2 && go d.1) with
    | some d => s.refreshBank pc d.1
    | none =>
      match x.nr.find? (fun n => go n.1) with
      | some n =>
        (s.setPc pc { x with nr := x.nr.erase n, rows := kset x.rows n.1 0 0 }).count F.HBMC_Ss_NR_CNT_COUNT 1 (pc.val / 32)
      | none =>
        match s.pickReq x bl with
        | some (q, u) => s.serve pc q u draw
        | none =>
          match x.due.find? (fun d => go d.1) with
          | some d => s.refreshBank pc d.1
          | none => s

/-- Bytes with some bits upset. -/
def flipBytes : Bytes → Bytes → Bytes
  | [], _ => []
  | b :: bs, [] => b :: bs
  | b :: bs, f :: fs => (b ^^^ f) :: flipBytes bs fs

/-- HBM_READ_COMPLETE (R369, R373, R375): the data goes to its port as read, with the damaged indication. -/
def execHbmReadComplete (pc : Fin 64) (flip : Bytes) (s : State) : Host.Outcome State Fault Refusal :=
  live s fun s =>
    let x := s.pc pc
    match x.flight with
    | [] => s
    | (q, data, spare) :: rest =>
      if s.hbmPaused then s else
      let data := flipBytes data flip
      let d := damage q.crc data spare q.addr
      let s := (s.setPc pc { x with flight := rest }).hbmDamage q.crc q.addr d
      ({ s with hbm := { s.hbm with last := some ⟨q.port, q.addr, data, d⟩ } }).hbmDone q

/-! ### Training and tracking (R363-R365) -/

/-- The runs of passing taps from tap `i` on, as (first, length). -/
def tapRuns (v : BitVec 128) : Nat → Nat → Nat → List (Nat × Nat)
  | 0, i, cur => if cur = 0 then [] else [(i - cur, cur)]
  | n + 1, i, cur =>
    if v.getLsbD i then tapRuns v n (i + 1) (cur + 1)
    else if cur = 0 then tapRuns v n (i + 1) 0
    else (i - cur, cur) :: tapRuns v n (i + 1) 0

/-- The longest passing run, the lower of equal lengths (R363); (0, 0) where none passes. -/
def longestTaps (v : BitVec 128) : Nat × Nat :=
  (tapRuns v 128 0 0).foldl (fun b r => if b.2 < r.2 then r else b) (0, 0)

/-- The pseudo-channels that a stack's training fails (R363): an eye below 24 taps, or two or more failing pins. -/
def failedPcs (lanes : List (Nat × BitVec 128 × BitVec 128)) : Nat :=
  let bad (l : Nat × BitVec 128 × BitVec 128) : Bool :=
    decide (2 ≤ l.1) || decide ((longestTaps l.2.1).2 < 24) || decide ((longestTaps l.2.2).2 < 24)
  sumL ((List.range 32).map (fun i => if ((lanes.drop (4 * i)).take 4).any bad then 2 ^ i else 0))

/-- The narrowest eye and its lane, the lowest of equals. -/
def narrowest : Nat → List Nat → Nat × Nat
  | _, [] => (128, 0)
  | i, e :: es => let r := narrowest (i + 1) es; if r.1 < e then r else (e, i)

/-- HBM_TRAINING_DONE (R363, R365): eyes, centres and repairs; a stack with a failed pseudo-channel goes offline. A stack
trains once. -/
def execHbmTrainingDone (k : Fin 2) (us : Nat) (lanes : List (Nat × BitVec 128 × BitVec 128)) (s : State) :
    Host.Outcome State Fault Refusal :=
  live s fun s =>
    if s.flag F.HBMC_Ss_STAT_TRAINED k || !s.flag F.CLOCK_MPLL_STAT_LOCKED then s else
    let fail := failedPcs lanes
    let rdEye := narrowest 0 (lanes.map (fun l => (longestTaps l.2.1).2))
    let wrEye := narrowest 0 (lanes.map (fun l => (longestTaps l.2.2).2))
    let set (c : KMap Nat) (i : Nat) (v : BitVec 128) : KMap Nat :=
      let r := longestTaps v
      if r.2 < 24 then c else kset c i (r.1 + (r.2 - 1) / 2) 0
    let cs := (List.range 128).foldl (fun c i =>
      let l := lanes.getD i (0, 0, 0)
      set (set c (256 * k.val + 2 * i) l.2.1) (256 * k.val + 2 * i + 1) l.2.2) s.hbm.centres
    let s := { s with hbm := { s.hbm with centres := cs } }
    let s := (s.wr F.HBMC_Ss_EYE_MIN_RD_EYE (min rdEye.1 127) k).wr F.HBMC_Ss_EYE_MIN_RD_LANE rdEye.2 k
    let s := (s.wr F.HBMC_Ss_EYE_MIN_WR_EYE (min wrEye.1 127) k).wr F.HBMC_Ss_EYE_MIN_WR_LANE wrEye.2 k
    let s := (s.wr F.HBMC_Ss_REPAIR_CNT_LANES (countP (fun l => l.1 = 1) lanes) k).wr F.HBMC_Ss_PC_FAIL_PC fail k
    let s := s.maxTo F.HBMC_TRAIN_TIME_US us
    let s := (s.setf F.HBMC_Ss_STAT_TRAINED k).wr F.HBMC_STAT_TRAINED (s.rd F.HBMC_STAT_TRAINED ||| 2 ^ k.val)
    if fail = 0 then s else
      (((s.setf F.GLOBAL_STATUS_DEGRADED).setf F.HBMC_Ss_STAT_OFFLINE k).wr F.HBMC_STAT_OFFLINE (s.rd F.HBMC_STAT_OFFLINE ||| 2 ^ k.val)).raise 2 0x3201 0 k
        fail

/-- One lane's tracking (R364): the centre moves one tap toward the side that passed, when exactly one failed. -/
def State.trackLane (s : State) (k lane : Nat) (write below above : Bool) : State :=
  if below == above then s else
  let i := 256 * k + 2 * lane + b2n write
  let c := kget s.hbm.centres i 0
  let c' := if above then min (c + 1) 127 else c - 1
  ({ s with hbm := { s.hbm with centres := kset s.hbm.centres i c' 0 } }).count F.HBMC_Ss_TRACK_CNT_COUNT 1 k

/-- HBM_TRACKING (R364). -/
def execHbmTracking (k : Fin 2) (lane : Fin 128) (write : Bool) (below above : Bool) (s : State) :
    Host.Outcome State Fault Refusal :=
  live s fun s =>
    if s.hbmPaused || !s.flag F.HBMC_Ss_STAT_TRAINED k then s else s.trackLane k lane write below above

/-! ### Self-refresh (R376) -/

/-- Every row of every bank is closed, and SREF shows self-refresh; each stack counts its entry. -/
def State.enterSref (s : State) : State :=
  let s := { s with hbm := { s.hbm with pcs := s.hbm.pcs.map (fun c => (c.1, { c.2 with rows := [] })) } }
  [0, 1].foldl (fun s k => (s.setf F.HBMC_Ss_STAT_SREF k).count F.HBMC_Ss_SREF_CNT_COUNT 1 k) s

/-- MPLL lock loss (R376): queued requests are kept, and ports are held. -/
def State.hbmSelfRefresh (s : State) : State :=
  let was := s.hbmPaused
  let s := { s with hbm := { s.hbm with mpllHold := true } }
  if was then s else s.enterSref

/-- The data of every issued read of a pseudo-channel comes back. -/
def State.hbmLand (s : State) (p : Nat) : State :=
  let x := s.pc p
  x.flight.foldl (fun s f =>
    let d := damage f.1.crc f.2.1 f.2.2 f.1.addr
    let s := s.hbmDamage f.1.crc f.1.addr d
    ({ s with hbm := { s.hbm with last := some ⟨f.1.port, f.1.addr, f.2.1, d⟩ } }).hbmDone f.1) (s.setPc p { x with flight := [] })

/-- Serves every queued request of one pseudo-channel to its end, `n` of them at most. -/
def State.hbmFinish (s : State) (p : Nat) : Nat → State
  | 0 => s
  | n + 1 =>
    let x := s.pc p
    let ok := (x.priv ++ x.rd ++ x.wr).filter x.free
    match ok with
    | [] => s.hbmLand p
    | q :: _ =>
      let b := (s.reqPlace q).bank
      let s := s.setPc p { x with rows := kset x.rows b ((s.reqPlace q).row + 1) 0 }
      (s.serve p q false 65535).hbmFinish p n

/-- A supply warning or thermal emergency (R376): ports stop accepting, what is queued completes, and every pseudo-channel
enters self-refresh. Behind an MPLL loss, which keeps the queues, nothing completes. -/
def State.hbmStop (s : State) : State :=
  if s.hbm.stopHold then s
  else if s.hbm.mpllHold then { s with hbm := { s.hbm with stopHold := true } }
  else
    let s := s.hbm.pcs.foldl (fun s c =>
      let x := s.pc c.1
      let keep := x.held
      let n := x.priv.length + x.rd.length + x.wr.length
      let s := (s.setPc c.1 { x with held := [] }).hbmFinish c.1 (2 * n + 1)
      s.setPc c.1 { s.pc c.1 with held := keep }) s
    ({ s with hbm := { s.hbm with stopHold := true } }).enterSref

/-- Leaves self-refresh where nothing holds it any more, and lets held requests in. -/
def State.hbmResume (s : State) : State :=
  if s.hbmPaused then s else
  let s := [0, 1].foldl (fun s k => s.wr F.HBMC_Ss_STAT_SREF 0 k) s
  s.hbm.pcs.foldl (fun s c => s.hbmSettle c.1) s

/-- The end of a supply warning or thermal emergency. -/
def State.hbmStart (s : State) : State := ({ s with hbm := { s.hbm with stopHold := false } }).hbmResume

/-- One tracking pass (R364, R376): what each lane of each stack found, as lane, direction and the sides that passed; a lane
named again makes no second move. -/
def State.trackPass (s : State) : List (Nat × Nat) → List (Fin 2 × Fin 128 × Bool × Bool × Bool) → State
  | _, [] => s
  | seen, (k, l, w, b, a) :: r =>
    let key := (k.val, 2 * l.val + b2n w)
    if seen.contains key then s.trackPass seen r else (s.trackLane k l w b a).trackPass (key :: seen) r

/-- MPLL_RELOCK_RESUME (R376): after MPLL's relock, self-refresh is left and every lane makes one tracking pass. -/
def execMpllRelockResume (found : List (Fin 2 × Fin 128 × Bool × Bool × Bool)) (s : State) : Host.Outcome State Fault Refusal :=
  live s fun s =>
    if !s.hbm.mpllHold || !s.flag F.CLOCK_MPLL_STAT_LOCKED then s else
    let s := s.trackPass [] found
    ({ s with hbm := { s.hbm with mpllHold := false } }).hbmResume

/-! ### Commits (R377) -/

/-- The BAR0 range of stack `k`'s registers (R378). -/
def hbmcLo (k : Nat) : Nat := 0x3201000 + 0x100 * k
def hbmcHi (k : Nat) : Nat := 0x3201100 + 0x100 * k

/-- Settings that R377 refuses for their values. -/
def hbmcBad (a : Regs) (k : Nat) : Bool :=
  let hi := a.rd F.HBMC_Ss_WM_HIGH k 0
  let lo := a.rd F.HBMC_Ss_WM_LOW k 0
  decide (8 < a.rd F.HBMC_Ss_CTRL_GRAIN k 0) || lo = 0 || decide (hi ≤ lo) ||
    (List.range 8).any (fun p => let t := a.rd F.HBMC_Ss_LTp_LT k p; decide (t < 250) || decide (8000 < t))

/-- The stack carries a bandwidth reservation; it holds store space of a job, held data or a staged image. -/
def State.hbmReserved (s : State) (k : Nat) : Bool := s.used (if k = 0 then Demand.hbm0 else Demand.hbm1) ≠ 0
def State.hbmOccupied (s : State) (k : Nat) : Bool :=
  s.used (if k = 0 then Demand.store0 else Demand.store1) ≠ 0 || (k = 0 && s.mgmt.offers.any (fun o => !o.image.isEmpty))

/-- HBMC_COMMIT (R377): a write of HBMC_Ss_COMMIT. -/
def State.hbmcCommitWrite (s : State) (k : Fin 2) (v : Word) : State :=
  let snap := s.shadow (hbmcLo k) (hbmcHi k)
  let base := lastPend (kget s.hbm.pend k none) (s.active (hbmcLo k) (hbmcHi k))
  let grain := snap.rd F.HBMC_Ss_CTRL_GRAIN k 0 ≠ base.rd F.HBMC_Ss_CTRL_GRAIN k 0
  if !bit v.toNat 0 || snap = base then s
  else if s.hbmReserved k || (grain && s.hbmOccupied k) then s.setf F.HBMC_Ss_COMMIT_STAT_REJ_BUSY k
  else if hbmcBad snap k then s.setf F.HBMC_Ss_COMMIT_STAT_REJ_INVALID k
  else
    let s := s.setf F.HBMC_Ss_COMMIT_STAT_PENDING k
    { s with hbm := { s.hbm with pend := kset s.hbm.pend k (addPend (kget s.hbm.pend k none) (s.phys + 64 * tickNs) snap) none } }

/-- HBMC_COMMIT (R377). -/
def execHbmcCommit (k : Fin 2) (v : Word) (s : State) : Host.Outcome State Fault Refusal := live s fun s => s.hbmcCommitWrite k v

/-- The contents of a whole stack become undefined (R377). -/
def State.spoilStack (s : State) (k : Nat) : State :=
  let f := s.fresh
  let lo := stackBytes * k
  let hi := stackBytes * (k + 1)
  { f.2 with hbm := { f.2.hbm with
      mem := kclear f.2.hbm.mem lo hi, spare := kclear f.2.hbm.spare (lo / 64) (hi / 64)
      fill := kset f.2.hbm.fill k (f.1 + 1) 0 } }

/-- HBMC_COMMIT_APPLY (R377): at the first MCLK cycle at least 64 ns after the write. -/
def execHbmcCommitApply (k : Fin 2) (s : State) : Host.Outcome State Fault Refusal :=
  live s fun s =>
    match kget s.hbm.pend k none with
    | none => s
    | some p =>
      let s := s.toPhys p.due
      let old := s.grain k
      let s := (s.applyShadow (hbmcLo k) (hbmcHi k) p.snap).wr F.HBMC_Ss_COMMIT_STAT_PENDING (b2n p.after.isSome) k
      let s := { s with hbm := { s.hbm with pend := kset s.hbm.pend k p.after none } }
      let s := s.hbm.pcs.foldl (fun s c => if c.1 / 32 = k.val then s.hbmDrain c.1 else s) s
      if s.grain k = old then s else s.spoilStack k

end Sys2Proof.Machine
end

