-- ==== Sys2Proof/Machine/Pool.lean ====
section
/-! DEFINITION. Machine/Pool.lean: the march test of the Lumen pool and the retirement of pages ("Lumen pool and on-die
memory test", R330-R333). -/
namespace Sys2Proof.Machine

/-- Pool pages that admitted jobs reserve: HOST_RSV_POOL.JOBS. -/
def State.poolJobs (s : State) : Nat := sumL (s.admittedJobs.map (·.demand.pool))

/-- Pool pages of retained images: LUMEN_HELD_PAGES. -/
def State.heldPages (s : State) : Nat := sumL (s.host.kept.map (·.2.pool))

/-- POOL_MARCH_GO (R333): a write of POOL_MARCH_CTRL; with GO a test starts on the sides of SIDE_MASK, or is refused. -/
def State.poolMarchGoWrite (s : State) (v : Word) : State :=
  let n := v.toNat
  let s := (s.wr F.POOL_MARCH_CTRL_SIDE_MASK (bits n 3 2)).wr F.POOL_MARCH_CTRL_MODE (bits n 1 1)
  if !bit n 0 then s
  else if s.poolJobs ≠ 0 ∨ s.pool.march.isSome ∨ (bit n 1 = false ∧ s.heldPages ≠ 0) then
    s.setf F.POOL_MARCH_STAT_REJ_BUSY
  else
    let m : MarchRun := { sides := bits n 3 2, preserving := bit n 1, startup := false, began := s.phys }
    ({ s with pool := { s.pool with march := some m } }.setf F.POOL_MARCH_STAT_BUSY).setf F.POOL_STAT_MARCH_HOLD

/-- POOL_MARCH_GO (R333). -/
def execPoolMarchGo (v : Word) (s : State) : Host.Outcome State Fault Refusal := live s fun s => s.poolMarchGoWrite v

/-- Whether a test covers a page: its side is selected, and a test on request skips the management reserve (R333). -/
def State.marchCovers (s : State) (m : MarchRun) (p : Nat) : Bool :=
  bit m.sides (pageSide p) && (m.startup || !s.pool.reserve.contains p)

/-- The rows that a test covers on one side: 64 rows to a page (R319, R320). -/
def State.marchRows (s : State) (m : MarchRun) (side : Nat) : Nat :=
  if !bit m.sides side then 0
  else if m.startup then 262144
  else 64 * (4096 - countP (fun p => pageSide p = side) s.pool.reserve)

/-- A test's length in ticks (R330): 80 or 120 cycles to a row, both sides at once, at 800 MHz or on the fallback at
400 MHz. -/
def State.marchTicks (s : State) (m : MarchRun) : Nat :=
  max (s.marchRows m 0) (s.marchRows m 1) * (if m.preserving then 120 else 80) *
    (if s.flag F.CLOCK_CPLL_STAT_FALLBACK then 163840 else 81920)

/-- The contents of one row become undefined (R330). -/
def State.spoilRow (s : State) (a : Nat) : State :=
  let f := s.fresh
  f.2.poolWrite 0 (a / 64 * 64) ((List.range 64).map (fun i => Config.freeByte (f.1 + 1) (a / 64 * 64 + i)))

/-- A failing row retires its page, once (R331). -/
def State.retirePage (s : State) (a : Nat) : State :=
  let p := a / pageSize
  let s := (s.spoilRow a).ledgerAdd ctrPool
  let b := a / 64 % 32 + 32 * pageSide p
  let s := if b < 32 then s.wr F.POOL_MARCH_FAIL_LO_BANKS (s.rd F.POOL_MARCH_FAIL_LO_BANKS ||| 2 ^ b)
    else s.wr F.POOL_MARCH_FAIL_HI_BANKS (s.rd F.POOL_MARCH_FAIL_HI_BANKS ||| 2 ^ (b - 32))
  if s.pool.retired.contains p then s else
  let s := { s with pool := { s.pool with retired := s.pool.retired ++ [p] } }
  let n := s.pool.retired.length
  let s := (s.wr F.POOL_RETIRED_PAGES n).setf F.POOL_MARCH_STAT_FAIL
  let s := if 64 < n then (s.setf F.POOL_STAT_DEGRADED).setf F.GLOBAL_STATUS_DEGRADED else s
  s.raise (if 64 < n then 2 else 1) 0x3001 0 p (a / 64 * 64)

/-- The highest-numbered `n` pages of a side that have not been retired (R322). -/
def State.topPages (s : State) (side n : Nat) : List Nat :=
  ((((List.range 4096).map (fun i => 4096 * side + 4095 - i)).filter (fun p => !s.pool.retired.contains p)).take n)

/-- The pages that a destructive test covers end all zero (R330). -/
def State.zeroPages (s : State) (ps : List Nat) : State :=
  { s with pool := { s.pool with
    mem := ps.foldl (fun m p => kclear m (pageSize * p) (pageSize * (p + 1))) s.pool.mem
    fill := ps.foldl (fun f p => kset f p 0 0) s.pool.fill } }

/-- The bank that a test covers last. -/
def lastBank (sides : Nat) : Nat := if bit sides 1 then 63 else 31

/-- MARCH_TEST_DONE (R330-R333): the test's results. Failing rows are named by a pool byte address and the background of
the failure; the start-up test also settles the management reserve (R322). -/
def execMarchTestDone (rows : List (Nat × Nat)) (s : State) : Host.Outcome State Fault Refusal :=
  live s fun s =>
    match s.pool.march with
    | none => s
    | some m =>
      let len := s.marchTicks m
      let s := s.toPhys (m.began + len)
      let fails := rows.filter (fun r => decide (r.1 < 2 ^ 25) && s.marchCovers m (r.1 / pageSize))
      let s := if m.preserving then s else s.zeroPages ((List.range 8192).filter (s.marchCovers m))
      let s := (s.wr F.POOL_MARCH_FAIL_LO_BANKS 0).wr F.POOL_MARCH_FAIL_HI_BANKS 0
      let s := s.wr F.POOL_MARCH_STAT_FAIL 0
      let s := match fails with
        | r :: _ => (s.wr F.POOL_MARCH_FIRST_BKG r.2).wr F.POOL_MARCH_FIRST_ADDR (r.1 / 64 * 64)
        | [] => (s.wr F.POOL_MARCH_FIRST_BKG 0).wr F.POOL_MARCH_FIRST_ADDR 0
      let s := fails.foldl (fun s r => s.retirePage r.1) s
      let s := ((s.setf F.POOL_MARCH_STAT_DONE).wr F.POOL_MARCH_STAT_BUSY 0).wr F.POOL_MARCH_STAT_BANK (lastBank m.sides)
      let s := (s.wr F.POOL_MARCH_TIME_US (len / tickUs)).count F.POOL_MARCH_RUN_CNT_COUNT
      let s := { s with pool := { s.pool with march := none } }
      if m.startup then
        let s := { s with
          pool := { s.pool with reserve := s.topPages 0 128 ++ s.topPages 1 128 }
          power := { s.power with poolDone := true } }
        s.setf F.POOL_STAT_TESTED
      else s.wr F.POOL_STAT_MARCH_HOLD 0

/-- A supply warning or a thermal emergency stops a test at once (R333): the rows under test, one in each side's bank
under test, hold undefined contents; which rows they are is not known outside. How far a
destructive test had come is not known either, so every page that it covers holds undefined contents. -/
def State.marchStop (s : State) : State :=
  match s.pool.march with
  | none => s
  | some m =>
    let row (s : State) (side : Nat) : State :=
      if bit m.sides side then
        let f := s.fresh
        f.2.spoilRow (2 ^ 24 * side + Config.freeNat f.1 % 2 ^ 24)
      else s
    let s := row (row s 0) 1
    let s := if m.preserving then s else s.spoilPages ((List.range 8192).filter (s.marchCovers m))
    let s := { s with pool := { s.pool with march := none } }
    ((((s.wr F.POOL_MARCH_STAT_BUSY 0).wr F.POOL_MARCH_STAT_FAIL 0).setf F.POOL_MARCH_STAT_INCOMPLETE)).wr
      F.POOL_STAT_MARCH_HOLD 0

end Sys2Proof.Machine
end

