-- ==== Sys2Proof/Machine/Faults.lean ====
section
/-! DEFINITION. Machine/Faults.lean: what an SSYN lock loss, a time step and the end of the clock hold do to each block that
runs from SSYN (R125, R153, R222, R242, R270, R383, R389). -/
namespace Sys2Proof.Machine

/-- A lock loss ends a CALIBRATE in progress CLOCK_FAULT (R102); its report shows the channels not run (R98). -/
def State.calLoss (s : State) : State :=
  s.prism.cal.foldl (fun s (r : CalRun) =>
    if r.jid = 0 then s else
    let s := s.calCut r.jid
    match s.job? r.jid with
    | none => s
    | some j =>
      if j.fld 16 8 = 0 then s.endJob r.jid (fun j => { j with fClock := true })
      else (s.updJob r.jid (fun j => { j with fClock := true, autoEnd := true })).queueElems r.jid (s.chanOn r.jid 0)
        (outElems (j.fld 16 8) (r.report ++ (r.todo.map r.notRun).flatten))) s

/-- The effect of an SSYN lock loss with T_loss = `t` on every block beside Lantern (R383). -/
def State.blocksLoss (s : State) (t : Nat) : State :=
  let s := s.recLoss.calLoss
  let s := (List.range 2).foldl (fun s i => ((s.bcnLoss i).glimLoss i t).ftLoss i t) s
  s.glLoss

/-- A pending commit's instant moved by whole cycles. -/
def PendCommit.move (d : Int) (p : PendCommit) : PendCommit := { p with
  due := ((p.due : Int) + d).toNat, more := p.more.map (fun x => (((x.1 : Int) + d).toNat, x.2)) }

/-- The whole cycles `d` of a time step move a channel's times (R389). A word in progress at `told` keeps its own, and its end
takes the rest of the channel's. -/
def PrismCh.stepBy (told : Nat) (on : Bool) (d : Int) (c : PrismCh) : PrismCh :=
  let x : PrismCh := { c with
    settleEnd := byCycles d c.settleEnd
    cfgPend := c.cfgPend.map (fun (q : CfgReq) => { q with due := byCycles d q.due })
    rangePend := c.rangePend.map (fun (q : RangeReq) => { q with due := byCycles d q.due })
    lastAcc := c.lastAcc.map (byCycles d), bgSince := byCycles d c.bgSince, calAt := byCycles d c.calAt }
  if on && decide (c.nextT < told) then { x with shift := x.shift + d }
  else ({ x with nextT := byCycles d x.nextT } : PrismCh).runsBy d

/-- They move what a play has counted up to; T_start, and with it the play's schedule, is a device time and stays (R196, R222). -/
def Play.stepBy (d : Int) (p : Play) : Play :=
  if p.started then { p with floor := byCycles d p.floor, probeEnd := byCycles d p.probeEnd } else p

/-- They move what the fibre engines count from (R205, R231, R389). -/
def FibreSt.stepBy (d : Int) (x : FibreSt) : FibreSt := { x with
  beacons := x.beacons.map (fun b => (b.1, { b.2 with play := b.2.play.map (Play.stepBy d) }))
  glims := x.glims.map (fun g => (g.1, g.2.map (fun (r : GRun) =>
    { r with anchor := byCycles d r.anchor, frames := r.frames.map (fun (q : GFrame) => { q with anchor := byCycles d q.anchor }) })))
  fts := x.fts.map (fun g => (g.1, g.2.map (fun (r : FtRun) => { r with last := r.last.map (byCycles d) })))
  anchors := x.anchors.map (fun l => (l.1, l.2.map (byCycles d))) }

/-- The whole cycles `d` of a time step at `told` move what was due a number of cycles ahead and what is counted from a past
instant (R389): each input's word boundaries after the word in progress, commits that wait, interpolators in use, and
captures' rate accounts. -/
def State.blocksStep (s : State) (told : Nat) (d : Int) : State :=
  let gi (x : GlIn) : GlIn := { x with
    freeA := byCycles d x.freeA, freeB := byCycles d x.freeB, lvlAt := byCycles d x.lvlAt, from' := byCycles d x.from', calAt := byCycles d x.calAt
    scaleAt := byCycles d x.scaleAt }
  let gr (r : GlRun) : GlRun :=
    { r with armAt := if r.armed then byCycles d r.armAt else r.armAt, lastClose := r.lastClose.map (byCycles d) }
  let cap (k : Capt) : Capt := { k with
    tat := byCycles d k.tat, due := byCycles d k.due, armed := k.armed.map (byCycles d), stopAt := k.stopAt.map (byCycles d) }
  { s with
    prism := { s.prism with chs :=
      (s.prism.chs.map (fun c => (c.1, c.2.stepBy told (s.chOn c.1) d))).filter (fun c => c.2 ≠ {}) }
    lan := { s.lan with
      pend := s.lan.pend.map (PendCommit.move d), applyT := byCycles d s.lan.applyT
      lastExport := (s.lan.lastExport.map (fun c => (c.1, byCycles d c.2))).filter (fun c => c.2 ≠ 0)
      lastLine := (s.lan.lastLine.map (fun c => (c.1, byCycles d c.2))).filter (fun c => c.2 ≠ 0) }
    fibre := s.fibre.stepBy d
    glint := { s.glint with
      pend := s.glint.pend.map (PendCommit.move d), runs := s.glint.runs.map gr
      ins := (s.glint.ins.map (fun c => (c.1, gi c.2))).filter (fun c => c.2 ≠ {}) }
    record := { s.record with capts := s.record.capts.map cap, agPend := s.record.agPend.map (PendCommit.move d) } }

/-- The end of the clock hold (R125): units start, inputs stamp again, plays resume, and jobs with AUTO_RESUME continue;
the others end CLOCK_FAULT. -/
def State.blocksResume (s : State) (t : Nat) : State :=
  let s := (s.lanHoldEnd t).recHoldEnd
  let s := (List.range 2).foldl (fun s b =>
    let resume := match (s.bcn b).play with
      | some p => p.owner = 0 || ((s.job? p.owner).map (·.autoResume)).getD false
      | none => false
    ((s.bcnHoldEnd b resume).glimHoldEnd b).ftHoldEnd b) s
  s.glHoldEnd

end Sys2Proof.Machine
end

