-- ==== Sys2Proof/Machine/Clocks.lean ====
section
/-! DEFINITION. Machine/Clocks.lean: the synthesisers, their references, coasting and return, lock loss, device time and
its steps, and the Ernos array ("Clocks, device time and the Ernos array"). -/
namespace Sys2Proof.Machine

/-- The BAR0 range of the CLOCK and ERNOS block (R400). -/
def clkLo : Nat := 0x3400000
def clkHi : Nat := 0x3600000

/-- Applies `f` to the clock state. -/
def State.onClk (s : State) (f : ClockSt → ClockSt) : State := { s with clk := f s.clk }

/-- The reference that a set of CLOCK settings selects (R379, R390): a member takes the Ernos clock. -/
def selIn (a : Regs) : Nat :=
  if a.rd F.ERNOS_CTRL_ROLE 0 0 = 2 then 2 else a.rd F.CLOCK_SSYN_CTRL_SRC 0 0

/-- SSYN's selected reference. -/
def State.selRef (s : State) : Nat := selIn s.act

/-- The reference that SSYN works from: XIN with ON_XIN, else the selected one (R386). -/
def State.effRef (s : State) : Nat := if s.flag F.CLOCK_SSYN_STAT_ON_XIN then 0 else s.selRef

/-- This device is an array member. -/
def State.isMember (s : State) : Bool := s.ract F.ERNOS_CTRL_ROLE = 2

/-- The presence bit of a reference. -/
def presentFld (r : Nat) : Fld :=
  if r = 0 then F.CLOCK_REF_STAT_XIN else if r = 1 then F.CLOCK_REF_STAT_REFIN else F.CLOCK_REF_STAT_ERN

/-- Whether a reference is present (R382). -/
def State.present (s : State) (r : Nat) : Bool := s.flag (presentFld r)

/-- REFIN's frequencies in MHz by REFIN_FREQ (R400). -/
def refinMhz : List Nat := [10, 25, 50, 100, 125, 250]

/-- A lock loss is in progress: SSYN has locked once and is not locked. -/
def State.inLoss (s : State) : Bool := s.running && !s.flag F.CLOCK_SSYN_STAT_LOCKED

/-! ### Alignment status (R393) -/

/-- The first condition of R393 that does not hold, 0 where all hold. The head and a standalone device have only the first
and the last. -/
def State.alignFail (s : State) : Nat :=
  let off := (sgn 32 (s.rd F.ERNOS_OFFSET_OFFSET)).natAbs
  if !s.clk.alignedOnce then 1
  else if s.isMember && !s.present 2 then 2
  else if s.isMember && (decide (s.rd F.ERNOS_ALIGN_TOL_TICKS < off) || s.clk.offsetBad.isSome) then 3
  else if !s.flag F.ERNOS_STAT_TRIG_OK then 4 else 0

/-- ALIGNED follows the conditions of R393; ALIGN_LOST is raised where it clears. -/
def State.alignCheck (s : State) : State :=
  let c := s.alignFail
  if c = 0 then s.setf F.ERNOS_STAT_ALIGNED
  else if s.flag F.ERNOS_STAT_ALIGNED then
    let src := if s.isMember then 0x10 + s.rd F.ERNOS_STAT_UPSTREAM else 0x12
    (((s.wr F.ERNOS_STAT_ALIGNED 0).setf F.ERNOS_STAT_ALIGN_LOST).count F.ERNOS_ALIGN_LOST_CNT_COUNT).raise 2 0x3411 src
      (unsg 64 (sgn 32 (s.rd F.ERNOS_OFFSET_OFFSET))) c
  else s

/-! ### Lock loss and relock (R383, R387) -/

/-- Forgets the lock detector of a loop. -/
def State.clearLoop (s : State) (l : Nat) : State := s.onClk (fun c => { c with loops := kset c.loops l {} {} })

/-- The hold DAC takes the tune average (R384): the reading is not one that the rules fix. -/
def State.loadDac (s : State) : State :=
  let f := s.fresh
  f.2.wr F.CLOCK_HOLD_DAC (Config.freeNat f.1)

/-- An SSYN lock loss with T_loss = `t` (R383, R387): `step` says that it is a time step's, which raises no
SSYN_LOCK_LOST and does not count in the ledger (R389). A loss during a loss only starts the lock counters anew, and a time
step is counted then too. -/
def State.ssynLoss (s : State) (t : Nat) (step : Bool) : State :=
  let s := s.clearLoop 0
  if !s.running || (s.inLoss && !step) then s else
  let again := s.inLoss
  let s := ((s.setf F.CLOCK_SSYN_STAT_LOCK_LOST).wr F.CLOCK_SSYN_STAT_LOCKED 0).count F.CLOCK_SSYN_LOSS_CNT_COUNT
  if again then s else
  let s := s.onClk (fun c => { c with lossT := some t, relockT := none, holdEnd := none, lossAt := s.phys })
  let s := if step then s.loadDac.lanStep t else s.loadDac.lanHold t
  let s := if step then s else (s.raise 2 0x3403 0 (t % 2 ^ 64) 0).ledgerAdd (ctrLock 0)
  s.blocksLoss t

/-- SSYN locks (R381, R383): the first lock starts device time; a later one ends the lock loss at T_relock, and the clock
hold ends 2 ms later (R387). Locked to its selected reference, SSYN no longer coasts or waits. -/
def State.ssynLock (s : State) : State :=
  let s := (s.setf F.CLOCK_SSYN_STAT_LOCKED).wr F.CLOCK_SSYN_STAT_STEPPING 0
  if !s.running then { s with running := true } else
  let t := s.boundary
  let s := (s.onClk (fun c => { c with relockT := some t, holdEnd := some (t + 2 * tickMs) })).calClean t
  if s.effRef = s.selRef then
    ((s.wr F.CLOCK_SSYN_STAT_COASTING 0).wr F.CLOCK_SSYN_STAT_RETURN_WAIT 0).onClk (fun c =>
      { c with coastAt := none, unmeasured := false })
  else s

/-- CPLL loses lock (R387): with XIN present the core clocks move to the fallback; without it no core clock remains. -/
def State.cpllLoss (s : State) : State :=
  if !s.present 0 then { s with dead := true } else
  let s := (((s.setf F.CLOCK_CPLL_STAT_FALLBACK).setf F.CLOCK_CPLL_STAT_LOCK_LOST).wr F.CLOCK_CPLL_STAT_LOCKED 0).count
    F.CLOCK_CPLL_LOSS_CNT_COUNT
  ((s.clearLoop 1).raise 2 0x3404 1 s.stamp 0).ledgerAdd (ctrLock 1)

/-- MPLL loses lock (R376, R387). -/
def State.mpllLoss (s : State) : State :=
  let s := ((s.setf F.CLOCK_MPLL_STAT_LOCK_LOST).wr F.CLOCK_MPLL_STAT_LOCKED 0).count F.CLOCK_MPLL_LOSS_CNT_COUNT
  (((s.clearLoop 2).raise 2 0x3405 2 s.stamp 0).ledgerAdd (ctrLock 2)).hbmSelfRefresh

/-- The lock flag of a loop. -/
def lockedFld (l : Nat) : Fld :=
  if l = 0 then F.CLOCK_SSYN_STAT_LOCKED else if l = 1 then F.CLOCK_CPLL_STAT_LOCKED else F.CLOCK_MPLL_STAT_LOCKED

/-- A loop's phase detector compares edges: its reference is present, and SSYN is not on the hold DAC of a coast. -/
def State.comparing (s : State) (l : Nat) : Bool :=
  if l = 0 then s.present s.effRef && (s.inLoss || !s.flag F.CLOCK_SSYN_STAT_COASTING) else s.present 0

/-- A loop loses lock. -/
def State.loopLoss (s : State) (l : Nat) : State :=
  if l = 0 then s.ssynLoss s.boundary false else if l = 1 then s.cpllLoss else s.mpllLoss

/-- A loop locks. -/
def State.loopLock (s : State) (l : Nat) : State :=
  if l = 0 then s.ssynLock
  else if l = 1 then (s.setf F.CLOCK_CPLL_STAT_LOCKED).onClk (fun c => { c with cpllAt := s.phys })
  else s.setf F.CLOCK_MPLL_STAT_LOCKED

/-- LOCK_WINDOW (R383): locked after 8 consecutive equal windows, lost by a difference of 2 or two consecutive ones. -/
def execLockWindow (loop : Fin 3) (diff : Nat) (s : State) : Host.Outcome State Fault Refusal :=
  live s fun s =>
    let l := loop.val
    if !s.comparing l then s else
    let x := kget s.clk.loops l {}
    let set (y : LoopSt) : State := s.onClk (fun c => { c with loops := kset c.loops l y {} })
    if s.flag (lockedFld l) then
      if decide (2 ≤ diff) || (diff = 1 && x.one) then s.loopLoss l else set { eq := 0, one := diff = 1 }
    else if diff ≠ 0 then set {}
    else if 8 ≤ x.eq + 1 then (set {}).loopLock l
    else set { eq := x.eq + 1 }

/-- SSYN_PHASE_ERROR (R383): beyond CLOCK_PHASE_TOL at two consecutive reference edges. -/
def execSsynPhaseError (e1 e2 : Nat) (s : State) : Host.Outcome State Fault Refusal :=
  live s fun s =>
    let tol := s.rd F.CLOCK_PHASE_TOL_PS
    if s.comparing 0 && s.flag F.CLOCK_SSYN_STAT_LOCKED && decide (tol < e1) && decide (tol < e2) then
      s.ssynLoss s.boundary false
    else s

/-- CPLL_FALLBACK (R387). -/
def execCpllFallback (s : State) : Host.Outcome State Fault Refusal :=
  live s fun s => if s.present 0 && s.flag F.CLOCK_CPLL_STAT_LOCKED then s.cpllLoss else s

/-- CPLL_FALLBACK_RETURN (R387): 1 ms after relock. -/
def execCpllFallbackReturn (s : State) : Host.Outcome State Fault Refusal :=
  live s fun s =>
    if s.flag F.CLOCK_CPLL_STAT_FALLBACK && s.flag F.CLOCK_CPLL_STAT_LOCKED then
      (s.toPhys (s.clk.cpllAt + tickMs)).wr F.CLOCK_CPLL_STAT_FALLBACK 0
    else s

/-- MPLL_LOCK_LOST (R387). -/
def execMpllLockLost (s : State) : Host.Outcome State Fault Refusal :=
  live s fun s => if s.flag F.CLOCK_MPLL_STAT_LOCKED then s.mpllLoss else s

/-- CORE_CLOCK_LOSS (R387): the device stops until POR_N. -/
def execCoreClockLoss (s : State) : Host.Outcome State Fault Refusal :=
  live s fun s => if s.present 0 then s else { s with dead := true }

/-! ### References (R382-R386) -/

/-- SSYN begins to coast (R384). -/
def State.coastBegin (s : State) : State :=
  let s := ((s.setf F.CLOCK_SSYN_STAT_COASTING).setf F.CLOCK_SSYN_STAT_REF_LOST).count F.CLOCK_COAST_CNT_COUNT
  (s.loadDac.clearLoop 0).onClk (fun c => { c with coastAt := some s.phys })

/-- XIN becomes absent (R387): XIN_LOST, the AMU's clock stops, and with CPLL on its fallback, which XIN drives, no core
clock remains. -/
def State.xinLost (s : State) : State :=
  let s := ((s.setf F.POWER_ALERT_XIN).raise 2 0x3406 3 s.stamp 0).amuStop
  if s.flag F.CLOCK_CPLL_STAT_FALLBACK then { s with dead := true } else s

/-- Shows REF_PRESENT. -/
def State.showPresent (s : State) : State := s.wr F.CLOCK_SSYN_STAT_REF_PRESENT (b2n (s.present s.selRef))

/-- Reference `r` becomes absent (R382-R385, R387, R393). -/
def State.refLost (s : State) (r : Nat) : State :=
  let s := s.onClk (fun c => { c with good := kset c.good r 0 0 })
  if !s.present r then s else
  let eff := s.effRef
  let s := (s.wr (presentFld r) 0).showPresent
  let s := if r = 0 then s.xinLost else s
  if s.dead then s else
  let s := if r = s.selRef then
      (s.wr F.CLOCK_SSYN_STAT_RETURN_WAIT 0).onClk (fun c => { c with absentAt := s.phys, unmeasured := false })
    else s
  let s := if r = s.selRef ∨ r = eff then s.raise 1 0x3401 0 r 0 else s
  let s := if r = eff && s.flag F.CLOCK_SSYN_STAT_LOCKED && !s.flag F.CLOCK_SSYN_STAT_COASTING then s.coastBegin else s
  s.alignCheck

/-- Reference `r` becomes present (R382); its step is to be measured where SSYN coasts or runs on XIN (R385, R386). -/
def State.refBack (s : State) (r : Nat) : State :=
  if s.present r then s else
  let s := (s.setf (presentFld r)).showPresent
  let s := if r = 0 then s.amuStart else s
  let away := s.flag F.CLOCK_SSYN_STAT_COASTING || (r = s.selRef && s.flag F.CLOCK_SSYN_STAT_ON_XIN)
  let s := if away && (r = s.selRef || r = s.effRef) then s.onClk (fun c => { c with unmeasured := true }) else s
  s.alignCheck

/-- One reference's presence window (R382): within 10 % of the count expected of `mhz` over 31.25 ms. -/
def State.window (s : State) (r mhz n : Nat) : State :=
  if 9 * (mhz * 31250) ≤ 10 * n ∧ 10 * n ≤ 11 * (mhz * 31250) then
    let g := kget s.clk.good r 0 + 1
    let s := s.onClk (fun c => { c with good := kset c.good r (min g 2) 0 })
    if 2 ≤ g then s.refBack r else s
  else s.refLost r

/-- PRESENCE_WINDOW (R382): every reference is judged, and CLOCK_REFIN_MEAS shows REFIN's count in kHz. -/
def execPresenceWindow (xin refin ern : Nat) (s : State) : Host.Outcome State Fault Refusal :=
  live s fun s =>
    let s := s.wr F.CLOCK_REFIN_MEAS_KHZ (min (refin * 4 / 125) 0x3FFFF)
    let s := s.window 0 100 xin
    if s.dead then s else
    (s.window 1 (refinMhz.getD (s.ract F.CLOCK_SSYN_CTRL_REFIN_FREQ) 100) refin).window 2 100 ern

/-- MISSING_EDGE (R382): XIN, at CPLL and MPLL, and SSYN's selected reference feed a phase detector. -/
def execMissingEdge (r : Fin 3) (s : State) : Host.Outcome State Fault Refusal :=
  live s fun s => if r.val = 0 ∨ r.val = s.selRef then s.refLost r else s

/-- SSYN builds out to its returned reference (R385): to the selected one where that is present, else to XIN. -/
def State.buildOut (s : State) : State :=
  let s := (s.wr F.CLOCK_SSYN_STAT_RETURN_WAIT 0).wr F.CLOCK_SSYN_STAT_COASTING 0
  let s := if s.present s.selRef then s.wr F.CLOCK_SSYN_STAT_ON_XIN 0 else s
  (s.clearLoop 0).onClk (fun c => { c with coastAt := none, unmeasured := false })

/-- REFERENCE_RETURN (R385): the step is recorded; within the window SSYN builds out, beyond it software chooses. -/
def execReferenceReturn (step : Int) (s : State) : Host.Outcome State Fault Refusal :=
  live s fun s =>
    if !s.clk.unmeasured || s.inLoss then s else
    let s := (s.wr F.CLOCK_REFRET_STEP_STEP (unsg 32 step)).count F.CLOCK_REFRET_CNT_COUNT
    let s := s.onClk (fun c => { c with unmeasured := false })
    if step.natAbs ≤ 256 * s.rd F.CLOCK_REFRET_WINDOW_WINDOW then s.buildOut.raise 1 0x3402 0 (unsg 64 step) 0
    else (s.setf F.CLOCK_SSYN_STAT_RETURN_WAIT).raise 1 0x3402 0 (unsg 64 step) 1

/-- BUILD_OUT (R385): a write of CLOCK_REFRET_CMD; no effect while RETURN_WAIT is 0. -/
def State.buildOutWrite (s : State) (v : Word) : State :=
  if bit v.toNat 0 && s.flag F.CLOCK_SSYN_STAT_RETURN_WAIT then s.buildOut else s

/-- BUILD_OUT (R385). -/
def execBuildOut (v : Word) (s : State) : Host.Outcome State Fault Refusal := live s fun s => s.buildOutWrite v

/-- Whether a coast limit applies (R383, R386). -/
def State.coastLimited (s : State) : Bool :=
  s.ract F.CLOCK_SSYN_CTRL_AUTO_XIN = 1 && !s.isMember && decide (0 < s.rd F.CLOCK_COAST_LIMIT_S) && s.selRef ≠ 0

/-- COAST_LIMIT_EXPIRY (R383, R386): SSYN switches to XIN; a reference that waits is measured again against XIN. -/
def execCoastLimitExpiry (s : State) : Host.Outcome State Fault Refusal :=
  live s fun s =>
    let lim := s.rd F.CLOCK_COAST_LIMIT_S * tickS
    if !s.coastLimited || !s.present 0 then s
    else if s.inLoss then
      if s.present s.selRef then s
      else ((s.toPhys (max s.clk.lossAt s.clk.absentAt + lim)).setf F.CLOCK_SSYN_STAT_ON_XIN).clearLoop 0
    else match s.clk.coastAt with
      | none => s
      | some a =>
        let s := s.toPhys (a + lim)
        let wait := s.flag F.CLOCK_SSYN_STAT_RETURN_WAIT
        let s := ((s.wr F.CLOCK_SSYN_STAT_COASTING 0).wr F.CLOCK_SSYN_STAT_RETURN_WAIT 0).setf F.CLOCK_SSYN_STAT_ON_XIN
        (s.clearLoop 0).onClk (fun c => { c with coastAt := none, unmeasured := wait || c.unmeasured })

/-! ### Commits (R380) -/

/-- The reference frequency in MHz that a set of settings names. -/
def refMhz (a : Regs) : Nat :=
  if selIn a = 1 then refinMhz.getD (a.rd F.CLOCK_SSYN_CTRL_REFIN_FREQ 0 0) 0 else 100

/-- The settings break R380 or R400. -/
def clkBad (a : Regs) : Bool :=
  let f := refMhz a
  let d := a.rd F.CLOCK_SSYN_DIV_REF_DIV 0 0
  let b := a.rd F.CLOCK_SSYN_DIV_FB_DIV 0 0
  decide (5 < a.rd F.CLOCK_SSYN_CTRL_REFIN_FREQ 0 0) || a.rd F.CLOCK_SSYN_CTRL_SRC 0 0 = 3 ||
    a.rd F.ERNOS_CTRL_ROLE 0 0 = 3 || d = 0 || decide (f < 10 * d) || decide (250 * d < f) || f * b ≠ 16000 * d

/-- CLOCK_COMMIT (R380): a write of CLOCK_COMMIT. -/
def State.clockCommitWrite (s : State) (v : Word) : State :=
  let snap := s.shadow clkLo clkHi
  if !bit v.toNat 0 || snap = lastPend s.clk.pend (s.active clkLo clkHi) then s
  else if !s.host.jobs.isEmpty || s.flag F.CLOCK_SSYN_STAT_STEPPING then s.setf F.CLOCK_COMMIT_STAT_REJ_BUSY
  else if clkBad snap then s.setf F.CLOCK_COMMIT_STAT_REJ_INVALID
  else (s.setf F.CLOCK_COMMIT_STAT_PENDING).onClk (fun c => { c with pend := addPend c.pend (s.phys + 64 * tickNs) snap })

/-- CLOCK_COMMIT (R380). -/
def execClockCommit (v : Word) (s : State) : Host.Outcome State Fault Refusal := live s fun s => s.clockCommitWrite v

/-- The settings of SSYN's reference and dividers, which a change relocks. -/
def ssynCfg (a : Regs) : Nat × Nat × Nat × Nat :=
  (selIn a, refMhz a, a.rd F.CLOCK_SSYN_DIV_REF_DIV 0 0, a.rd F.CLOCK_SSYN_DIV_FB_DIV 0 0)

/-- The Ernos settings, which a change of clears ALIGNED (R400). -/
def ernCfg (a : Regs) : Nat × Nat := (a.rd F.ERNOS_CTRL_ROLE 0 0, a.rd F.ERNOS_CTRL_PORT_EN 0 0)

/-- A change of ROLE or PORT_EN (R390, R400): links of disabled ports are no longer trained, and with a new role the
upstream port is not known. -/
def State.ernChange (s : State) (role : Bool) : State :=
  let en := s.ract F.ERNOS_CTRL_PORT_EN
  let s := if bit en 0 then s else s.wr F.ERNOS_STAT_UP_UP 0
  let s := if bit en 1 then s else s.wr F.ERNOS_STAT_DN_UP 0
  let s := s.onClk (fun c => { c with alignedOnce := false, upstream := c.upstream && !role })
  let s := if role then (s.wr F.ERNOS_STAT_HEAD_SEEN 0).wr F.ERNOS_STAT_UPSTREAM 0 else s
  s.alignCheck

/-- CLOCK_COMMIT_APPLY (R380): at an always-on edge at least 64 ns after the write; a changed reference or divider relocks
SSYN. -/
def execClockCommitApply (s : State) : Host.Outcome State Fault Refusal :=
  live s fun s =>
    match s.clk.pend with
    | none => s
    | some p =>
      let s := s.toPhys p.due
      let old := s.act
      let s := (s.applyShadow clkLo clkHi p.snap).wr F.CLOCK_COMMIT_STAT_PENDING (b2n p.after.isSome)
      let s := (s.onClk (fun c => { c with pend := p.after })).showPresent
      let s := if ssynCfg old ≠ ssynCfg s.act then
          let s := ((s.wr F.CLOCK_SSYN_STAT_COASTING 0).wr F.CLOCK_SSYN_STAT_RETURN_WAIT 0).wr F.CLOCK_SSYN_STAT_ON_XIN 0
          let s := s.onClk (fun c => { c with coastAt := none, unmeasured := false, absentAt := s.phys })
          s.ssynLoss s.boundary false
        else s
      if ernCfg old ≠ ernCfg s.act then s.ernChange ((ernCfg old).1 ≠ (ernCfg s.act).1) else s

/-! ### Device time (R7, R388, R389) -/

/-- A read of CLOCK_TIME_LO captures the device time of an SCLK cycle and latches HI and EPOCH (R388). -/
def State.clockTimeRead (s : State) : State :=
  let t := s.boundary
  let s := (s.wr F.CLOCK_TIME_HI_TIME (t / 2 ^ 32)).wr F.CLOCK_EPOCH_EPOCH (t / 2 ^ 64)
  s.emit (.readData 0x3400030 (BitVec.ofNat 32 t))

/-- CLOCK_TIME_READ (R388). -/
def execClockTimeRead (s : State) : Host.Outcome State Fault Refusal :=
  liveRead s 0x3400030 fun s => s.clockTimeRead

/-- EPOCH_WRAP (R7): the clock runs to the wrap, where the event is written. -/
def execEpochWrap (s : State) : Host.Outcome State Fault Refusal :=
  live s fun s => s.toDev ((s.devTime / 2 ^ 64 + 1) * 2 ^ 64)

/-- A time step by `d` at the present instant (R389): the lock loss at T, then the counter takes the whole cycles of `d` at
once, and SSYN relocks to take up the rest. -/
def State.timeStep (s : State) (d : Int) : State :=
  let told := s.boundary
  let w := Int.tdiv d 32768 * 32768
  let t := (((told : Int) + w) % (2 ^ 96 : Nat)).toNat
  let s := ((s.setf F.CLOCK_SSYN_STAT_STEPPING).count F.CLOCK_STEP_CNT_COUNT).wr F.CLOCK_SSYN_STAT_RETURN_WAIT 0
  let s := (s.wr F.CLOCK_SSYN_STAT_COASTING 0).wr F.CLOCK_SSYN_STAT_ON_XIN 0
  let s := (s.onClk (fun c => { c with coastAt := none, unmeasured := false })).ssynLoss told true
  let s := { s with devTime := t }.blocksStep told w
  (s.onClk (fun c => { c with lossT := c.lossT.map (byCycles w) })).raise 1 0x3407 0 (unsg 64 d) (t % 2 ^ 64)

/-! ### The Ernos array (R390-R398) -/

/-- ERN_LINK_UP (R390): an enabled port's link trains; on a member the first one toward the head is the upstream port. -/
def execErnLinkUp (port : Fin 2) (toHead : Bool) (s : State) : Host.Outcome State Fault Refusal :=
  live s fun s =>
    if !bit (s.ract F.ERNOS_CTRL_PORT_EN) port then s else
    let s := s.setf (if port.val = 0 then F.ERNOS_STAT_UP_UP else F.ERNOS_STAT_DN_UP)
    if s.isMember && toHead then
      let s := s.setf F.ERNOS_STAT_HEAD_SEEN
      if s.clk.upstream then s
      else (s.wr F.ERNOS_STAT_UPSTREAM port).onClk (fun c => { c with upstream := true })
    else s

/-- ERN_LINK_DOWN (R390): a trained link fails. -/
def execErnLinkDown (port : Fin 2) (s : State) : Host.Outcome State Fault Refusal :=
  live s fun s =>
    let f := if port.val = 0 then F.ERNOS_STAT_UP_UP else F.ERNOS_STAT_DN_UP
    if !s.flag f then s else
    let s := ((s.wr f 0).setf F.ERNOS_STAT_LINK_DOWN).count F.ERNOS_LINK_DOWN_CNT_COUNT
    let s := if s.isMember && s.clk.upstream && s.rd F.ERNOS_STAT_UPSTREAM = port.val then s.wr F.ERNOS_STAT_HEAD_SEEN 0 else s
    s.raise 2 0x3410 (0x10 + port.val) port s.stamp

/-- ERNOS_PROBE (R392-R394): the tracked delay of a link, and on a member the head delay and the time error; TRIG_OK
follows the trigger reach. An offset outside the tolerance counts for 1 ms (R393). -/
def execErnosProbe (port : Fin 2) (delay headDelay : Nat) (offset : Int) (reach errors : Nat) (s : State) :
    Host.Outcome State Fault Refusal :=
  live s fun s =>
    let s := s.count F.ERNOS_LINK_ERR_CNT_COUNT errors
    let up := port.val = 0
    if !s.flag (if up then F.ERNOS_STAT_UP_UP else F.ERNOS_STAT_DN_UP) then s else
    let s := s.wr (if up then F.ERNOS_UP_DELAY_TICKS else F.ERNOS_DN_DELAY_TICKS) (min delay (2 ^ 32 - 1))
    let s := (s.wr F.ERNOS_REACH_TICKS (min reach (2 ^ 32 - 1))).wr F.ERNOS_STAT_TRIG_OK (b2n (decide (reach ≤ 2359296)))
    let s := if s.isMember && s.clk.upstream && s.rd F.ERNOS_STAT_UPSTREAM = port.val then
        let off := clampI (-(2 ^ 31)) (2 ^ 31 - 1) offset
        let bad := decide (s.rd F.ERNOS_ALIGN_TOL_TICKS < off.natAbs)
        let s := (s.wr F.ERNOS_HEAD_DELAY_TICKS (min headDelay (2 ^ 32 - 1))).wr F.ERNOS_OFFSET_OFFSET (unsg 32 off)
        let since : Option Nat := if bad then some s.phys else
          s.clk.offsetBad.bind (fun a => if a + tickMs ≤ s.phys then none else some a)
        s.onClk (fun c => { c with offsetBad := since })
      else s
    s.alignCheck

/-- The full device time of a job's pickup. -/
def State.pickupDev (s : State) (j : Job) : Nat := s.devTime - (s.phys - j.pickup)

/-- The effective T_ALIGN (R395). -/
def State.alignTime (s : State) (j : Job) : Nat :=
  let lo := s.pickupDev j + 20 * tickMs
  let t := s.devTime / 2 ^ 64 * 2 ^ 64 + j.fld 16 8
  roundUp (if j.fld 16 8 = 0 ∨ t < lo then lo else t) cycle

/-- The devices that an ARRAY_ALIGN covers: a standalone device is an array of one (R395). -/
def State.arraySize (s : State) (devs : Nat) : Nat := if s.ract F.ERNOS_CTRL_ROLE = 1 then max devs 1 else 1

/-- The demands of an ARRAY_ALIGN (R395, R397). -/
def State.alignPlan (s : State) (devs : Nat) (j : Job) : Plan :=
  let t := s.alignTime j
  let work : Q := ⟨(t - s.pickupDev j) + 3500 * tickUs, tickUs⟩
  let addr := j.fld 24 8
  let n := 32 * s.arraySize devs
  { malformed := j.kflags ≠ 0 || j.bits 8 1 7 1 ≠ 0 || !restZero j.desc [(8, 1), (12, 4), (16, 8), (24, 8)]
    badAddr := addr ≠ 0 && rangeBad addr n 64
    stateOk := !s.isMember && s.present s.selRef && !s.offersBlock
    conflict := s.host.jobs.any (fun x => x.kind = 0x61 && x.admitted)
    d2h := if addr = 0 then none else some (j.fld 12 4)
    movers := fun rd _ => if addr = 0 then [] else [(0, rd, rd)]
    work := fun _ _ => work
    bytes := if addr = 0 then 0 else n
    dur := fun _ _ => some (work.mul (Q.of tickUs)).ceil }

/-- ARRAY_ALIGN (R395): the decision; its step is due at the effective T_ALIGN. -/
def execArrayAlign (devs : Fin 33) (s : State) : Host.Outcome State Fault Refusal :=
  live s fun s => s.admission 0x61 (s.alignPlan devs) (fun s' j =>
    (s'.updJob j.jid (fun j => { j with anchor := some j.pickup })).onClk (fun c =>
      { c with align := some { jid := j.jid, t := s.alignTime j, devs := s.arraySize devs } }))

/-- This device's own offset in an alignment that it leads (R396): it realigns where it waits for a return. -/
def State.ownOffset (s : State) : Int :=
  if s.flag F.CLOCK_SSYN_STAT_RETURN_WAIT then -(sgn 32 (s.rd F.CLOCK_REFRET_STEP_STEP)) else 0

/-- A device steps by an offset beyond its tolerance; otherwise its wait for a return ends and tracking removes the rest
(R396). The second component says whether it stepped. -/
def State.stepOrClose (s : State) (d : Int) : State × Bool :=
  if s.rd F.ERNOS_ALIGN_TOL_TICKS < d.natAbs then (s.timeStep d, true)
  else (if s.flag F.CLOCK_SSYN_STAT_RETURN_WAIT then s.buildOut else s, false)

/-- TIME_STEP (R389, R396): at the instant of the alignment this device steps, if its offset asks for it. With the instant
already past no device steps and the job ends DEADLINE_MISSED. On a member the step is the one that the head ordered. -/
def execTimeStep (s : State) : Host.Outcome State Fault Refusal :=
  live s fun s =>
    if s.isMember then
      match s.clk.order with
      | none => s
      | some (t, d) =>
        let s := s.onClk (fun c => { c with order := none })
        if t < s.devTime then s
        else (((s.toDev t).stepOrClose d).1).onClk (fun c => { c with alignedOnce := true, offsetBad := none })
    else match s.clk.align with
      | none => s
      | some r =>
        if r.passed then s
        else if r.t < s.devTime then
          (s.onClk (fun c => { c with align := none })).endJob r.jid (fun j =>
            { j with fStopped := true, detail := b2n (!s.flag F.ERNOS_STAT_TRIG_OK) * 2 ^ 31 + r.devs * 2 ^ 16 + r.devs })
        else
          let own := s.ownOffset
          let q := (s.toDev r.t).stepOrClose own
          q.1.onClk (fun c => { c with align := some { r with passed := true, own := own, stepped := q.2 } })

/-- One 32-byte entry of the report (R398). -/
def alignEntry (index hops upstream : Nat) (failed stepped : Bool) (delta : Int) (headDelay residual reach : Nat) : Bytes :=
  leBytes 1 index ++ leBytes 1 hops ++ leBytes 1 (upstream + 16 * b2n failed + 32 * b2n stepped) ++ zeros 5 ++
    leBytes 8 (unsg 64 delta) ++ leBytes 4 headDelay ++ leBytes 4 residual ++ leBytes 4 reach ++ zeros 4

/-- What another device does: its offset moves with the head's step, and beyond its tolerance it steps (R396). -/
def entryTotal (e : AlignEntry) (own : Int) : Int := e.offset + own
def entryStepped (e : AlignEntry) (own : Int) : Bool := !e.failed && decide (e.tol < (entryTotal e own).natAbs)

/-- The entries of the other devices, from index `i` on. -/
def alignEntries (own : Int) : Nat → List AlignEntry → Bytes
  | _, [] => []
  | i, e :: es =>
    alignEntry i e.hops e.upstream e.failed (entryStepped e own) (if entryStepped e own then entryTotal e own else 0) e.headDelay
      e.residual e.reach ++ alignEntries own (i + 1) es

/-- ARRAY_ALIGN_DONE (R396-R398): after the steps, the relocks and the clock holds, the report and the final record. -/
def execArrayAlignDone (others : List AlignEntry) (reach : Nat) (s : State) : Host.Outcome State Fault Refusal :=
  live s fun s =>
    match s.clk.align with
    | none => s
    | some r =>
      if !r.passed || s.inLoss || s.clk.holdEnd.isSome then s else
      let others := if s.ract F.ERNOS_CTRL_ROLE = 1 then others.take 31 else []
      let reach := if others.isEmpty then 0 else reach
      let ok := decide (reach ≤ 2359296)
      let failed := countP (·.failed) others
      let stepped := countP (fun e => entryStepped e r.own) others + b2n r.stepped
      let found := others.length + 1
      let s := ((s.wr F.ERNOS_INDEX_SIZE found).wr F.ERNOS_INDEX_HOPS 0).wr F.ERNOS_INDEX_INDEX 0
      let s := (s.wr F.ERNOS_REACH_TICKS (min reach (2 ^ 32 - 1))).wr F.ERNOS_STAT_TRIG_OK (b2n ok)
      let s := (s.onClk (fun c => { c with align := none, alignedOnce := true })).alignCheck
      let fin (j : Job) : Job :=
        { j with fPartial := decide (0 < failed) || !ok
                 detail := b2n (!ok) * 2 ^ 31 + found * 2 ^ 16 + stepped * 2 ^ 8 + failed }
      match s.job? r.jid with
      | none => s
      | some j =>
        if j.fld 24 8 = 0 then s.endJob r.jid fin
        else
          let own := alignEntry 0 0 0 false r.stepped (if r.stepped then r.own else 0) 0 0 (min reach (2 ^ 32 - 1))
          (s.updJob r.jid (fun j => { fin j with autoEnd := true })).queueElems r.jid (s.chanOn r.jid 0)
            (outElems (j.fld 24 8) (own ++ alignEntries r.own 1 others))

/-- SIDEBAND_MESSAGE (R396): a member takes its place in the array (0), its head delay and measured error (1), or a step
ordered for an instant of its own device time (2); an offset within tolerance is left to tracking. -/
def execSidebandMessage (kind : Fin 3) (index hops : Fin 32) (headDelay t : Nat) (delta : Int) (s : State) :
    Host.Outcome State Fault Refusal :=
  live s fun s =>
    if !s.isMember then s
    else if kind.val = 0 then
      ((s.setf F.ERNOS_STAT_HEAD_SEEN).wr F.ERNOS_INDEX_INDEX index).wr F.ERNOS_INDEX_HOPS hops
    else if kind.val = 1 then
      (s.wr F.ERNOS_HEAD_DELAY_TICKS (min headDelay (2 ^ 32 - 1))).wr F.ERNOS_OFFSET_OFFSET
        (unsg 32 (clampI (-(2 ^ 31)) (2 ^ 31 - 1) delta))
    else s.onClk (fun c => { c with order := some (roundUp t cycle, delta) })

end Sys2Proof.Machine
end

