-- ==== Sys2Proof/Machine/HostCmds.lean ====
section
/-! DEFINITION. Machine/HostCmds.lean: the commands of the host link and the rings: polling, fetching, head and tail
words, link training and retraining, credit and coalescing (R32-R46, R67, R72-R74, R480, R481). -/
namespace Sys2Proof.Machine

/-- The doorbell page's host address (R39). -/
def State.dbBase (s : State) : Nat := s.rd F.HOST_DB_BASE_LO_ADDR * 2 ^ 12 + 2 ^ 32 * s.rd F.HOST_DB_BASE_HI_ADDR

/-- The doorbell page is in use: for submission tails, or for the event ring's head word (R74). -/
def State.pageUsed (s : State) : Bool :=
  (s.flag F.HOST_CTRL_ENABLE && s.host.started) || s.flag F.HOST_CTRL_EVQ_EN

/-- Starts a poll of class `c`: a read of the doorbell page's words (R39, R41). -/
def State.startPoll (s : State) (c : Nat) : State :=
  (s.onHost (fun h => { h with pollBusy := kset h.pollBusy c true false })).emit (.hostRead s.dbBase 0x408)

/-- The end of a poll of class `c`; a nudge met during it causes exactly one further poll (R42). -/
def State.endPoll (s : State) (c : Nat) : State :=
  let again := kget s.host.pollAgain c false
  let s := s.onHost (fun h => { h with
    pollBusy := kset h.pollBusy c false false, pollAgain := kset h.pollAgain c false false })
  if again then s.startPoll c else s

/-- HOST_NUDGE's effect on class `c` (R42). -/
def State.nudge (s : State) (c : Nat) : State :=
  if !s.pageUsed then s
  else if kget s.host.pollBusy c false then s.onHost (fun h => { h with pollAgain := kset h.pollAgain c true false })
  else s.startPoll c

/-- A ring's tail word as the poll reads it (R41): the ring becomes due, or is disabled on a bad tail; a slot with
OWN = 0 is read again (R44). -/
def State.takeTail (s : State) (n w : Nat) : State :=
  let r := s.sq n
  if !r.enable then s
  else if countOk w r.head (ringSize r.sizeLog2 4 16) then s.setSq n { r with tail := w, waiting := false }
  else
    (s.setSq n { r with enable := false, badTail := true, disabled := true, waiting := false }).ringError n 1 w r.head

/-- A completion ring's head word as the poll reads it (R481). -/
def State.takeHead (s : State) (m w : Nat) : State :=
  let r := s.cq m
  if !r.enable then s
  else if countOk r.tail w (ringSize r.sizeLog2 4 16) then s.setCq m { r with head := w, headBad := false }
  else
    let s := s.setCq m { r with headBad := true, badHead := true }
    if r.headBad then s else s.ringError (0x100 + m) 2 w r.tail

/-- The event ring's head word as the poll reads it (R481). -/
def State.takeEvHead (s : State) (w : Nat) : State :=
  let e := s.host.evq
  if !s.flag F.HOST_CTRL_EVQ_EN then s
  else if countOk e.tail w s.evSize then s.onHost (fun h => { h with evq := { e with head := w, headBad := false } })
  else
    let s := s.onHost (fun h => { h with evq := { e with headBad := true } })
    if e.headBad then s else s.ringError 0x140 2 w e.tail

/-- The words of a completed poll of class `c` (R39, R41, R481): head words, then the tails of the class's rings; held
records and a due EVQ_OVERFLOW event are then written (R67, R73). -/
def State.pollDone (s : State) (c : Nat) (words : List DWord) : State :=
  let w (i : Nat) : Nat := (words.getD i 0).toNat % 2 ^ 32
  let s := s.onHost (fun h => { h with pageBad := false })
  let s := (List.range 64).foldl (fun s m => s.takeHead m (w (64 + m))) s
  let s := s.takeEvHead (w 128)
  let s := if s.flag F.HOST_CTRL_ENABLE then
      (List.range 64).foldl (fun s n => if (s.sq n).pollClass = c then s.takeTail n (w n) else s) s
    else s
  (s.pumpAll.overflowEvent).endPoll c

/-- HOST_NUDGE (R42). -/
def State.hostNudgeWrite (s : State) (v : Word) : State :=
  (List.range 4).foldl (fun s c => if bit v.toNat c then s.nudge c else s) s

/-- HOST_NUDGE (R42). -/
def execHostNudge (v : Word) (s : State) : Host.Outcome State Fault Refusal := live s fun s => s.hostNudgeWrite v

/-- HOST_ENABLE (R74). -/
def execHostEnable (on : Bool) (s : State) : Host.Outcome State Fault Refusal :=
  live s fun s => s.wr F.HOST_CTRL_ENABLE (b2n on)

/-- Sets or clears EVQ_EN (R73): setting it resets the tail count and the write phase, and a due EVQ_OVERFLOW follows. -/
def State.setEvq (s : State) (on : Bool) : State :=
  if on && !s.flag F.HOST_CTRL_EVQ_EN then
    let s := (s.setf F.HOST_CTRL_EVQ_EN).onHost (fun h =>
      { h with evq := { h.evq with tail := 0, head := 0, headBad := false } })
    s.overflowEvent
  else s.wr F.HOST_CTRL_EVQ_EN (b2n on)

/-- EVQ_ENABLE (R73). -/
def execEvqEnable (on : Bool) (s : State) : Host.Outcome State Fault Refusal := live s fun s => s.setEvq on

/-- A write of HOST_SQ_CTRL for the selected ring (R74): the other fields are writable only while ENABLE is 0, and
setting ENABLE sets HEAD to 0. -/
def State.writeSqCtrl (s : State) (v : Word) : State :=
  let n := s.rd F.HOST_SQ_SEL_RING
  let r := s.sq n
  let on := bit v.toNat 0
  let r := if r.enable then r else
    { r with cq := bits v.toNat 21 16, pollClass := bits v.toNat 9 8, sizeLog2 := bits v.toNat 7 4 }
  s.setSq n (if on && !r.enable then { r with enable := true, head := 0, tail := 0, waiting := false, blocked := false }
    else { r with enable := on })

/-- SQ_ENABLE (R74). -/
def execSqEnable (v : Word) (s : State) : Host.Outcome State Fault Refusal := live s fun s => s.writeSqCtrl v

/-- A write of HOST_CQ_CTRL for the selected ring (R74): setting ENABLE sets TAIL to 0 and the phase to OWN = 1; the
head is taken as 0 until its first valid word (R481). Records held while the ring was disabled are then written. -/
def State.writeCqCtrl (s : State) (v : Word) : State :=
  let m := s.rd F.HOST_CQ_SEL_RING
  let r := s.cq m
  let on := bit v.toNat 0
  let r := if r.enable then r else { r with vector := bits v.toNat 26 16, sizeLog2 := bits v.toNat 7 4 }
  let s := s.setCq m (if on && !r.enable then
      { r with enable := true, tail := 0, head := 0, headBad := false, since := 0, oldest := none }
    else { r with enable := on })
  s.pumpRing m

/-- CQ_ENABLE (R74). -/
def execCqEnable (v : Word) (s : State) : Host.Outcome State Fault Refusal := live s fun s => s.writeCqCtrl v

/-- DOORBELL_POLL (R41): the device reads the page; a class whose poll is in progress is not polled again. -/
def execDoorbellPoll (cls : Fin 4) (s : State) : Host.Outcome State Fault Refusal :=
  live s fun s => if s.pageUsed && !kget s.host.pollBusy cls false then s.startPoll cls else s

/-- DOORBELL_READ_DONE (R41, R481). -/
def execDoorbellReadDone (cls : Fin 4) (words : List DWord) (s : State) : Host.Outcome State Fault Refusal :=
  live s fun s => if kget s.host.pollBusy cls false then s.pollDone cls words else s

/-- DOORBELL_READ_FAILED (R480): nothing is taken from the page, and the first failure raises RING_ERROR. -/
def execDoorbellReadFailed (cls : Fin 4) (s : State) : Host.Outcome State Fault Refusal :=
  live s fun s =>
    if kget s.host.pollBusy cls false then
      let first := !s.host.pageBad
      let s := s.onHost (fun h => { h with pageBad := true })
      (if first then s.ringError 0x200 3 0 0 else s).endPoll cls
    else s

/-- A ring is due for fetching (R41, R44, R46). -/
def SqRing.due (r : SqRing) : Bool := r.enable && r.tail ≠ r.head && !r.waiting && !r.blocked

/-- Jobs in general entries of the job table (R46). -/
def State.generalJobs (s : State) : Nat := countP (fun j => !j.abortEntry) s.host.jobs

/-- Jobs in ABORT-only entries (R46). -/
def State.abortJobs (s : State) : Nat := countP (fun j => j.abortEntry) s.host.jobs

/-- A general entry is free. -/
def State.generalFree (s : State) : Bool := decide (s.generalJobs < 1024)

/-- An ABORT-only entry is free. -/
def State.abortFree (s : State) : Bool := decide (s.abortJobs < 16)

/-- The next due ring of class `c` after the ring served last in it, in ascending cyclic order (R43). -/
def State.dueInClass (s : State) (c : Nat) : Option Nat :=
  let last := kget s.host.lastRing c 63
  ((List.range 64).map (fun i => (last + 1 + i) % 64)).find? (fun n => (s.sq n).due && (s.sq n).pollClass = c)

/-- The ring that the next descriptor read serves (R43): the ring whose turn it is while it is due and has taken fewer
than 16, else the next class's next due ring. -/
def State.nextRing (s : State) : Option Nat :=
  let fresh := ((List.range 4).map (fun i => (s.host.lastClass + 1 + i) % 4)).findSome? s.dueInClass
  match s.host.turn with
  | some (n, left) => if (s.sq n).due && decide (0 < left) then some n else fresh
  | none => fresh

/-- Issues the descriptor read of ring `n` and accounts for its turn (R43). -/
def State.fetchFrom (s : State) (n : Nat) : State :=
  let r := s.sq n
  let same := match s.host.turn with | some (k, left) => k = n && decide (0 < left) | none => false
  let s := s.onHost (fun h =>
    if same then { h with fetch := some n, turn := h.turn.map (fun t => (t.1, t.2 - 1)) }
    else { h with
      fetch := some n, turn := some (n, 15), lastClass := r.pollClass, lastRing := kput h.lastRing r.pollClass n })
  s.emit (.hostRead (r.base + 64 * (r.head % ringSize r.sizeLog2 4 16)) 64)

/-- DESCRIPTOR_FETCH (R43, R46): with room in the window and an entry free, the next due ring's slot is read. -/
def execDescriptorFetch (s : State) : Host.Outcome State Fault Refusal :=
  live s fun s =>
    if s.flag F.HOST_CTRL_ENABLE && s.host.started && !s.host.frozen && s.host.fetch.isNone &&
        decide (countP (fun j => !j.decided) s.host.jobs < 64) && (s.generalFree || s.abortFree) then
      match s.nextRing with
      | some n => s.fetchFrom n
      | none => s
    else s

/-- Takes a descriptor into the job table and the fetch window (R43, R45, R46): OWN is written back 0, and HEAD advances. A
turn ends where its ring has nothing more to take. -/
def State.pickUp (s : State) (n : Nat) (slot : Bytes) (abortEntry : Bool) : State :=
  let r := s.sq n
  let addr := r.base + 64 * (r.head % ringSize r.sizeLog2 4 16)
  let hdr := fieldAt slot 0 8
  let j : Job := { jid := s.host.nextJid, sq := n, cq := r.cq, desc := slot, abortEntry := abortEntry, pickup := s.phys }
  let head := (r.head + 1) % 2 ^ 32
  let s := s.onHost (fun h =>
    { h with
      jobs := h.jobs ++ [j], nextJid := h.nextJid + 1, fetch := none, turn := if head = r.tail then none else h.turn })
  let s := s.setSq n { r with head := head }
  s.emit (.hostWrite addr (leBytes 8 (hdr % 2 ^ 63)))

/-- DESCRIPTOR_PICKUP (R43-R46). -/
def execDescriptorPickup (slot : Bytes) (s : State) : Host.Outcome State Fault Refusal :=
  live s fun s =>
    match s.host.fetch with
    | none => s
    | some n =>
      let r := s.sq n
      let none' := s.onHost (fun h => { h with fetch := none, turn := none })
      if !r.enable then none'
      else if bitsAt slot 0 8 63 63 = 0 then none'.setSq n { r with ownWait := true, waiting := true }
      else if s.generalFree then s.pickUp n slot false
      else if bitsAt slot 0 8 55 48 = 0x7F && s.abortFree then s.pickUp n slot true
      else none'.setSq n { r with blocked := true }

/-- DESCRIPTOR_READ_FAILED (R480): the ring is disabled, with no write-back and no advance of HEAD. -/
def execDescriptorReadFailed (s : State) : Host.Outcome State Fault Refusal :=
  live s fun s =>
    match s.host.fetch with
    | none => s
    | some n =>
      let r := s.sq n
      let s := (s.onHost (fun h => { h with fetch := none, turn := none })).setSq n { r with enable := false, disabled := true }
      s.ringError n 3 0 r.head

/-- POSTED_CREDIT_GRANT (R67): held records are written once credit is granted. -/
def execPostedCreditGrant (granted : Bool) (s : State) : Host.Outcome State Fault Refusal :=
  live s fun s =>
    let s := s.onHost (fun h => { h with credit := granted })
    if granted then s.pumpAll else s

/-- COALESCE_TIMEOUT (R72): when the oldest record not yet signalled has waited TIME × 250 ns. -/
def execCoalesceTimeout (m : Fin 64) (s : State) : Host.Outcome State Fault Refusal :=
  live s fun s =>
    match (s.cq m).oldest with
    | some t => if (s.cq m).coalTime = 0 then s else (s.toPhys (t + (s.cq m).coalTime * 250 * tickNs)).signalCq m
    | none => s

/-- D2H and H2D capacities of a ×16 link by generation, in 10 MB/s (R35). -/
def genCap (speed : Nat) : Nat × Nat :=
  [(0, 0), (429, 390), (859, 781), (1375, 1250), (2750, 2500), (5500, 5000), (11000, 10000)].getD speed (0, 0)

/-- A link's capacities at a generation and width: scaled by the width and rounded down; a bifurcated half never exceeds
the ×8 figures (R29, R35). -/
def linkCap (bifurcated : Bool) (speed width : Nat) : Nat × Nat :=
  let w := if bifurcated then min width 8 else width
  ((genCap speed).1 * w / 16, (genCap speed).2 * w / 16)

/-- Sets the capacity fields of one link (R35). -/
def State.setCaps (s : State) (sec : Bool) (c : Nat × Nat) : State :=
  if sec then (s.wr F.HOST_D2H_CAP_CAP_SEC c.1).wr F.HOST_H2D_CAP_CAP_SEC c.2
  else (s.wr F.HOST_D2H_CAP_CAP c.1).wr F.HOST_H2D_CAP_CAP c.2

/-- FLIT mode is always in use at Gen 6 (R32). -/
def flitBit (speed : Nat) (flit : Bool) : Nat := if speed = 6 then 1 else b2n flit

/-- LINK_TRAINING_DONE (R32, R33, R35). -/
def execLinkTrainingDone (bifurcated secondaryUp : Bool) (speed width : Nat) (flit : Bool) (s : State) :
    Host.Outcome State Fault Refusal :=
  live s fun s =>
    let s := ((((s.wr F.HOST_LINK_SPEED speed).wr F.HOST_LINK_WIDTH width).wr F.HOST_LINK_FLIT (flitBit speed flit)).wr
      F.HOST_LINK_BIFURCATED (b2n bifurcated)).wr F.HOST_LINK_SECONDARY_UP (b2n (bifurcated && secondaryUp))
    let s := s.setCaps false (linkCap bifurcated speed width)
    s.setCaps true (if bifurcated && secondaryUp then linkCap bifurcated speed width else (0, 0))

/-- LINK_RETRAIN (R37), to another speed or width: the capacities follow it, LINK_CHANGED is raised, and with jobs admitted the
retrain counts as an uncorrectable link fault. Reservations stay. -/
def execLinkRetrain (secondary : Bool) (speed width : Nat) (flit : Bool) (s : State) :
    Host.Outcome State Fault Refusal :=
  live s fun s =>
    let sec := secondary
    let cap := linkCap s.bifurcated speed width
    if (if sec then !s.bifurcated else
        decide (speed = s.rd F.HOST_LINK_SPEED) && decide (width = s.rd F.HOST_LINK_WIDTH)) then s else
    let s := if sec then s else
      ((s.wr F.HOST_LINK_SPEED speed).wr F.HOST_LINK_WIDTH width).wr F.HOST_LINK_FLIT (flitBit speed flit)
    let s := s.setCaps sec cap
    let s := if s.admittedJobs.isEmpty then s else s.count F.HOST_LINK_UE_CNT_COUNT
    s.raise 1 2 (b2n sec) ((s.word 0x100008).toNat % 2 ^ 12) (cap.1 + 2 ^ 16 * cap.2)

/-- LINK_CORRECTED_ERROR (R37). -/
def execLinkCorrectedError (s : State) : Host.Outcome State Fault Refusal :=
  live s fun s => s.count F.HOST_LINK_CE_CNT_COUNT

/-- LINK_UNCORRECTABLE_ERROR (R37). -/
def execLinkUncorrectableError (s : State) : Host.Outcome State Fault Refusal :=
  live s fun s => s.count F.HOST_LINK_UE_CNT_COUNT

/-- ZERO_LENGTH_READ_DONE (R33): the job's data is visible, and its final record may be written. -/
def execZeroLengthReadDone (sq : Fin 64) (tag : BitVec 16) (s : State) : Host.Outcome State Fault Refusal :=
  live s fun s =>
    match s.host.jobs.find? (fun j => j.sq = sq.val && j.tag = tag.toNat && j.zeroRead) with
    | some j => (s.updJob j.jid (fun j => { j with zeroRead := false, secondary := false })).tryFinal j.jid
    | none => s

/-- The KIND codes of R49. -/
def kinds : List Nat :=
  [0x01, 0x02, 0x03, 0x04, 0x05, 0x06, 0x10, 0x11, 0x12, 0x20, 0x30, 0x31, 0x40, 0x50, 0x51, 0x60, 0x61, 0x70, 0x71, 0x7F]

/-- INVALID_KIND (R48, R49): both records carry DESCRIPTOR_ERROR. -/
def execInvalidKind (s : State) : Host.Outcome State Fault Refusal :=
  live s fun s =>
    match s.nextDecision with
    | some j => if kinds.contains j.kind then s else s.refuse j.jid stDescriptor 0 0
    | none => s

end Sys2Proof.Machine
end

