-- ==== Sys2Proof/Machine/TileCmds.lean ====
section
/-! DEFINITION. Machine/TileCmds.lean: the bundles of a unit, one command for each primary operation of R283, and the
events of a running unit. The operand names the unit's lead tile. The commands are the unit's own steps: a bundle that is
not the named operation's, a stalled unit, or an interrupt that comes first leaves the state as it is. -/
namespace Sys2Proof.Machine

def execNop (t : Fin 256) (s : State) : Host.Outcome State Fault Refusal := live s fun s => s.issueTile t 0x00 tileNop
def execMac4 (t : Fin 256) (s : State) : Host.Outcome State Fault Refusal := live s fun s => s.issueTile t 0x01 tileMac4
def execMacp (t : Fin 256) (s : State) : Host.Outcome State Fault Refusal := live s fun s => s.issueTile t 0x02 tileMacp
def execAccld (t : Fin 256) (s : State) : Host.Outcome State Fault Refusal := live s fun s => s.issueTile t 0x03 tileAccld
def execAccst (t : Fin 256) (s : State) : Host.Outcome State Fault Refusal := live s fun s => s.issueTile t 0x04 tileAccst

/-- EXT: rounding is convergent in gangs of 16 (R291, R292). -/
def execExt (t : Fin 256) (s : State) : Host.Outcome State Fault Refusal :=
  live s fun s => s.issue t 0x05 (fun s r w =>
    (s.onUnit r t (fun u => tileExt (r.g = 16) w (tileMoves w u))).finish r t id)

/-- MOVS: rounding as EXT (R291, R292). -/
def execMovs (t : Fin 256) (s : State) : Host.Outcome State Fault Refusal :=
  live s fun s => s.issue t 0x06 (fun s r w =>
    (s.onUnit r t (fun u => tileMovs (r.g = 16) w (tileMoves w u))).finish r t id)

def execSha (t : Fin 256) (s : State) : Host.Outcome State Fault Refusal := live s fun s => s.issueTile t 0x07 tileSha
def execMov (t : Fin 256) (s : State) : Host.Outcome State Fault Refusal := live s fun s => s.issueTile t 0x08 tileMov
def execAdd (t : Fin 256) (s : State) : Host.Outcome State Fault Refusal := live s fun s => s.issueTile t 0x09 tileAdd
def execSub (t : Fin 256) (s : State) : Host.Outcome State Fault Refusal := live s fun s => s.issueTile t 0x0A tileSub
def execAnd (t : Fin 256) (s : State) : Host.Outcome State Fault Refusal := live s fun s => s.issueTile t 0x0B tileAnd
def execOr (t : Fin 256) (s : State) : Host.Outcome State Fault Refusal := live s fun s => s.issueTile t 0x0C tileOr
def execXor (t : Fin 256) (s : State) : Host.Outcome State Fault Refusal := live s fun s => s.issueTile t 0x0D tileXor
def execAdd4 (t : Fin 256) (s : State) : Host.Outcome State Fault Refusal := live s fun s => s.issueTile t 0x0E tileAdd4
def execSub4 (t : Fin 256) (s : State) : Host.Outcome State Fault Refusal := live s fun s => s.issueTile t 0x0F tileSub4
def execCmp (t : Fin 256) (s : State) : Host.Outcome State Fault Refusal := live s fun s => s.issueTile t 0x10 tileCmp
def execFcvt (t : Fin 256) (s : State) : Host.Outcome State Fault Refusal := live s fun s => s.issueTile t 0x11 tileFcvt
def execIcvt (t : Fin 256) (s : State) : Host.Outcome State Fault Refusal := live s fun s => s.issueTile t 0x12 tileIcvt
def execGeta (t : Fin 256) (s : State) : Host.Outcome State Fault Refusal := live s fun s => s.issueTile t 0x13 tileGeta

/-- The special register that GETS reads in tile `n` (R298). -/
def special (s : State) (r : RunSt) (l n i : Nat) : DWord :=
  let t := s.tile n
  match i with
  | 0 => BitVec.ofNat 64 t.sr
  | 1 => BitVec.ofNat 64 t.ipend
  | 2 => BitVec.ofNat 64 t.imask
  | 3 => BitVec.ofNat 64 t.roff
  | 4 => BitVec.ofNat 64 t.cyc
  | 5 => BitVec.ofNat 64 t.tcmp
  | 6 => BitVec.ofNat 64 (s.rd F.LUMEN_Tt_MAIL_VALUE n)
  | 7 => BitVec.ofNat 64 t.avail
  | 8 => BitVec.ofNat 64 (r.outSlots - t.outBusy)
  | 9 => BitVec.ofNat 64 (n + 256 * (if r.g = 1 then 0 else if r.g = 4 then 1 else 2) + 1024 * (n - l))
  | 10 => BitVec.ofNat 64 t.spc
  | 11 => BitVec.ofNat 64 t.ssr
  | 12 => BitVec.ofNat 64 t.sroff
  | 13 => BitVec.ofNat 64 r.poolBase
  | _ => BitVec.ofNat 64 r.poolSize

/-- GETS (R298). -/
def execGets (t : Fin 256) (s : State) : Host.Outcome State Fault Refusal :=
  live s fun s => s.issue t 0x14 (fun s r w =>
    ((r.unit t).foldl (fun s n =>
      let v := special s r t n (fa w)
      s.onTile n (fun u => (tileMoves w u).result w 1 v)) s).finish r t id)

def execPuts (t : Fin 256) (s : State) : Host.Outcome State Fault Refusal := live s fun s => s.issueTile t 0x15 tilePuts
def execLde (t : Fin 256) (s : State) : Host.Outcome State Fault Refusal := live s fun s => s.issueTile t 0x16 tileLde
def execSte (t : Fin 256) (s : State) : Host.Outcome State Fault Refusal := live s fun s => s.issueTile t 0x17 tileSte
def execMovi (t : Fin 256) (s : State) : Host.Outcome State Fault Refusal := live s fun s => s.issueTile t 0x20 tileMovi
def execMovih (t : Fin 256) (s : State) : Host.Outcome State Fault Refusal := live s fun s => s.issueTile t 0x21 tileMovih
def execSeta (t : Fin 256) (s : State) : Host.Outcome State Fault Refusal := live s fun s => s.issueTile t 0x22 tileSeta
def execAdda (t : Fin 256) (s : State) : Host.Outcome State Fault Refusal := live s fun s => s.issueTile t 0x23 tileAdda

/-- Whether B's condition holds in the lead tile (R283, R304). -/
def condHolds (t : TileSt) (c : Nat) : Bool :=
  match c with
  | 0 => true
  | 1 => bit t.sr 1
  | 2 => !bit t.sr 1
  | 3 => bit t.sr 2
  | _ => !bit t.sr 2

/-- B (R288). -/
def execB (t : Fin 256) (s : State) : Host.Outcome State Fault Refusal :=
  live s fun s => s.issue t 0x24 (fun s r w =>
    if condHolds (s.tile t) (bits (fd w) 2 0) then s.branch r t w (.to (fx w)) (some (fx w)) id
    else s.branch r t w .seq none id)

/-- CALL (R288): S31 receives the bundle after the second delay slot. -/
def execCall (t : Fin 256) (s : State) : Host.Outcome State Fault Refusal :=
  live s fun s => s.issue t 0x25 (fun s r w =>
    let ret := ((s.tile t).pc + 3) % 2048
    s.branch r t w (.to (fx w)) (some (fx w)) (fun u => u.post 1 (.reg 31 (BitVec.ofNat 64 ret))))

/-- RET (R288). -/
def execRet (t : Fin 256) (s : State) : Host.Outcome State Fault Refusal :=
  live s fun s => s.issue t 0x26 (fun s r w =>
    let p := ((s.tile t).get 31).toNat % 2048
    s.branch r t w (.to p) (some p) id)

/-- RETI (R301). -/
def execReti (t : Fin 256) (s : State) : Host.Outcome State Fault Refusal :=
  live s fun s => s.issue t 0x27 (fun s r w => s.branch r t w .reti (some (s.tile t).spc) id)

/-- LOOP (R294, R296): COUNT comes from IMM or from the lead's static register; a fifth level faults LOOP_OVF. -/
def execLoop (t : Fin 256) (s : State) : Host.Outcome State Fault Refusal :=
  live s fun s => s.issue t 0x28 (fun s r w =>
    let u := s.tile t
    if 4 ≤ u.loops.length then s.faultUnit r t 3 (r.unit t) else
    let c := if bit (fd w) 1 then ((kget u.regs (imm w % 32) 0).toNat) % 65536 else imm w % 65536
    let lvl : LoopLvl :=
      { start := (u.pc + 1) % 2048, stop := fx w, left := if c = 0 then 65536 else c, step := ringStep (fd w) }
    s.finish r t (fun u => { u with loops := lvl :: u.loops }))

/-- REP (R295, R296). -/
def execRep (t : Fin 256) (s : State) : Host.Outcome State Fault Refusal :=
  live s fun s => s.issue t 0x29 (fun s r w =>
    s.finish r t (fun u => { u with rep := some (imm w % 256 + 1, ringStep (fd w)) }))

/-- BRK (R294). -/
def execBrk (t : Fin 256) (s : State) : Host.Outcome State Fault Refusal :=
  live s fun s => s.issue t 0x2A (fun s r w => s.branch r t w .brk none id)

/-- A unit stalls: its tiles read WAITING (R318). -/
def State.stallUnit (s : State) (r : RunSt) (l : Nat) (k : Stall) : State :=
  (r.unit l).foldl (fun s n => s.setf F.LUMEN_Tt_STAT_WAITING n) (s.onTile l (fun t => { t with stall := k }))

/-- A stalled unit may go on. -/
def State.unstall (s : State) (r : RunSt) (l : Nat) : State :=
  (r.unit l).foldl (fun s n => s.clrf F.LUMEN_Tt_STAT_WAITING n) (s.onTile l (fun t => { t with stall := .none }))

/-- A WAITIN that can complete (R306). -/
def State.doWaitin (s : State) (r : RunSt) (l w : Nat) : State :=
  ((s.onUnit r l (tileMoves w)).takeItems r l w).finish r l id

/-- WAITIN (R306, R308): committed outputs are delivered, and the unit takes an item or stalls. -/
def execWaitin (t : Fin 256) (s : State) : Host.Outcome State Fault Refusal :=
  live s fun s => s.issue t 0x30 (fun s r w =>
    let s := (r.unit t).foldl (fun s n => (s.deliverOutputs r n).onTile n (fun u => { u with outs := 0 })) s
    if s.unitHasItem r t then s.doWaitin r t w
    else ((r.unit t).foldl (fun s n => s.askItem r n) (s.stallUnit r t .waitin)).checkRun r.jid)

/-- NEXTIN (R306): with no item taken and unreleased it faults NEXTIN_EMPTY. -/
def execNextin (t : Fin 256) (s : State) : Host.Outcome State Fault Refusal :=
  live s fun s => s.issue t 0x31 (fun s r w =>
    let bad := (r.unit t).filter (fun n => !(s.tile n).held.any (·.taken))
    if !bad.isEmpty then s.faultUnit r t 5 bad else
    let s := s.onUnit r t (fun u => { tileMoves w u with held := releaseFirst u.held })
    ((r.unit t).foldl (fun s n => s.askItem r n) s).finish r t id)

/-- PUTOUT (R308): OUT_BUSY where a tile has no free slot, OUT_EXCESS beyond OUT_PER_IN. -/
def execPutout (t : Fin 256) (s : State) : Host.Outcome State Fault Refusal :=
  live s fun s => s.issue t 0x32 (fun s r w =>
    let busy := (r.unit t).filter (fun n => decide (r.outSlots ≤ (s.tile n).outBusy))
    let tooMany := (r.unit t).filter (fun n => decide (r.outPerIn ≤ (s.tile n).outs))
    if !busy.isEmpty then s.faultUnit r t 6 busy
    else if !tooMany.isEmpty then s.faultUnit r t 7 tooMany
    else
      (s.onUnit r t (fun u =>
        let c : Commit :=
          { slot := u.outCount % r.outSlots, flagged := u.held.any (·.flagged)
            time := (((u.held.filter (·.taken)).getLast?).map (·.time)).getD 0 }
        ({ tileMoves w u with
          commits := u.commits ++ [c], outCount := u.outCount + 1, outBusy := u.outBusy + 1
          outs := u.outs + 1 }).levels r.outSlots)).finish r t id)

/-- WAITOUT (R308). -/
def execWaitout (t : Fin 256) (s : State) : Host.Outcome State Fault Refusal :=
  live s fun s => s.issue t 0x33 (fun s r w =>
    if s.unitHasSlot r t then (s.onUnit r t (tileMoves w)).finish r t id else s.stallUnit r t .waitout)

/-- The pool request of a PLD or PST in one tile, if its address is allowed (R309, R321). -/
def poolReq (r : RunSt) (a : Nat) (target : Option Nat) (data : DWord) : Option PoolReq :=
  let view := bits a 26 25
  let off := a % 2 ^ 25
  if a / 2 ^ 27 ≠ 0 ∨ view = 3 ∨ off % 8 ≠ 0 ∨ r.poolSize ≤ off then none
  else some { target := target, addr := r.poolBase + off, view := view, data := data }

/-- Issues a PLD or PST in every tile of a unit: POOL_RANGE on a bad address, and a hold where some tile has 4
outstanding (R321, R325). -/
def State.poolIssue (s : State) (r : RunSt) (l w : Nat) (req : TileSt → Option PoolReq) (f : Nat → TileSt → TileSt) : State :=
  let bad := (r.unit l).filter (fun n => (req (s.tile n)).isNone)
  if !bad.isEmpty then s.faultUnit r l 9 bad
  else if (r.unit l).any (fun n => decide (4 ≤ (s.tile n).reqs.length)) then s.stallUnit r l .hold
  else
    ((r.unit l).foldl (fun s n =>
      let t := s.tile n
      match req t with
      | some q => let u := f (n - l) (tileMoves w t); s.setTile n { u with reqs := u.reqs ++ [q] }
      | none => s) s).finish r l id

/-- PLD (R309): the target is undefined until a PWAIT completes. -/
def execPld (t : Fin 256) (s : State) : Host.Outcome State Fault Refusal :=
  live s fun s => s.issue t 0x34 (fun s r w =>
    let k := s.freeCtr
    { s with freeCtr := k + r.g }.poolIssue r t w (fun u => poolReq r (u.get (fa w)).toNat (some (u.phys (fd w))) 0)
      (fun i u => u.result w 1 (BitVec.ofNat 64 (Config.freeNat (k + i)))))

/-- PST (R309). -/
def execPst (t : Fin 256) (s : State) : Host.Outcome State Fault Refusal :=
  live s fun s => s.issue t 0x35 (fun s r w =>
    s.poolIssue r t w (fun u => poolReq r (u.get (fa w)).toNat none (u.get (fb w))) (fun _ => id))

/-- A PARITY fault of some tiles of a unit is recorded and counted (R303, R310). -/
def State.notePar (s : State) (l : Nat) (bad : List Nat) : State :=
  bad.foldl (fun s n =>
    let s := ((s.setf F.LUMEN_Tt_STAT_PARITY n).count F.LUMEN_Tt_PAR_CNT_COUNT 1 n).count F.LUMEN_PAR_CNT_COUNT
    ((s.wr F.LUMEN_Tt_FAULT_PC (s.tile l).pc n).wr F.LUMEN_Tt_FAULT_CODE 10 n).count F.LUMEN_FAULT_CNT_COUNT) s

/-- A unit stops for good on PARITY: the run ends INTEGRITY_FAULT (R310, R317). -/
def State.parityStop (s : State) (r : RunSt) (l : Nat) : State :=
  (s.onRun r.jid (fun r => { r with integrity := true })).faultUnit { r with integrity := true } l 10 []

/-- A PWAIT that can complete (R283, R329): PLD data lands, or a bad byte faults PARITY. Where R310 can recover the unit it
waits for that; a rerun that meets a bad byte again is not recovered. -/
def State.doPwait (s : State) (r : RunSt) (l w : Nat) : State :=
  let bad := (r.unit l).filter (fun n => (s.tile n).poolBad)
  if bad.isEmpty then ((s.onUnit r l (tileMoves w)).poolLand r l).finish r l id
  else
    let s := s.notePar l bad
    if r.recomp && (r.unit l).all (fun n => (s.tile n).image ≠ 0) && !(s.tile l).rerun then s.stallUnit r l .parity
    else s.parityStop r l

/-- PWAIT (R309). -/
def execPwait (t : Fin 256) (s : State) : Host.Outcome State Fault Refusal :=
  live s fun s => s.issue t 0x36 (fun s r w =>
    if s.unitPoolDone r t then s.doPwait r t w else s.stallUnit r t .pwait)

def execEi (t : Fin 256) (s : State) : Host.Outcome State Fault Refusal := live s fun s => s.issueTile t 0x37 tileEi
def execDi (t : Fin 256) (s : State) : Host.Outcome State Fault Refusal := live s fun s => s.issueTile t 0x38 tileDi

/-- HALT (R283, R306, R308): committed outputs are delivered. -/
def execHalt (t : Fin 256) (s : State) : Host.Outcome State Fault Refusal :=
  live s fun s => s.issue t 0x3F (fun s r w =>
    let s := (s.onUnit r t (tileMoves w)).finish r t id
    if !(s.tile t).live then s else
    let s := (r.unit t).foldl (fun s n => (s.deliverOutputs r n).setf F.LUMEN_Tt_STAT_HALTED n) s
    ((r.unit t).foldl State.copySticky (s.onUnit r t (fun u => { u.drain with live := false }))).checkRun r.jid)

/-- TILE_STALL_RELEASE (R306, R308, R325): a stalled unit that can go on does so after `n` cycles of stall. Cycles that
WAITIN spends are not counted for MAX_CYCLES. -/
def execTileStallRelease (t : Fin 256) (n : Nat) (s : State) : Host.Outcome State Fault Refusal :=
  live s fun s =>
    match s.run? (s.tile t).run with
    | none => s
    | some r =>
      let u := s.tile t
      if !u.live || u.lead ≠ t then s else
      let ok := match u.stall with
        | .none => false
        | .waitin => s.unitHasItem r t
        | .waitout => s.unitHasSlot r t
        | .pwait => s.unitPoolDone r t
        | .hold => (r.unit t).all (fun n => decide ((s.tile n).reqs.length < 4))
        | .parity => false
      if !ok then s else
      let s := s.unitTicks r t n (u.stall ≠ .waitin)
      if !(s.tile t).live || s.irqDue r t then s else
      let s := s.unstall r t
      match u.stall with
      | .waitin => s.doWaitin r t u.bundle
      | .waitout => (s.onUnit r t (tileMoves u.bundle)).finish r t id
      | .pwait => s.doPwait r t u.bundle
      | _ => s

/-- TILE_INTERRUPT (R299, R300): at an eligible boundary with an enabled pending interrupt; a stalled unit waits out the
synchroniser. -/
def execTileInterrupt (t : Fin 256) (s : State) : Host.Outcome State Fault Refusal :=
  live s fun s =>
    match s.run? (s.tile t).run with
    | none => s
    | some r =>
      let u := s.tile t
      if !u.live || u.lead ≠ t || u.stall = .parity then s else
      let wait := if u.stall = .none then 0
        else maxL (((r.unit t).map (fun n => (s.tile n).sync.map (fun x => x.1 - u.cyc))).flatten)
      let s' := s.unitTicks r t (if s.irqDue r t then 0 else wait) (u.stall ≠ .waitin)
      if (s'.tile t).live && s'.irqDue r t then s'.irqEnter r t else s

/-- TILE_TIMER (R298): a stalled unit's CYCLE reaches TCMP of tile `t`. A unit that issues bundles reaches it by them. -/
def execTileTimer (t : Fin 256) (s : State) : Host.Outcome State Fault Refusal :=
  live s fun s =>
    match s.run? (s.tile t).run with
    | none => s
    | some r =>
      let u := s.tile t
      let l := u.lead
      if !(s.tile l).live || (s.tile l).stall = .none then s
      else
        let n := (u.tcmp + 2 ^ 32 - u.cyc % 2 ^ 32) % 2 ^ 32
        s.unitTicks r l (if n = 0 then 2 ^ 32 else n) ((s.tile l).stall ≠ .waitin)

/-- TILE_MAIL_WRITE (R298): a host write of LUMEN_Tt_MAIL. -/
def State.mailWrite (s : State) (n : Nat) (v : Word) : State :=
  (s.wr F.LUMEN_Tt_MAIL_VALUE v.toNat n).onTile n (fun t => { t with sync := t.sync ++ [(t.cyc + 2, 3, true)] })

/-- TILE_MAIL_WRITE (R298). -/
def execTileMailWrite (t : Fin 256) (v : Word) (s : State) : Host.Outcome State Fault Refusal :=
  live s fun s => s.mailWrite t v

/-- TILE_OVERRUN (R303, R306): a unit stalled in WAITOUT, PWAIT or a hold passes MAX_CYCLES. -/
def execTileOverrun (t : Fin 256) (s : State) : Host.Outcome State Fault Refusal :=
  live s fun s =>
    match s.run? (s.tile t).run with
    | none => s
    | some r =>
      let u := s.tile t
      if !u.live || u.lead ≠ t || u.stall = .none || u.stall = .waitin || u.stall = .parity || !u.timed then s
      else s.unitTicks r t (r.maxCycles + 1 - u.since) true

/-- POOL_ACCESS_COMPLETE (R326-R329): the oldest access of tile `t` is granted and completes `cycles` after its issue;
`bad` says that a byte it read failed its parity. -/
def execPoolAccessComplete (t : Fin 256) (cycles : Nat) (bad : Bool) (s : State) : Host.Outcome State Fault Refusal :=
  live s fun s =>
    match (s.tile t).reqs with
    | [] => s
    | q :: rest =>
      let s := s.maxTo F.POOL_WAIT_MAX_CYCLES cycles
      let read := q.target.isSome || q.view ≠ 0
      let s := if bad && read then s.poolParity 1 q.addr else s
      let s := match q.target with
        | some p => s.onTile t (fun u => { u with got := u.got ++ [(p, BitVec.ofNat 64 (leNat (s.poolRead q.addr 8)))] })
        | none => if bad && read then s else s.poolWrite q.view q.addr (leBytes 8 q.data.toNat)
      s.onTile t (fun u => { u with reqs := rest, poolBad := u.poolBad || (bad && read) })

end Sys2Proof.Machine
end

