-- ==== Sys2Proof/Machine/TileJobs.lean ====
section
/-! DEFINITION. Machine/TileJobs.lean: TILE_LOAD and TILE_RUN, the feeder, and recovery from a parity fault ("Lumen
signal-processing tiles", R305-R317; "Lumen pool and on-die memory test", R323). -/
namespace Sys2Proof.Machine

/-! ### Pool pages -/

/-- Account 0x04 for `need` pages on a side, whole in one run where `whole` (R58, R313, R323): the refusal, if any. The
shortfall is in KiB. -/
def State.poolSpecial (s : State) (need side : Nat) (whole : Bool) : List (Nat × Nat) :=
  let u := s.used (·.pool)
  if need = 0 then []
  else if s.poolCap < u + need then [(4, (u + need - s.poolCap) * 4)]
  else if whole then
    if s.longestRun side < need then [(4, (need - s.longestRun side) * 4)] else []
  else if s.freePages side < need then [(4, (need - s.freePages side) * 4)] else []

/-- The first page of the lowest free run of a side that holds `need` pages. -/
def State.findRun (s : State) (side need : Nat) : Option Nat :=
  ((s.sideRuns side).find? (fun r => decide (need ≤ r.2))).map (·.1)

/-! ### TILE_LOAD -/

/-- Gang size of a GANG field (R311). -/
def gangOf (g : Nat) : Nat := if g = 0 then 1 else if g = 1 then 4 else 16

/-- Pool pages that a TILE_LOAD retains (R313). -/
def Job.retainPages (j : Job) : Nat := if j.bits 9 1 4 4 = 1 then ceilDiv (j.fld 24 4) 4096 else 0

/-- The demands of a TILE_LOAD (R311, R313). No image of R312 has fewer than 128 or more than 65,600 bytes, or a size that
is no multiple of 64. -/
def State.loadPlan (s : State) (j : Job) : Plan :=
  let first := j.bits 8 1 7 0
  let g := gangOf (j.bits 9 1 1 0)
  let n := j.bits 10 2 8 0
  let bytes := j.fld 24 4
  let side := first / 128
  let pages := j.retainPages
  let w : Q := ⟨400 + 64 * ceilDiv n 8, 100⟩
  { malformed := j.kflags ≠ 0 || !payloadOnly j.desc [(8, 7, 0), (9, 1, 0), (9, 4, 4), (10, 8, 0), (12, 31, 0), (16, 63, 0), (24, 31, 0)] ||
      j.bits 9 1 1 0 = 3 || first % g ≠ 0 || n = 0 || n % g ≠ 0 || decide (256 < first + n) || decide (bytes < 128) ||
      decide (65600 < bytes) || bytes % 64 ≠ 0
    badAddr := rangeBad (j.fld 16 8) bytes 64
    stateOk := pages = 0 || !s.flag F.POOL_STAT_MARCH_HOLD
    conflict := (List.range n).any (fun i => s.claimed (.tile (first + i)))
    h2d := some (j.fld 12 4)
    fracB := if side = 1 then ⟨1, 1⟩ else ⟨0, 1⟩
    demand := fun _ rh => {
      claims := (List.range n).map (fun i => .tile (first + i)), pool := pages, power := (moverPower rh).ceil }
    movers := fun _ rh => [(side, rh, rh)]
    specials := fun _ _ => s.poolSpecial pages side false
    work := fun _ _ => w
    bytes := bytes
    toHost := false
    dur := fun _ _ => some ((400 + 64 * ceilDiv n 8) * (tickUs / 100)) }

/-- TILE_LOAD (R313): the image is read; pages of a retained image are the lowest free ones of TILE_FIRST's side. -/
def execTileLoad (s : State) : Host.Outcome State Fault Refusal :=
  live s fun s => s.admission 0x30 s.loadPlan (fun s j =>
    let side := j.bits 8 1 7 0 / 128
    let free := ((List.range 4096).map (· + 4096 * side)).filter s.pageFree
    let s := s.takePages j.jid (free.take j.retainPages)
    let s := s.updJob j.jid (fun j => { j with anchor := some j.pickup })
    s.queueElems j.jid (s.chanOn j.jid side) (inElems (j.fld 16 8) (j.fld 24 4)))

/-- An image's counts: bundles, X, Y and C elements, ENTRY and VEC (R312). -/
structure ImgHdr where
  ni : Nat
  nx : Nat
  ny : Nat
  nc : Nat
  entry : Nat
  vec : Nat
deriving DecidableEq, Repr

/-- Reads an image's header. -/
def imgHdr (d : Bytes) : ImgHdr :=
  { ni := fieldAt d 0 2, nx := fieldAt d 2 2, ny := fieldAt d 4 2, nc := fieldAt d 6 2, entry := fieldAt d 8 2, vec := fieldAt d 10 2 }

/-- Whether an image's header is valid, and its sections fill the image (R312). -/
def imgOk (d : Bytes) : Bool :=
  let h := imgHdr d
  decide (1 ≤ h.ni ∧ h.ni ≤ 2048 ∧ h.nx ≤ 8192 ∧ h.ny ≤ 8192 ∧ h.nc ≤ 8192 ∧ h.entry < h.ni ∧ h.vec < h.ni) &&
    allZero ((d.drop 12).take 52) &&
    decide (d.length = 64 + roundUp (8 * h.ni) 64 + roundUp (2 * h.nx) 64 + roundUp (2 * h.ny) 64 + roundUp (2 * h.nc) 64)

/-- Bundles of a section. -/
def bundlesOf : Nat → Bytes → List DWord
  | 0, _ => []
  | n + 1, d => BitVec.ofNat 64 (fieldAt d 0 8) :: bundlesOf n (d.drop 8)

/-- An image's memories in a tile (R312): everything beyond a section is 0. -/
def TileSt.loadImage (t : TileSt) (d : Bytes) : TileSt :=
  let h := imgHdr d
  let oi := 64
  let ox := oi + roundUp (8 * h.ni) 64
  let oy := ox + roundUp (2 * h.nx) 64
  let oc := oy + roundUp (2 * h.ny) 64
  { t with
    imem := kwrite 0 [] 0 (bundlesOf h.ni (d.drop oi)), x := kwrite 0 [] 0 (elemsOf h.nx (d.drop ox))
    y := kwrite 0 [] 0 (elemsOf h.ny (d.drop oy)), c := kwrite 0 [] 0 (elemsOf h.nc (d.drop oc))
    entry := h.entry, vec := h.vec }

/-- The tiles that a TILE_LOAD names. -/
def Job.loadTiles (j : Job) : List Nat := (List.range (j.bits 10 2 8 0)).map (· + j.bits 8 1 7 0)

/-- Retained images that no tile refers to any more give their pages back (R313). -/
def State.dropImages (s : State) : State :=
  let used (id : Nat) : Bool := (List.range 256).any (fun n => (s.tile n).image = id)
  let gone := (s.lumen.images.filter (fun i => !used i.id)).map (·.id)
  let s := { s with lumen := { s.lumen with images := s.lumen.images.filter (fun i => used i.id) } }
  s.onHost (fun h => { h with kept := h.kept.filter (fun k => !gone.contains k.1) })

/-- The tiles of a load that did not complete are not fully written (R313). -/
def State.loadCut (s : State) (j : Job) : State :=
  if j.taken.length < 64 then s else
  let s := j.loadTiles.foldl (fun s n =>
    ((s.onTile n (fun t => { t with image := 0 })).clrf F.LUMEN_Tt_STAT_LOADED n).clrf F.LUMEN_Tt_STAT_RETAINED n) s
  s.dropImages

/-- Image bytes have come (R312, R313): with the last the header is judged, the tiles are written, and the work is done. A
retained image's pages pass from the job to the image. -/
def State.imageIn (s : State) (jid : Nat) : State :=
  match s.job? jid with
  | none => s
  | some j =>
    let d := j.taken
    if d.length < j.fld 24 4 then s
    else if !imgOk d then s.endJob jid (fun j => { j with special := some stDescriptor })
    else
      let g := j.bits 9 1 1 0
      let keep := j.bits 9 1 4 4 = 1
      let s := j.loadTiles.foldl (fun s n =>
        let s := s.onTile n (fun t => { t.loadImage d with image := if keep then jid else 0 })
        let s := (s.setf F.LUMEN_Tt_STAT_LOADED n).wr F.LUMEN_Tt_STAT_RETAINED (b2n keep) n
        (s.wr F.LUMEN_Tt_STAT_LEAD (b2n (n % gangOf g = 0)) n).wr F.LUMEN_Tt_STAT_GANG g n) s
      let s := if keep then
          let ps := (s.pool.owner.filter (fun c => c.2 = jid)).map (·.1)
          let im : ImageSt := { id := jid, bytes := d, pages := ps }
          let s := { s with lumen := { s.lumen with images := s.lumen.images ++ [im] } }
          let s := s.updJob jid (fun j => { j with demand := { j.demand with pool := 0 } })
          let d : Demand := { pool := j.retainPages }
          s.onHost (fun h => { h with kept := h.kept ++ [(jid, d)] })
        else s
      s.dropImages.endJob jid (fun j => { j with detail := j.bits 10 2 8 0 })

/-! ### TILE_RUN -/

/-- The job of a named source and the side of its stack, if it is admitted or held (R305); SRC 3 also gives the largest
N_VALID, the elements of a value and the zones of a frame. -/
def State.elemSource (s : State) (src sq tag : Nat) : Option (Nat × Nat × Nat × Nat × Nat) :=
  match src with
  | 1 => (s.record.capts.find? (fun (k : Capt) => k.sq = sq && k.tag = tag)).map (fun (k : Capt) => (k.jid, k.input / 2, 0, 0, 0))
  | 2 => (s.glint.runs.find? (fun (r : GlRun) => r.sq = sq && r.tag = tag)).map (fun (r : GlRun) => (r.jid, r.group / 16, 0, 0, 0))
  | _ => (List.range 2).findSome? (fun f => (s.glim f).bind (fun r =>
      if r.sq = sq ∧ r.tag = tag then some (r.jid, f, r.cfg.frameSamples, if r.cfg.format = 0 then 1 else 2, r.cfg.nZones) else none))

/-- A TILE_RUN's settings from its payload and setup block (R314, R315). -/
def runCfg (j : Job) (d : Bytes) (srcJid : Nat) : RunSt :=
  let g := gangOf (j.bits 9 1 1 0)
  let src := j.bits 9 1 6 4
  { jid := j.jid, first := j.bits 8 1 7 0, g := g, nt := j.bits 10 2 8 0 * g, src := src, recomp := bit j.kflags 0
    inBase := fieldAt d 0 2, itemElems := fieldAt d 2 2, inSlots := fieldAt d 4 2, inHdr := fieldAt d 6 2
    outBase := fieldAt d 8 2, outElems := fieldAt d 10 2, outSlots := fieldAt d 12 2, outPerIn := fieldAt d 14 1
    dest := fieldAt d 16 8, destSlots := fieldAt d 24 4, srcAddr := fieldAt d 32 8, nItems := fieldAt d 40 8
    srcJid := srcJid, firstEntry := fieldAt d 36 4, nEntries := fieldAt d 40 4, zPer := fieldAt d 36 4
    maxCycles := j.fld 24 4, poolBase := 0, poolSize := 4096 * j.bits 32 4 15 0 }

/-- The bits of the setup block that are listed, by SRC: byte, high bit, low bit (R315). -/
def runFields (src : Nat) : List (Nat × Nat × Nat) :=
  [(0, 15, 0), (2, 15, 0), (4, 15, 0), (6, 15, 0), (8, 15, 0), (10, 15, 0), (12, 15, 0), (14, 7, 0), (16, 63, 0), (24, 31, 0)] ++
    (if src = 0 then [(32, 63, 0), (40, 63, 0)] else if src = 1 then [(32, 15, 0), (34, 7, 0), (36, 31, 0), (40, 31, 0)]
      else if src = 3 then [(32, 15, 0), (34, 7, 0), (36, 31, 0)] else [(32, 15, 0), (34, 7, 0)])

/-- Whether a setup block breaks the ranges of R315. -/
def setupBad (r : RunSt) (d : Bytes) : Bool :=
  !payloadOnly (zeros 8 ++ d) ((runFields r.src).map (fun f => (f.1 + 8, f.2))) ||
    decide (r.itemElems < 4 ∨ 8192 < r.itemElems ∨ r.itemElems % 4 ≠ 0) || (r.src = 2 && r.itemElems % 8 ≠ 0) ||
    decide (r.inSlots = 0 ∨ 255 < r.inSlots ∨ 8192 < r.inBase + r.inSlots * r.itemElems ∨ 8192 < r.inHdr + 8 * r.inSlots) ||
    decide (r.outElems < 4 ∨ 8192 < r.outElems ∨ r.outElems % 4 ≠ 0 ∨ r.outSlots < 2 ∨ 255 < r.outSlots) ||
    decide (8192 < r.outBase + r.outSlots * r.outElems) ||
    decide (r.outBase < r.inHdr + 8 * r.inSlots ∧ r.inHdr < r.outBase + r.outSlots * r.outElems) ||
    r.outPerIn = 0 || decide (r.destSlots < 2 ∨ 65536 < r.destSlots) ||
    (r.src = 0 && decide (r.nItems = 0 ∨ 2 ^ 40 < r.nItems)) || (r.src = 3 && r.zPer = 0) ||
    (r.src = 1 && decide (r.nEntries = 0 ∨ 16777216 < r.nEntries))

/-- Power of a run's tiles in 0.1 W (R458). -/
def tilePower (g nt : Nat) : Q := if g = 1 then ⟨12 * nt, 10⟩ else if g = 4 then ⟨13 * nt, 10⟩ else ⟨95 * nt, 64⟩

/-- Tiles of a run on a side. -/
def RunSt.tilesOn (r : RunSt) (side : Nat) : Nat := countP (fun i => (r.first + i) / 128 = side) (List.range r.nt)

/-- Every entry that a run of SRC 1 names is written now, and the longest window of its capture (R316). -/
def State.entriesThere (s : State) (r : RunSt) : Option Nat :=
  match s.record.capts.find? (fun (k : Capt) => k.jid = r.srcJid) with
  | none => none
  | some k => if !k.isStream ∧ r.firstEntry + r.nEntries ≤ k.entBase + k.table.length then some (k.pre + k.post) else none

/-- The demands of a TILE_RUN (R314-R316, R323). -/
def State.runPlan (s : State) (setup : Option Bytes) (j : Job) : Plan :=
  let setup := blockRead (j.fld 16 8) 128 64 setup
  let d := setup.getD []
  let src := j.bits 9 1 6 4
  let named := if src = 0 then some (0, 0, 0, 0, 0) else s.elemSource src (fieldAt d 34 1 % 64) (fieldAt d 32 2)
  let r := runCfg j d ((named.map (·.1)).getD 0)
  let rate := j.fld 28 4
  let pages := j.bits 32 4 15 0
  let side := r.first / 128
  let tiles := (List.range r.nt).map (· + r.first)
  let rin := r.nt * rate * 2 * r.itemElems
  let rout := r.nt * rate * r.outPerIn * r.outStride
  let inU := unitsOf (Q.of rin)
  let outU := unitsOf (Q.of rout)
  let nb := r.tilesOn 1
  let part (k : Nat) : Nat := ceilDiv ((rin + rout) * r.tilesOn k) (max r.nt 1 * 10000000)
  let sides := (List.range 2).filter (fun k => decide (0 < r.tilesOn k))
  let srcSide := (named.map (fun x => x.2.1)).getD 0
  let stack (k : Nat) : Nat := if src ≠ 0 ∧ srcSide = k then inU else 0
  let cross (k : Nat) : Nat := if src ≠ 0 ∧ srcSide = k ∧ 0 < r.tilesOn (1 - k) then inU else 0
  let zones := match named with | some x => if src = 3 then decide (x.2.2.2.2 < r.nt * r.zPer) else false | none => false
  let layout := match named with | some x => if src = 3 then decide (x.2.2.1 * r.zPer * x.2.2.2.1 ≤ r.itemElems) else true | none => false
  let power := ((sides.foldl (fun (q : Q) k => q.add (moverPower (part k))) (tilePower r.g r.nt)).add (hbmPower (stack 0))).add (hbmPower (stack 1))
  { malformed := decide (1 < j.kflags) || !payloadOnly j.desc [(8, 7, 0), (9, 1, 0), (9, 6, 4), (10, 8, 0), (12, 31, 0), (16, 63, 0),
        (24, 31, 0), (28, 31, 0), (32, 15, 0)] ||
      j.bits 9 1 1 0 = 3 || decide (3 < src) || r.first % r.g ≠ 0 || r.nt = 0 || decide (256 < r.first + r.nt) ||
      decide (r.maxCycles < 64 ∨ 2 ^ 31 < r.maxCycles) || rate = 0 || decide (8192 < pages) ||
      (setup.isSome && (setupBad r d || zones))
    badAddr := setup.isNone || rangeBad r.dest (r.nt * r.destSlots * r.outStride) 4096 ||
      (src = 0 && rangeBad r.srcAddr (2 * r.itemElems * r.nItems) 8)
    stateOk := tiles.all (fun n => s.flag F.LUMEN_Tt_STAT_LOADED n && s.rd F.LUMEN_Tt_STAT_GANG n = j.bits 9 1 1 0) &&
      decide (rate * r.maxCycles ≤ 1600000000) && (!r.recomp || tiles.all (fun n => (s.tile n).image ≠ 0)) && named.isSome && layout &&
      (pages = 0 || (!s.flag F.POOL_STAT_MARCH_HOLD && sides.length = 1))
    conflict := tiles.any (fun n => s.claimed (.tile n))
    d2h := some (j.fld 12 4)
    h2d := if src = 0 then some (max inU 1) else none
    fracB := ⟨nb, max r.nt 1⟩
    demand := fun _ _ => {
      claims := tiles.map .tile, pool := pages, hbm0 := stack 0, hbm1 := stack 1, xab := cross 0, xba := cross 1, power := power.ceil }
    movers := fun _ _ => sides.map (fun k => (k, part k, part k))
    specials := fun rd _ => s.poolSpecial pages side true ++ (if rd < outU then [(9, outU - rd)] else [])
    work := fun _ _ => ⟨4000000 + (r.inSlots + 1) * r.maxCycles * 625, 1000000⟩
    bytes := (r.inSlots + 1) * r.outPerIn * r.outStride
    durIsBound := true
    dur := fun _ _ =>
      if src = 0 then some (ceilDiv (ceilDiv r.nItems (max r.nt 1) * tickS) (max rate 1))
      else if src = 1 then (s.entriesThere r).map (fun len =>
        ceilDiv (ceilDiv r.nEntries (max r.nt 1) * ceilDiv len (max r.itemElems 1) * tickS) (max rate 1))
      else none }

/-- A tile at the start of a run (R279): its memories stay, everything else is 0, and PC is ENTRY. -/
def TileSt.start (t : TileSt) : TileSt :=
  { imem := t.imem, x := t.x, y := t.y, c := t.c, entry := t.entry, vec := t.vec, image := t.image, pc := t.entry }

/-- TILE_RUN (R316): the window takes the lowest free run of its side, with undefined contents (R323), and the units start. -/
def execTileRun (setup : Option Bytes) (s : State) : Host.Outcome State Fault Refusal :=
  live s fun s => s.admission 0x31 (s.runPlan setup) (fun s j =>
    let d := setup.getD []
    let src := j.bits 9 1 6 4
    let srcJid := if src = 0 then 0 else ((s.elemSource src (fieldAt d 34 1 % 64) (fieldAt d 32 2)).map (·.1)).getD 0
    let r := runCfg j d srcJid
    let pages := r.poolSize / 4096
    let p := (s.findRun (r.first / 128) pages).getD 0
    let ps := (List.range pages).map (· + p)
    let s := if pages = 0 then s else (s.takePages j.jid ps).spoilPages ps
    let r := { r with poolBase := if pages = 0 then 0 else 4096 * p }
    let s := { s with lumen := { s.lumen with runs := s.lumen.runs ++ [r] } }
    let s := ((List.range r.nt).map (· + r.first)).foldl (fun s n =>
      let l := n / r.g * r.g
      let s := s.onTile n (fun t => ({ t.start with run := r.jid, lead := l, live := true } : TileSt).levels r.outSlots)
      let s := ((s.clrf F.LUMEN_Tt_STAT_FAULT n).clrf F.LUMEN_Tt_STAT_HALTED n).clrf F.LUMEN_Tt_STAT_WAITING n
      let s := (s.wr F.LUMEN_Tt_FAULT_PC 0 n).wr F.LUMEN_Tt_FAULT_CODE 0 n
      (s.wr F.LUMEN_Tt_JOB_SQ j.sq n).wr F.LUMEN_Tt_JOB_TAG j.tag n) s
    ((List.range r.nt).map (· + r.first)).foldl (fun s n => s.askItem r n) s)

/-! ### The feeder -/

/-- The next piece of a tile's record source: the item, or none where its words are no longer in the store; and whether it
is the segment's last (R305). None where nothing is ready. -/
def State.segPiece (s : State) (r : RunSt) (n : Nat) : Option (Nat × Option FeedItem × Bool) :=
  let t := s.tile n
  match s.capt? r.srcJid with
  | none => none
  | some k =>
    let st := s.storeOf k
    let piece (e first len : Nat) (last brk : Bool) : Option (Nat × Option FeedItem × Bool) :=
      let bs := segBytes st 1 first len false
      let ws := (List.range (segWords first len).2).map (fun i => st.word? (64 * (first / 64 + i)))
      let x : FeedItem :=
        { data := elemsOf len (bs.filterMap id), first := t.fedPiece = 0, last := last
          flagged := ws.any (fun w => match w with | some w => w.w.status ≠ 0 | none => false)
          damaged := ws.any (fun w => match w with | some w => w.w.damaged | none => false)
          brk := brk, time := ((st.smp? first).map (·.t)).getD 0 }
      some (e, if ws.all (·.isSome) then some x else none, last)
    let o := t.fedPiece * r.itemElems
    if k.isStream then
      let have' := 64 * (k.dropped + k.words.length)
      if r.firstEntry + r.idx n + r.nt * t.fedEntry ≠ 0 then none
      else if o + r.itemElems ≤ have' ∨ (k.ended ∧ o < have') then
        let len := min r.itemElems (have' - o)
        let brk := !st.sameRun o (o + len - 1) || (0 < o && decide (o % 64 = 0) && !st.sameRun (o - 1) o)
        piece 0 o len (k.ended && decide (have' ≤ o + len)) brk
      else none
    else
      match segsLeft r t n k with
      | [] => none
      | e :: _ =>
        match k.table[e - k.entBase]? with
        | none => none
        | some x =>
          let o := if e = r.firstEntry + r.idx n + r.nt * t.fedEntry then o else 0
          piece e (x.first + o) (min r.itemElems (x.len - o)) (decide (x.len ≤ o + r.itemElems)) false

/-- The place of a tile in a record source moves on by one piece of entry `e`. -/
def RunSt.pass (r : RunSt) (t : TileSt) (n e : Nat) (last : Bool) : TileSt :=
  let at' := (e - (r.firstEntry + r.idx n)) / max r.nt 1
  if last then { t with fedEntry := at' + 1, fedPiece := 0 }
  else { t with fedEntry := at', fedPiece := if at' = t.fedEntry then t.fedPiece + 1 else 1 }

/-- The header of an item (R307). -/
def itemHdr (seq : Nat) (x : FeedItem) (lost : Bool) : List (BitVec 16) :=
  let f := b2n x.first + 2 * b2n x.last + 4 * b2n x.flagged + 8 * b2n x.damaged + 16 * b2n lost + 32 * b2n x.brk + 256 * (x.exp % 256)
  elemsOf 8 (leBytes 4 seq ++ leBytes 2 f ++ leBytes 2 x.data.length ++ leBytes 8 (x.time % 2 ^ 64))

/-- The feeder writes an item and its header into a tile's next slot (R306, R307). -/
def State.putItem (s : State) (r : RunSt) (n : Nat) (x : FeedItem) : State :=
  let t := s.tile n
  let slot := t.seq % max r.inSlots 1
  let hdr := itemHdr (t.seq + 1) x t.lostNext
  let data := x.data.take r.itemElems ++ List.replicate (r.itemElems - x.data.length) 0
  let i : Item := { slot := slot, hdr := hdr, data := data, time := x.time, flagged := x.flagged }
  let s := s.onTile n (fun t => ({ t with
    x := kwrite 0 t.x (r.inBase + slot * r.itemElems) data, y := kwrite 0 t.y (r.inHdr + 8 * slot) hdr
    held := t.held ++ [i], seq := t.seq + 1, lostNext := false } : TileSt).levels r.outSlots)
  if x.flagged || x.damaged || x.brk then s.onRun r.jid (fun r => { r with flagged := true }) else s

/-- An item is lost (R303, R306). -/
def State.loseItem (s : State) (r : RunSt) (n : Nat) : State :=
  let s := s.onTile n (fun t => { t with lostNext := true })
  (s.count F.LUMEN_Tt_LOST_CNT_COUNT 1 n).onRun r.jid (fun r => { r with lost := true })

/-- ITEM_DELIVERY (R303, R305, R306): the feeder's next item for tile `t` is written, waits for a slot (SRC 0 and 1), or is
lost: the ring is full (SRC 2 and 3), its words have left the store, or its unit has faulted. -/
def execItemDelivery (t : Fin 256) (s : State) : Host.Outcome State Fault Refusal :=
  live s fun s =>
    match s.run? (s.tile t).run with
    | none => s
    | some r =>
      let u := s.tile t
      let live' := (s.tile u.lead).live
      let full := decide (r.inSlots ≤ u.held.length)
      if !live' && !s.flag F.LUMEN_Tt_STAT_FAULT t then s
      else if r.src = 1 then
        match s.segPiece r t with
        | none => s
        | some (e, x, last) =>
          if !live' then ((s.onTile t (fun u => r.pass u t e last)).loseItem r t).noteDry r t
          else if full then s
          else
            let s := s.onTile t (fun u => r.pass u t e last)
            (match x with | some x => s.putItem r t x | none => s.loseItem r t).noteDry r t
      else
        match u.arrived with
        | [] =>
          if r.src = 0 && !live' && decide (r.idx t + r.nt * u.fed < r.nItems) then
            ((s.onTile t (fun u => { u with fed := u.fed + 1 })).loseItem r t).noteDry r t
          else s
        | x :: rest =>
          if !live' then ((s.onTile t (fun u => { u with arrived := rest })).loseItem r t).noteDry r t
          else if full && r.src = 0 then s
          else
            let s := s.onTile t (fun u => { u with arrived := rest })
            if full then (s.loseItem r t).noteDry r t else (s.putItem r t x).askItem r t

/-- Bytes of a host item have come (R305): the element named tile `n`'s next item. -/
def State.itemIn (s : State) (jid n : Nat) (d : Bytes) : State :=
  match s.run? jid with
  | none => s
  | some r => s.onTile n (fun t => { t with
      asked := false, fed := t.fed + 1, arrived := t.arrived ++ [{ data := elemsOf r.itemElems d }] })

/-- The tile whose host item lies at `addr` (R305). -/
def RunSt.tileAt (r : RunSt) (addr : Nat) : Nat := r.first + (addr - r.srcAddr) / (2 * max r.itemElems 1) % max r.nt 1

/-! ### Recovery and ends -/

/-- A tile after recovery (R310): its memories from the image, its state as at the start of a run, and the items it held. The
items are written again; commits that are not delivered are discarded, and those delivered since the oldest held item was
taken are passed over. -/
def TileSt.recover (t : TileSt) (r : RunSt) (image : Bytes) : TileSt :=
  let ndel := match t.held.find? (·.taken) with | some i => t.delivered - i.delAt | none => 0
  let u := (t.start).loadImage image
  let u := t.held.foldl (fun (u : TileSt) (i : Item) => { u with
    x := kwrite 0 u.x (r.inBase + i.slot * r.itemElems) i.data, y := kwrite 0 u.y (r.inHdr + 8 * i.slot) i.hdr }) u
  let u : TileSt := { u with
    cyc := t.cyc, pc := u.entry, run := t.run, lead := t.lead, live := true
    held := t.held.map (fun (i : Item) => { i with taken := false }), fed := t.fed, fedEntry := t.fedEntry, fedPiece := t.fedPiece
    seq := t.seq, lostNext := t.lostNext, asked := t.asked, dry := t.dry, arrived := t.arrived
    outBusy := t.outBusy - t.commits.length, delivered := t.delivered, skip := ndel, rerun := true }
  u.levels r.outSlots

/-- TILE_PARITY_RECOVERY (R310): a read of a memory of tile `t` fails its parity, or its unit waits after a pool byte did. With
RECOMP, a retained image and every held item at hand the unit is run again; otherwise it stops. -/
def execTileParityRecovery (t : Fin 256) (fetch : Bool) (s : State) : Host.Outcome State Fault Refusal :=
  live s fun s =>
    let u := s.tile t
    match s.run? u.run with
    | none => s
    | some r =>
      let l := u.lead
      if !(s.tile l).live then s else
      let s := if (s.tile l).stall = .parity then s else s.notePar l [t]
      let img := s.lumen.images.find? (fun (i : ImageSt) => i.id = (s.tile l).image)
      match img with
      | none => s.parityStop r l
      | some i =>
        if !r.recomp || !fetch then s.parityStop r l else
        let s := s.onUnit r l (fun u => u.recover r i.bytes)
        let s := (r.unit l).foldl (fun s n => (s.clrf F.LUMEN_Tt_STAT_WAITING n).count F.LUMEN_Tt_RECOMP_CNT_COUNT 1 n) s
        s.onRun r.jid (fun r => { r with recomputed := true })

/-- An ABORT, a supply warning or a thermal emergency stops a run (R317): every unit stops, and commits that are not delivered
are discarded. -/
def State.runCut (s : State) (jid : Nat) (g : Job → Job) : State :=
  match s.run? jid with
  | none => s
  | some r =>
    let s := r.leads.foldl (fun s l =>
      let s := s.onUnit r l (fun t => { t.drain with live := false, stall := .none, commits := [] })
      (r.unit l).foldl (fun s n => (s.copySticky n).clrf F.LUMEN_Tt_STAT_WAITING n) s) s
    (s.updJob jid (fun j => { g j with autoEnd := true })).settleRun jid

/-- An output of tile `n` has been written to host memory (R308): its slot is free again. -/
def State.outputDone (s : State) (jid n : Nat) : State :=
  match s.run? jid with
  | none => s
  | some r =>
    let s := s.onRun jid (fun r => { r with outputs := r.outputs + 1, recomputed := r.recomputed || (s.tile n).rerun })
    let s := s.count F.LUMEN_Tt_OUT_CNT_COUNT 1 n
    (s.onTile n (fun t => ({ t with outBusy := t.outBusy - 1 } : TileSt).levels r.outSlots)).settleRun jid

end Sys2Proof.Machine
end

