-- ==== Sys2Proof/Machine/Movers.lean ====
section
/-! DEFINITION. Machine/Movers.lean: the MOVE job and the events of the data movers ("Data movers", R335-R357). -/
namespace Sys2Proof.Machine

/-! ### MOVE -/

/-- SRC_SPACE, DST_SPACE and WB of a MOVE (R351). -/
def Job.srcSpace (j : Job) : Nat := j.bits 8 1 1 0
def Job.dstSpace (j : Job) : Nat := j.bits 8 1 3 2
def Job.wb (j : Job) : Bool := j.bits 8 1 4 4 = 1

/-- An element of a MOVE's list (R352). -/
structure MvEl where
  src : Nat
  dst : Nat
  len : Nat
  /-- The bits that must be 0. -/
  rest : Nat
deriving DecidableEq, Repr

/-- The elements of a list (R352). -/
def mvList (n : Nat) (d : Bytes) : List MvEl :=
  (List.range n).map (fun i =>
    let o := 32 * i
    { src := fieldAt d o 8, dst := fieldAt d (o + 8) 8, len := fieldAt d (o + 16) 4, rest := fieldAt d (o + 20) 4 })

/-- Whether a pool address breaks R344: bits [63:27], VIEW 3, or a range outside a window of `size` bytes; without a named
window its size is not known. -/
def poolBad (size : Option Nat) (a len : Nat) : Bool :=
  a / 2 ^ 27 ≠ 0 || bits a 26 25 = 3 || (match size with | some z => decide (z < a % 2 ^ 25 + len) | none => false)

/-- A range of an element in its space is misaligned, wraps or leaves its window (R344, R352). -/
def mvBadAt (space width : Nat) (size : Option Nat) (a len : Nat) : Bool :=
  if space = 2 then false else a % width ≠ 0 || (if space = 0 then decide (2 ^ 64 < a + len) else poolBad size a len)

/-- The mover time factor c (R342). -/
def moverFactor (sw dw : Nat) (es : List MvEl) : Nat :=
  max (64 / sw + (if dw < sw ∧ es.any (fun e => e.dst % sw ≠ 0) then 1 else 0)) (64 / dw)

/-- The side of a host-to-host MOVE (R336): the side of the mover with the least reserved time, A in a tie. -/
def State.hostSide (s : State) : Nat :=
  match s.pickChan 0, s.pickChan 1 with
  | some a, some b => if s.moverUsed (b / 8) < s.moverUsed (a / 8) then 1 else 0
  | none, some _ => 1
  | _, _ => 0

/-- The running stream that a MOVE names (R351, R354). -/
def State.mvStream (s : State) (j : Job) : Option Capt :=
  s.record.capts.find? (fun (k : Capt) => k.isStream && !k.ended && k.sq = j.bits 30 1 5 0 && k.tag = j.fld 28 2)

/-- The admitted TILE_RUN whose window a MOVE names (R344, R351). -/
def State.mvRun (s : State) (j : Job) : Option RunSt :=
  (s.jobOf? (j.bits 26 1 5 0) (j.fld 24 2)).bind (fun x => if x.kind = 0x31 then s.run? x.jid else none)

/-- The demands of a MOVE (R336, R342, R344, R351-R355); `list` is its list as the host's memory answers. S and its M are taken
into W where a MOVE uses both directions of the host link or neither, at its rate R. -/
def State.movePlan (s : State) (list : Option Bytes) (j : Job) : Plan :=
  let ss := j.srcSpace
  let ds := j.dstSpace
  let n := j.bits 10 2 11 0 + 1
  let rate := j.fld 12 4
  let sw := 2 ^ j.bits 9 1 2 0
  let dw := 2 ^ j.bits 9 1 6 4
  let list := blockRead (j.fld 16 8) (32 * n) 32 list
  let es := mvList n (list.getD [])
  let pool := ss = 1 || ds = 1
  let host := ss = 0 || ds = 0
  let run := s.mvRun j
  let size := run.map (·.poolSize)
  let k := s.mvStream j
  let runSide := (run.map (fun r => r.poolBase / 2 ^ 24)).getD 0
  let side := if ss = 2 then (k.map (fun (k : Capt) => k.input / 2)).getD 0 else if pool then runSide else s.hostSide
  let c := moverFactor sw dw es
  let free := (s.pickChan side).map (fun ch => 9216 - s.moverUsed (ch / 8))
  let own := if rate = 0 then min 1600 (free.getD 0 / c) else rate
  let share (rd rh : Nat) : Nat :=
    if !host then own else if ss = 0 ∧ ds = 0 then min rd rh else if ss = 0 then rh else rd
  let rw := (k.map (fun (k : Capt) => unitsOf (s.rwOf k.input k.mode k.factor))).getD 0
  let lens := es.map (·.len)
  let wbBytes := if j.wb then 8 * n else 0
  let total := sumL lens
  let both := ss = 0 && ds = 0
  let late := (if ss = 2 then 2 * maxL lens else if host then total else 0) + wbBytes
  let cross := if ss = 2 ∧ ds = 1 ∧ runSide ≠ side then some side else none
  { malformed := j.kflags ≠ 0 || !payloadOnly j.desc [(8, 4, 0), (9, 2, 0), (9, 6, 4), (10, 11, 0), (12, 31, 0), (16, 63, 0),
        (24, 15, 0), (26, 5, 0), (28, 15, 0), (30, 5, 0), (32, 63, 0)] ||
      ss = 3 || decide (2 ≤ ds) || j.bits 9 1 2 0 = 7 || j.bits 9 1 6 4 = 7 || (!pool && (j.fld 24 2 ≠ 0 || j.fld 26 1 ≠ 0)) ||
      (ss ≠ 2 && (j.fld 28 2 ≠ 0 || j.fld 30 1 ≠ 0 || j.fld 32 8 ≠ 0)) ||
      (list.isSome && es.any (fun e => e.len = 0 || decide (262144 < e.len) || e.rest ≠ 0 || (ss = 2 && e.src ≠ 0)))
    badAddr := list.isNone || es.any (fun e =>
      mvBadAt ss sw size e.src e.len || mvBadAt ds dw size e.dst e.len || e.len % max sw dw ≠ 0)
    stateOk := (!pool || run.isSome) && (ss ≠ 2 || k.isSome)
    conflict := ss = 2 && (match k with | some k => s.claimed (.follow k.jid) | none => false)
    d2h := if ds = 0 then some rate else none
    h2d := if ss = 0 then some rate else none
    fracB := if side = 1 then ⟨1, 1⟩ else ⟨0, 1⟩
    demand := fun rd rh =>
      let r := share rd rh
      let stack (x : Nat) : Nat := if ss = 2 ∧ side = x then r else 0
      { claims := match k with | some k => if ss = 2 then [.follow k.jid] else [] | none => []
        hbm0 := stack 0, hbm1 := stack 1, xab := if cross = some 0 then r else 0, xba := if cross = some 1 then r else 0
        power := (((moverPower (r * c)).add (hbmPower (stack 0))).add (hbmPower (stack 1))).ceil }
    movers := fun rd rh => [(side, share rd rh * c, share rd rh)]
    specials := fun rd rh =>
      let r := share rd rh
      (if ss = 2 ∧ r < rw then [(if ds = 0 then 9 else 11, rw - r)] else []) ++
        (if !host ∧ rate = 0 ∧ own < 100 then [(11, 100 * c - min (100 * c) (free.getD 0))] else [])
    work := fun rd rh =>
      let r := max (share rd rh) 1
      let w : Q := ⟨200 + 5 * n, 100⟩
      let inS (w : Q) : Q := if late = 0 then w else (w.add ⟨late, 10 * r⟩).add ⟨1792, 100⟩
      if !host then inS ((w.add ⟨total, 10 * r⟩).add ⟨1792, 100⟩) else if both then inS w else w
    bytes := if host && !both then late else 0
    toHost := ds = 0
    durIsBound := ss ≠ 2
    dur := fun _ _ => if ss = 2 then none else some 0 }

/-- An address of an element as the mover uses it: a pool offset becomes a pool byte address under its VIEW (R344). -/
def mvAddr (space base a : Nat) : Nat := if space = 1 then bits a 26 25 * 2 ^ 25 + base + a % 2 ^ 25 else a

/-- MOVE (R336, R354, R355): its elements go to its channel in list order. A stream is followed from the first stored sample at
or after FOLLOW_TIME, which may already lie in its ring. -/
def execMove (list : Option Bytes) (s : State) : Host.Outcome State Fault Refusal :=
  live s fun s => s.admission 0x40 (s.movePlan list) (fun s j =>
    let n := j.bits 10 2 11 0 + 1
    let base := ((s.mvRun j).map (·.poolBase)).getD 0
    let es := ((List.range n).zip (mvList n (list.getD []))).map (fun x =>
      Elem.move x.1 (mvAddr j.srcSpace base x.2.src) (mvAddr j.dstSpace base x.2.dst) x.2.len)
    let ft := j.fld 32 8
    let t := if ft = 0 then s.devTime else s.devTime / 2 ^ 64 * 2 ^ 64 + ft
    let s := s.updJob j.jid (fun j => { j with
      autoEnd := true, followT := t, anchor := if j.srcSpace = 2 then none else some j.pickup })
    let s := match s.mvStream j with
      | some k =>
        if j.srcSpace ≠ 2 then s else
        let s := s.updCapt k.jid (fun (k : Capt) => { k with carry := [], followG := 0 })
        if ft = 0 then s else
        (k.words.filter (fun (x : StW) => x.w.smps.any (fun y => decide (t ≤ y.t)))).foldl (fun s (x : StW) =>
          match s.capt? k.jid with
          | some k => s.feedFollower k x
          | none => s) s
      | none => s
    let c := match s.chansOf j.jid with | c :: _ => c | [] => 0
    s.queueElems j.jid c es)

/-! ### Readiness and grants -/

/-- MOVER_ELEMENT_READY (R337, R339): the credit of channel `c` comes to cover its open element. -/
def execMoverElementReady (c : Fin 64) (s : State) : Host.Outcome State Fault Refusal :=
  live s fun s =>
    let x := s.chan c
    if x.st ≠ .held then s else
    match s.nextElem c with
    | none => s
    | some (j, e) =>
      if !j.elemOpen e || x.rate = 0 then s else
      let need := ((j.elemCount e * creditUnit : Nat) : Int) - s.creditOf c
      (s.toPhys (s.phys + ceilDiv need.toNat x.rate)).tryReady c

/-- PRODUCER_FLUSH_TIMEOUT (R346): the producer behind channel `c` holds bytes and has added none for MOVER_CTRL.FLUSH. -/
def execProducerFlushTimeout (c : Fin 64) (s : State) : Host.Outcome State Fault Refusal :=
  live s fun s =>
    if (s.chan c).st ≠ .held then s else
    match s.nextElem c with
    | none => s
    | some (j, e) =>
      if !j.elemProduced e || j.produced.isEmpty || j.prodClosed then s else
      ((s.toPhys (j.prodAt + s.flushTicks)).updJob j.jid (fun j => { j with prodFlush := true })).tryReady c

/-- MOVER_GRANT (R337, R338): an idle mover starts the element of its next READY channel. -/
def execMoverGrant (m : Fin 8) (s : State) : Host.Outcome State Fault Refusal :=
  live s fun s =>
    if (s.activeChan m).isSome then s else
    match s.nextReady m with
    | none => s
    | some c => s.grant c

/-! ### The end of an element -/

/-- Elements that read HBM pause while MPLL is not locked (R349). -/
def State.moverPaused (s : State) (j : Job) (e : Elem) : Bool :=
  !s.flag F.CLOCK_MPLL_STAT_LOCKED && (match e with
    | .seg _ _ _ _ _ => true
    | .move _ _ _ _ => j.fromStream
    | _ => false)

/-- CODE of an element that ended (R353): `n` of its `len` bytes moved. -/
def Job.elemCode (j : Job) (produced : Bool) (n len : Nat) : Nat :=
  if j.cut ≠ 0 then j.cut else if produced && decide (n < len) then (if j.prodClosed then 2 else 1) else 0

/-- A MOVE's final DETAIL (R356). -/
def Job.moveDetail (j : Job) : Nat :=
  b2n j.mvPad * 2 ^ 27 + b2n j.mvDamaged * 2 ^ 26 + b2n j.mvBreak * 2 ^ 25 + b2n j.mvShort * 2 ^ 24 + j.elemsDone % 2 ^ 13

/-- The STATUS word of an element (R353). -/
def mvStatus (n len pad code : Nat) (brk dmg : Bool) : Bytes :=
  leBytes 3 n ++ leBytes 1 (128 + 64 * b2n brk + 32 * b2n dmg + code) ++ leBytes 3 (len - n) ++ leBytes 1 pad

/-- The zero bytes that fill the burst in which a producer's count ends (R347): up to the next 64-byte boundary of the
destination or the element's end. -/
def padOf (dst n len : Nat) : Nat := if len ≤ n then 0 else min (roundUp (dst + n) 64) (dst + len) - (dst + n)

/-- Writes a MOVE's bytes to its destination (R340, R344). -/
def State.mvWrite (s : State) (space dst : Nat) (d : Bytes) : State :=
  if d.isEmpty then s else if space = 0 then s.emit (.hostWrite dst d) else s.poolWrite (dst / 2 ^ 25) (dst % 2 ^ 25) d

/-- Whether the bursts of an element are taken from the top (R345): its ranges overlap and the destination lies above. -/
def mvDescends (ss ds src dst len : Nat) : Bool :=
  let a := if ss = 1 then src % 2 ^ 25 else src
  let b := if ds = 1 then dst % 2 ^ 25 else dst
  ss = ds && decide (a < b ∧ b < a + len)

/-- An element of a MOVE ends with CODE `code` (R345, R347, R350, R353, R356): `n` bytes are moved as if copied whole first,
`data` are those read from host memory, `damaged` the offsets at which the source failed. The result is the state and the
zero bytes written. -/
def State.moveElem (s : State) (c : Nat) (j : Job) (idx src dst len n code : Nat) (data : Bytes) (damaged : List Nat) :
    State × Nat :=
  let ss := j.srcSpace
  let ds := j.dstSpace
  let off := if mvDescends ss ds src dst len then len - n else 0
  let d := if ss = 0 then (data ++ zeros n).take n else if ss = 1 then s.poolRead (src % 2 ^ 25 + off) n else j.produced.take n
  let pad := if ss = 2 ∧ (code = 1 ∨ code = 2) then padOf (dst % 64) n len else 0
  let brk := ss = 2 && j.prodBreaks.any (fun b => decide (b < n))
  let dmg := !damaged.isEmpty
  let s := s.mvWrite ds (dst + off) (d ++ zeros pad)
  let s := if pad = 0 then s else s.count F.MOVER_PAD_CNT_COUNT
  let s := if ss = 1 then damaged.foldl (fun s o => s.poolParity 0 (src % 2 ^ 25 + o)) s else s
  let s := s.updJob j.jid (fun j =>
    let j := { j with
      delivered := j.delivered + (if ss = 0 ∨ ds = 0 then n else 0), residue := len - n, elemsDone := j.elemsDone + b2n (decide (code ≤ 2))
      secondary := j.secondary || (s.bifurcated && decide (32 ≤ c) && (ss = 0 || ds = 0))
      produced := if ss = 2 then j.produced.drop n else j.produced
      prodBreaks := (j.prodBreaks.filter (fun b => decide (n ≤ b))).map (fun b => b - n)
      mvPad := j.mvPad || decide (0 < pad), mvDamaged := j.mvDamaged || dmg, mvBreak := j.mvBreak || brk
      mvShort := j.mvShort || code = 1, fIntegrity := j.fIntegrity || dmg, fFlagged := j.fFlagged || brk
      fPartial := j.fPartial || code = 2 }
    { j with detail := j.moveDetail })
  let s := if j.wb then s.emit (.hostWrite (j.fld 16 8 + 32 * idx + 24) (mvStatus n len pad code brk dmg)) else s
  (s, pad)

/-- A frame's writes in their order (R218): the data, the header's bytes 8 to 63, then its bytes 0 to 7; the first `n` bytes. -/
def frameWrites (addr n : Nat) (d : Bytes) : List (Nat × Bytes) :=
  let body := d.drop 64
  let mid := (d.drop 8).take 56
  let k1 := min n body.length
  let k2 := min (n - k1) mid.length
  [(addr + 64, body.take k1), (addr + 8, mid.take k2), (addr, (d.take 8).take (n - k1 - k2))]

/-- Host bytes for the owning block have come (R201, R182, R305, R312). -/
def State.bytesIn (s : State) (j : Job) (addr : Nat) (d : Bytes) : State :=
  if j.kind = 0x12 then s.beaconIn j.jid d
  else if j.kind = 0x31 then
    match s.run? j.jid with
    | some r => s.itemIn j.jid (r.tileAt addr) d
    | none => s
  else
    let s := s.updJob j.jid (fun j => { j with taken := j.taken ++ d })
    if j.kind = 0x30 then s.imageIn j.jid else if j.kind = 0x06 then s.agMaskIn j.jid else s

/-- A host frame has been written whole: its block hears of it (R218, R308). -/
def State.frameOut (s : State) (j : Job) (note : Nat) : State :=
  if j.kind = 0x31 then s.outputDone j.jid note
  else if j.kind = 0x10 ∨ j.kind = 0x11 then s.fibreFrameDone note
  else s

/-- A job's element has ended: its channel may go on, and the job may be done (R55, R347). -/
def State.afterElem (s : State) (c : Nat) (j : Job) : State :=
  let s := s.tryReady c
  let s := if j.kind = 0x31 then s.settleRun j.jid else s.dryEnd j.jid
  s.tryFinal j.jid

/-- The element in progress on channel `c` ends with `n` bytes moved (R337-R353); `err` says that a host request failed. -/
def State.elemEnd (s : State) (c : Nat) (j : Job) (e : Elem) (n : Nat) (data : Bytes) (damaged : List Nat) (err : Bool) : State :=
  let whole := j.cut = 0 && !err
  let s := if damaged.isEmpty then s else s.count F.MOVER_DAMAGED_CNT_COUNT damaged.length
  let s := if whole then s else s.updJob j.jid (fun j => { j with residue := e.len - n })
  let r : State × Nat := match e with
    | .toHost a d => ((s.emit (.hostWrite a (d.take n))).delivered j.jid c n, 0)
    | .fromHost _ _ => (s.delivered j.jid c n, 0)
    | .move i src dst len => s.moveElem c j i src dst len n (if err then 4 else j.elemCode j.fromStream n len) data damaged
    | .produced a _ =>
      (((s.emit (.hostWrite a (j.produced.take n))).delivered j.jid c n).updJob j.jid (fun j => { j with produced := j.produced.drop n }), 0)
    | .frame a d _ =>
      (((frameWrites a n d).foldl (fun s w => if w.2.isEmpty then s else s.emit (.hostWrite w.1 w.2)) s).delivered j.jid c n, 0)
    | .seg a _ ent part off => ((s.segDone j.jid a ent part off n damaged).delivered j.jid c
      (s.segWritten j.jid ent part off n), 0)
  let s := r.1.freeElem c (n + r.2)
  let s := if !whole then s else match e with
    | .fromHost a len => s.bytesIn j a ((data ++ zeros len).take len)
    | .frame _ _ note => s.frameOut j note
    | _ => s
  s.afterElem c j

/-- MOVER_ELEMENT_END (R337, R347): the element in progress on mover `m` ends. `moved` counts its bytes where an ABORT or a
stop cut it short. -/
def execMoverElementEnd (m : Fin 8) (moved : Nat) (data : Bytes) (retries : Nat) (damaged : List Nat) (s : State) :
    Host.Outcome State Fault Refusal :=
  live s fun s =>
    match s.activeChan m with
    | none => s
    | some c =>
      match s.job? (s.chan c).jid, (s.chan c).cur with
      | some j, some e =>
        if s.moverPaused j e then s else
        let n := (s.chan c).count
        let s := if retries = 0 then s else s.count F.MOVER_RETRY_CNT_COUNT retries
        s.elemEnd c j e (if j.cut = 0 then n else min moved n) data (damaged.filter (fun o => decide (o < n))) false
      | _, _ => s

/-- The movers stop a job's transfer (R348, R349): no element waits or starts any more, and one in progress ends with `code`
after its burst. -/
def State.cutMoves (s : State) (jid code : Nat) : State :=
  let s := s.updJob jid (fun j => { j with elems := [], cut := code })
  (s.chansOf jid).foldl (fun s c =>
    if (s.chan c).st = .ready then s.setChan c { s.chan c with st := .held, cur := none } else s) s

end Sys2Proof.Machine
end

