-- ==== Sys2Proof/Machine/Cuts.lean ====
section
/-! DEFINITION. Machine/Cuts.lean: ending a job before its work is complete, as each KIND's chapter gives it: by an ABORT
(R68-R70), by a supply warning or thermal emergency (R465), or by a failed host read (R50). -/
namespace Sys2Proof.Machine

/-- The movers stop, and the job's work is over. -/
def State.cutEnd (s : State) (jid code : Nat) (g : Job → Job) : State := (s.cutMoves jid code).endJob jid g

/-- Ends the Glimmer or temperature run of job `jid` (R222, R242); frames under way are still written. `cut` says that a
probe in progress ends as well. -/
def State.fibreCut (s : State) (jid : Nat) (cut : Bool) (g : Job → Job) : State :=
  (List.range 2).foldl (fun s f =>
    let s := if (s.glim f).any (fun (r : GRun) => r.jid = jid) then s.glimCut f true cut g else s
    if (s.ft f).any (fun (r : FtRun) => r.jid = jid) then s.ftCut f cut g else s) s

/-- DETAIL of the offer of job `jid`, ended with outcome 0xFF (R442). -/
def State.lostOfferDetail (s : State) (jid : Nat) : Nat :=
  match s.mgmt.offers.find? (fun o => (o.src = 0 && o.jid = jid) || o.joined.any (fun x => x.1 = 0 && x.2 = jid)) with
  | some o => offerDetail o 0xFF
  | none => 0xFF

/-- Ends the offer of job `jid` with outcome 0xFF where it can still be ended (R442); the second component says so. -/
def State.offerCut (s : State) (jid code : Nat) (g : Job → Job) : State × Bool :=
  let d := s.lostOfferDetail jid
  let r := s.abortOffer jid g
  if r.2 then (r.1.cutEnd jid code (fun j => { (g j) with detail := d }), true) else (s, false)

/-- Ends an admitted job whose work is not complete, as its KIND's chapter says. `code` is the CODE of elements in progress,
and `g` sets the reason of the final STATUS. The second component says whether the job could be ended (R69). -/
def State.cutJob (s : State) (j : Job) (code : Nat) (g : Job → Job) : State × Bool :=
  let jid := j.jid
  match j.kind with
  | 0x01 | 0x03 => (s.recCut jid g, true)
  | 0x02 => (((s.cutMoves jid code).readDetail jid).endJob jid g, true)
  | 0x04 => ((s.closeCut jid).endJob jid g, true)
  | 0x05 => ((s.agReadCut jid).cutEnd jid code g, true)
  | 0x06 => ((s.agClearCut jid).cutEnd jid code g, true)
  | 0x10 | 0x11 => (s.fibreCut jid (code = 5) g, true)
  | 0x12 => ((s.dropLoad jid).cutEnd jid code g, true)
  | 0x20 => (s.glCut jid g, true)
  | 0x30 => ((s.loadCut j).cutEnd jid code g, true)
  | 0x31 => ((s.cutMoves jid code).runCut jid g, true)
  | 0x50 => ((s.endSeq id).cutEnd jid code g, true)
  | 0x51 => ((s.dropInj jid).endJob jid g, true)
  | 0x60 => ((s.calCut jid).cutEnd jid code g, true)
  | 0x61 =>
    if s.clk.align.any (fun r => r.jid = jid && r.passed) then (s, false)
    else ((s.onClk (fun c => { c with align := none })).endJob jid g, true)
  | 0x70 => s.offerCut jid code g
  | 0x7F => (s, false)
  | _ => (s.cutEnd jid code g, true)

/-! ### A failed host read (R50) -/

/-- Whether an element of the job reads host memory (R343). -/
def Job.readsHost (j : Job) : Elem → Bool
  | .fromHost _ _ => true
  | .move _ _ _ _ => j.srcSpace = 0
  | _ => false

/-- What the completed requests of a failed element brought stands with the owning block (R50). -/
def State.standing (s : State) (j : Job) (d : Bytes) : State :=
  if j.kind = 0x12 then
    if s.fibre.loads.any (fun (l : BLoad) => l.jid = j.jid && l.checked) then s.beaconIn j.jid d else s
  else if j.kind = 0x30 then s.updJob j.jid (fun j => { j with taken := j.taken ++ d })
  else s

/-- A job whose host read failed ends ADDRESS_ERROR (R50, R349). -/
def State.readFailed (s : State) (jid : Nat) : State :=
  match s.job? jid with
  | none => s
  | some j =>
    if j.ending then s.updJob jid (fun j => { j with fAddress := true })
    else (s.cutJob j 4 (fun j => { j with fAddress := true })).1

/-- HOST_READ_ERROR (R50, R349): the element in progress on channel `c` ends with what its completed requests brought, and
its job ends ADDRESS_ERROR. -/
def execHostReadError (c : Fin 64) (data : Bytes) (s : State) : Host.Outcome State Fault Refusal :=
  live s fun s =>
    match s.job? (s.chan c).jid, (s.chan c).cur with
    | some j, some e =>
      if (s.chan c).st ≠ .active ∨ !j.readsHost e then s else
      let d := data.take (e.len - 1)
      let s := s.standing j d
      let s := s.updJob j.jid (fun j => { j with elems := [], fAddress := true })
      (s.elemEnd c j e d.length d [] true).readFailed j.jid
    | _, _ => s

/-! ### ABORT (R68-R70) -/

/-- Ends one target of an ABORT. The second component is 1 where it is aborted, 2 where it is found but cannot be, and 0
where it is no target. -/
def State.abortOne (s : State) (jid : Nat) : State × Nat :=
  match s.job? jid with
  | none => (s, 0)
  | some j =>
    if j.kind = 0x7F then (s, 2)
    else if !j.decided then (s.refuse jid stAborted 0 0, 1)
    else if !j.admitted then (s, 0)
    else if j.ending then (s.updJob jid (fun j => { j with fAborted := true }), 1)
    else
      let r := s.cutJob j 3 (fun j => { j with fAborted := true })
      (r.1, if r.2 then 1 else 2)

/-- Ends the targets `jids`, and says which were aborted and how many were not abortable. -/
def State.abortAll (s : State) : List Nat → State × List Nat × Nat
  | [] => (s, [], 0)
  | x :: xs =>
    let r := s.abortOne x
    let q := r.1.abortAll xs
    (q.1, if r.2 = 1 then x :: q.2.1 else q.2.1, q.2.2 + b2n (r.2 = 2))

/-- The targets of ABORT `a` (R68, R69). -/
def State.abortTargets (s : State) (a : Job) : List Nat :=
  (s.host.jobs.filter (fun j => j.jid ≠ a.jid && j.sq = a.bits 10 1 5 0 &&
    (a.bits 11 1 0 0 = 1 || j.tag = a.fld 8 2))).map (·.jid)

/-- ABORT (R68-R70): always admitted unless it is malformed, with a bound of 42 µs. -/
def execAbort (s : State) : Host.Outcome State Fault Refusal :=
  live s fun s =>
    match s.nextDecision with
    | none => s
    | some j =>
      if j.kind ≠ 0x7F then s
      else if s.headerBad j || j.kflags ≠ 0 || !payloadOnly j.desc [(8, 15, 0), (10, 5, 0), (11, 0, 0)] then
        s.refuse j.jid stDescriptor 0 0
      else
        let s := (s.carryOut j.jid (.granted {} 0 0 42 (some 0) [])).1
        let s := s.updJob j.jid (fun j => { j with anchor := some j.pickup })
        let r := s.abortAll (s.abortTargets j)
        (r.1.updJob j.jid (fun j => { j with waits := r.2.1 })).endJob j.jid (fun j =>
          { j with detail := r.2.2 % 2 ^ 16 * 2 ^ 16 + r.2.1.length % 2 ^ 16 })

end Sys2Proof.Machine
end

