-- ==== Sys2Proof/Machine/LanternCmds.lean ====
section
/-! DEFINITION. Machine/LanternCmds.lean: the commands of the Lantern trigger engine ("Lantern trigger engine",
R105-R130). -/
namespace Sys2Proof.Machine

/-- LANTERN_COMMIT (R129, R130): a write of `v` to LANTERN_COMMIT. -/
def State.lanternCommitWrite (s : State) (v : Word) : State :=
  let sh := s.shadow lanLo lanHi
  if !bit v.toNat 0 || sh == lastPend s.lan.pend (s.active lanLo lanHi) then s else
  match lanternOffender sh with
  | some c => (s.setf F.LANTERN_COMMIT_STAT_REJ_INVALID).wr F.LANTERN_COMMIT_STAT_REJ_WHERE c
  | none =>
    let p := addPend s.lan.pend (s.boundaryAfter (64 * tickNs)) sh
    ({ s with lan := { s.lan with pend := p } }).setf F.LANTERN_COMMIT_STAT_PENDING

/-- LANTERN_COMMIT (R129). -/
def execLanternCommit (v : Word) (s : State) : Host.Outcome State Fault Refusal := live s fun s => s.lanternCommitWrite v

/-- A change of condition `c` between two settings (R129): 0 none, 1 limited to levels and hysteresis, 2 any other. -/
def condChange (a b : Regs) (c : Nat) : Nat :=
  let x := condCfg a c
  let y := condCfg b c
  if x = y then 0
  else if { x with levelA := 0, levelB := 0, hyst := 0 } = { y with levelA := 0, levelB := 0, hyst := 0 } then 1 else 2

/-- Whether a unit's fields differ between two settings (R129). -/
def unitChange (a b : Regs) (u : Nat) : Bool :=
  shadowRows a (0x802000 + 0x40 * u) (0x802040 + 0x40 * u) != shadowRows b (0x802000 + 0x40 * u) (0x802040 + 0x40 * u)

/-- A condition leaves its old set-up at `t` (R129): on an analogue source the old set-up runs on from its state over the
words that began before `t`; where the new source is no analogue one its events end at `t`. -/
def State.leaveOld (s : State) (old : Regs) (c t : Nat) : State :=
  match srcOf (condCfg old c).src with
  | .ain n =>
    let n := if s.ract F.PRISM_CHn_CTRL_PAIR (n / 2 * 2) = 1 then n / 2 * 2 else n
    let ch := s.lanCh n
    let lim := match srcOf (condCfg s.act c).src with | .ain _ => t + 2 ^ 72 | _ => t
    if ch.held.isNone || ch.tails.any (fun x => x.1 = c) then s
    else s.setLanCh n { ch with tails := ch.tails ++ [(c, lim, s.cond c)] }
  | _ => s

/-- Judges a pattern again after a change of the set-up: no event, and a change of its truth abandons a duration (R112). -/
def State.rejudge (s : State) (c : Nat) : State :=
  let now := patternTrue (condCfg s.act c) s.lan.levels
  if now = (s.cond c).truth then s else s.setCond c { truth := now }

/-- LANTERN_COMMIT_APPLY (R129): at the first SCLK boundary at least 64 ns after the write. -/
def execLanternCommitApply (s : State) : Host.Outcome State Fault Refusal :=
  live s fun s =>
    match s.lan.pend with
    | none => s
    | some p =>
      let s := (s.toDev p.due).settlePatterns p.due
      let old := s.active lanLo lanHi
      let s := s.applyShadow lanLo lanHi p.snap
      let now := s.active lanLo lanHi
      let s := { s with lan := { s.lan with pend := p.after, oldAct := old, applyT := p.due } }
      let s := (List.range 16).foldl (fun s c =>
        if !condUsed now c then (if condUsed old c then s.leaveOld old c p.due else s).setCond c {}
        else if !condUsed old c then s.resetCond c
        else if condChange old now c = 2 then (s.leaveOld old c p.due).resetCond c
        else if condChange old now c = 1 && (condCfg now c).type = 9 then s.rejudge c
        else s) s
      let us := (List.range 8).filter (fun u => unitChange old now u ||
        (unitOn now u && (unitConds now u).any (fun c => condChange old now c = 2)))
      let s := s.pushCtl (.apply p.due now us)
      (s.flushUnits p.due).wr F.LANTERN_COMMIT_STAT_PENDING (b2n p.after.isSome)

/-- TRIGIN_EDGE (R108): TRIGIN `p` crosses its switching level; `t` is the edge's stamp. -/
def execTriginEdge (p : Fin 2) (rise : Bool) (t : Nat) (s : State) : Host.Outcome State Fault Refusal :=
  live s fun s => if !s.running then s else (s.toDev t).lanEdge (256 + p.val) rise t

/-- LANTERN_TIMEOUT (R112): the timeout or the pattern duration of condition `c` on a digital or line source expires. On an
analogue source the words themselves carry the timeout. -/
def execLanternTimeout (c : Fin 16) (s : State) : Host.Outcome State Fault Refusal :=
  live s fun s =>
    let k := condCfg s.act c
    match srcOf k.src, (s.cond c).due with
    | .ain _, _ => s
    | _, none => s
    | _, some d =>
      if !condUsed s.act c then s else
      let s := (s.toDev d).settlePatterns (d + 1)
      let st := s.cond c
      if st.due ≠ some d then s else
      ((s.setCond c { st with due := none }).pushEvents [⟨d, c, d / cycle * cycle, {}⟩]).flushUnits d

/-- SEQUENCE_TIMEOUT (R118): SEQ_TMAX passes without the next stage's event, and the sequence resets. -/
def execSequenceTimeout (u : Fin 8) (s : State) : Host.Outcome State Fault Refusal :=
  live s fun s =>
    let x := s.unit u
    let tmax := s.lan.unitAct.rd F.LANTERN_UNITu_SEQ_TMAX_T u 0
    if x.stage = 0 || tmax = 0 then s else
    let t := x.stageT + tmax * 256
    let s := (s.toDev t).flushUnits (t + 1)
    let y := s.unit u
    if y.stage = x.stage && y.stageT = x.stageT && decide (t < s.lanHorizon.getD s.lanEnd) then s.setUnit u { y with stage := 0 } else s

/-- A mark reaches its consumers (R122): the captures that listen to its unit, and a temperature run. -/
def State.consume (s : State) (u : Nat) (m : Mark) : State :=
  let s := { s with record := { s.record with capts := s.record.capts.map (fun (k : Capt) =>
    if !k.isStream && !k.ended && !k.hold && (k.unit = u || (k.shape = 3 && k.stopUnit = u)) then { k with inbox := k.inbox ++ [m] }
    else k) } }
  s.ftMark u m

/-- MARK_QUEUE_DRAIN (R121): unit `u`'s oldest mark leaves its queue toward the consumers. -/
def execMarkQueueDrain (u : Fin 8) (s : State) : Host.Outcome State Fault Refusal :=
  live s fun s =>
    let s := s.flushUnits s.devTime
    let x := s.unit u
    match x.queue with
    | [] => s
    | m :: rest => (s.setUnit u { x with queue := rest }).consume u m

/-- LINE_EVENT (R128): a line event of time `t` arrives on TLi. -/
def execLineEvent (i : Fin 8) (t : Nat) (s : State) : Host.Outcome State Fault Refusal :=
  live s fun s =>
    if !s.running then s else
    let s := s.toDev t
    let ok := s.flag F.ERNOS_STAT_ALIGNED
    if !bit (s.ract F.LANTERN_IMPORT_LINE_EN) i || s.lan.holding then s
    else if !ok then
      let s := (List.range 8).foldl (fun s u =>
        if unitOn s.act u && (unitConds s.act u).any (fun c => srcOf (condCfg s.act c).src == .tl i) then
          s.setf F.LANTERN_UNITu_STAT_NO_ALIGN u
        else s) s
      s.syncLine i t false
    else
      let last := kget s.lan.lastLine i 0
      if last ≠ 0 ∧ t < last + 524288 then s.count F.LANTERN_LINE_DROP_CNT_COUNT else
      let s := { s with lan := { s.lan with lastLine := kset s.lan.lastLine i t 0 } }
      (s.lanLine i t).syncLine i t true

/-- CLOCK_HOLD_END (R125): 2 ms after T_relock. -/
def execClockHoldEnd (s : State) : Host.Outcome State Fault Refusal :=
  live s fun s =>
    match s.clk.holdEnd with
    | none => s
    | some t =>
      let s := s.toDev t
      ({ s with clk := { s.clk with holdEnd := none } }).blocksResume t

end Sys2Proof.Machine
end

