-- ==== Sys2Proof/Machine/Power.lean ====
section
/-! DEFINITION. Machine/Power.lean: supplies, temperature, the stop of all work, and start-up ("Power, heat, start-up and
package", R454-R471). -/
namespace Sys2Proof.Machine

/-! ### The stop of all work (R463, R465) -/

/-- Ends one open job of a supply warning or thermal emergency, whatever its stage: its final STATUS is DEADLINE_MISSED. -/
def State.stopJob (s : State) (jid : Nat) : State :=
  let g (j : Job) : Job := { j with fStopped := true }
  match s.job? jid with
  | none => s
  | some j =>
    if !j.admitted || j.kind = 0x7F || j.kind = 0x70 then s
    else if j.ending then s.updJob jid g
    else if j.kind = 0x61 then (s.onClk (fun c => { c with align := none })).endJob jid g
    else (s.cutJob j 5 g).1

/-- A standalone play ends: its output falls to 0 V, its markers fall, and PLAY's active copy follows (R198, R465). -/
def State.stopPlay (s : State) (b : Nat) : State := (s.bcnStop b true).wact F.BEACON_Bb_CTRL_PLAY 0 b

/-- Acquisition stops and every open job ends (R463, R465), as each block's chapter states: the offers (R439), the pool's
test (R333), the stacks (R376), the outputs and the loops (R422, R424), and a start-up calibration (R471). -/
def State.stopAll (s : State) : State :=
  let s := s.strikeOffers
  let s := (s.host.jobs.map (·.jid)).foldl State.stopJob s
  let s := (s.stopPlay 0).stopPlay 1
  (((s.calCut 0).marchStop).hbmStop).amuStrike

/-- READY, STAGE and STOPPED follow what holds (R463, R466, R471, R477): an emergency before a supply warning, then start-up
where it has not finished, then readiness. -/
def State.showStage (s : State) : State :=
  let down := s.flag F.POWER_STAT_THERM_EMERG
  let stopped := down || s.power.supplyHold
  let s := (s.wr F.GLOBAL_STATUS_STOPPED (b2n stopped)).wr F.POWER_STAT_STOPPED (b2n stopped)
  let up := s.host.started && !s.power.starting
  let s := s.wr F.GLOBAL_STATUS_READY (b2n (up && !stopped))
  if down then s.wr F.GLOBAL_STATUS_STAGE 6
  else if s.power.supplyHold then s.wr F.GLOBAL_STATUS_STAGE 7
  else if up then s.wr F.GLOBAL_STATUS_STAGE 5
  else if s.power.starting then s
  else s.wr F.GLOBAL_STATUS_STAGE (b2n (!s.mgmt.verifying.isEmpty))

/-! ### Temperature (R461-R463) -/

/-- The hottest sensor and its reading (R461), the lowest index of equals. -/
def hottest : Nat → List Int → Nat × Int
  | _, [] => (0, -32768)
  | i, t :: ts => let r := hottest (i + 1) ts; if r.2 ≤ t then (i, t) else r

/-- T_j from the latest sample (R461). -/
def State.junction (s : State) : Nat × Int := hottest 0 ((List.range 36).map (fun i => kget s.power.temps i 0))

/-- The thermal emergency (R463), with T_j and its sensor: once, until a reset clears the latch. -/
def State.emergency (s : State) (tj : Int) (sensor : Nat) : State :=
  if s.flag F.POWER_STAT_THERM_EMERG then s else
  let s := (s.count F.THERM_EMERG_CNT_COUNT).ledgerAdd ctrEmerg
  let s := s.raise 2 0x3C02 0 (unsg 64 tj) sensor
  let s := s.stopAll
  let s := (List.range 4).foldl (fun s n => if s.chOn n && !s.pairedOdd n then (s.lanAway n).penRestart n else s) s
  ((s.setf F.POWER_STAT_THERM_EMERG).showStage).emit (.pin "THERM_N" 0)

/-- The stacks' temperatures as their registers show them (R366, R378). -/
def State.showStack (s : State) (k : Nat) (t : Int) : State :=
  (s.wr F.HBMC_Ss_TEMP_TEMP (unsg 8 t) k).wr F.HBMC_Ss_STAT_HOT (b2n (decide (85 < t))) k

/-- The thermal warning begins (R62, R462). -/
def State.warnBegin (s : State) (tj : Int) (sensor : Nat) : State :=
  let s := ((s.setf F.POWER_STAT_THERM_WARN).setf F.POWER_STAT_TW_SEEN).setf F.POWER_ALERT_THERM
  let s := (s.count F.THERM_WARN_CNT_COUNT).raise 1 0x3C01 0 (unsg 64 tj) sensor
  s.onHost (fun h => { h with thermLimit := some s.pres })

/-- The thermal warning ends (R462). -/
def State.warnStop (s : State) : State :=
  let s := (s.wr F.POWER_STAT_THERM_WARN 0).onHost (fun h => { h with thermLimit := none })
  { s with power := { s.power with coolSince := none } }

/-- THERMAL_SAMPLE (R461, R462): every 1 ms. -/
def execThermalSample (temps : List Int) (hbm0 hbm1 : Int) (s : State) : Host.Outcome State Fault Refusal :=
  live s fun s =>
    let s := s.toPhys s.power.nextSample
    let cells := (List.range 36).foldl (fun m i => kset m i (temps.getD i 0) 0) ([] : KMap Int)
    let s := { s with power := { s.power with temps := cells, nextSample := (s.phys / tickMs + 1) * tickMs } }
    let j := s.junction
    let s := (s.wr F.THERM_TJ_SENSOR j.1).wr F.THERM_TJ_T (unsg 16 j.2)
    let s := if sgn 16 (s.rd F.THERM_TJ_MAX_T) < j.2 then s.wr F.THERM_TJ_MAX_T (unsg 16 j.2) else s
    let s := (List.range 4).foldl (fun s n => s.wr F.PRISM_CHn_TEMP_NOW (unsg 16 (kget s.power.temps (32 + n) 0)) n) s
    let s := (s.showStack 0 hbm0).showStack 1 hbm1
    let hot := decide (6400 ≤ j.2 ∨ 95 ≤ hbm0 ∨ 95 ≤ hbm1)
    let cool := decide (j.2 < 97 * 64 ∧ hbm0 < 92 ∧ hbm1 < 92)
    let s := if !s.flag F.POWER_STAT_THERM_WARN then (if hot then s.warnBegin j.2 j.1 else s)
      else if !cool then { s with power := { s.power with coolSince := none } }
      else
        let t := s.power.coolSince.getD s.phys
        if t + tickS ≤ s.phys then s.warnStop else { s with power := { s.power with coolSince := some t } }
    if 110 * 64 ≤ j.2 ∨ 105 ≤ hbm0 ∨ 105 ≤ hbm1 then s.emergency j.2 j.1 else s

/-- THERMAL_EMERGENCY (R461, R463): the comparators act between samples. -/
def execThermalEmergency (tj : Int) (sensor : Fin 36) (hbm0 hbm1 : Int) (s : State) :
    Host.Outcome State Fault Refusal :=
  live s fun s => if 110 * 64 ≤ tj ∨ 105 ≤ hbm0 ∨ 105 ≤ hbm1 then s.emergency tj sensor else s

/-! ### Supplies (R459, R464-R466) -/

/-- An assertion of the supply warning (R465), from the pin (0) or a rail (1 + its code): while one is in force another has
no effect of its own. -/
def State.supplyOn (s : State) (source : Nat) : State :=
  let s := (((s.setf F.POWER_STAT_SUPPLY_WARN).setf F.POWER_STAT_SW_SEEN).count F.SUPPLY_WARN_CNT_COUNT)
  let s := s.raise 2 0x3C03 0 source s.stamp
  let s := s.stopAll
  ({ s with power := { s.power with supplyHold := true } }).showStage.ledgerRegs

/-- A rail monitor's reading (R464): margin, and a rail fault. -/
def State.railRead (s : State) (r mv : Nat) : State :=
  let was := s.supplyNow
  let s := { s with power := { s.power with volts := kset s.power.volts r (some mv) none } }
  let low := s.railsLow
  let s := if low && !s.flag F.POWER_STAT_MARGIN then
      ((s.count F.SUPPLY_MARGIN_CNT_COUNT).setf F.POWER_ALERT_MARGIN).raise 1 0x3C04 0 r mv
    else s
  let s := (s.wr F.POWER_STAT_MARGIN (b2n low)).ledgerRegs
  if s.railOff r 5 true && !was then s.supplyOn (1 + r)
  else if was && !s.supplyNow then { s with power := { s.power with warnEnd := s.phys } }
  else s

/-- SUPPLY_WARNING (R465): the pin low for at least 100 ns, or a rail fault; shorter pulses are ignored. It is recognised
100 ns after the pin falls. -/
def execSupplyWarning (source : Fin 12) (x : Nat) (s : State) : Host.Outcome State Fault Refusal :=
  live s fun s =>
    if source.val ≠ 0 then s.railRead (source - 1) x
    else if x < 100 * tickNs then s
    else
      let e := s.phys + x
      let s := s.toPhys (s.phys + 100 * tickNs)
      let was := s.supplyNow
      let s := { s with power := { s.power with warnEnd := max s.power.warnEnd e } }
      if was then s else s.supplyOn 0

/-- SUPPLY_MARGIN (R464). -/
def execSupplyMargin (rail : Fin 11) (mv : Nat) (s : State) : Host.Outcome State Fault Refusal :=
  live s fun s => s.railRead rail mv

/-- SUPPLY_WARN_RELEASE (R466, R471): 10 ms after the pin is high and no rail is out, READY sets again, or a start-up that
was stopped resumes from step 6. An emergency stays latched. -/
def execSupplyWarnRelease (s : State) : Host.Outcome State Fault Refusal :=
  live s fun s =>
    if !s.power.supplyHold || s.railsOut then s else
    let s := s.toPhys (s.power.warnEnd + 10 * tickMs)
    let s := ({ s with power := { s.power with supplyHold := false } }).wr F.POWER_STAT_SUPPLY_WARN 0
    if s.flag F.POWER_STAT_THERM_EMERG then s.showStage
    else
      let s := s.hbmStart
      (if s.power.starting then s.beginStartup s.phys else s).showStage.ledgerRegs

/-- POWER_MEASURE (R459): a 1 ms average; an excess over P_res of more than 2.0 W counts. -/
def execPowerMeasure (p : Nat) (rails : List (Nat × Nat)) (s : State) : Host.Outcome State Fault Refusal :=
  live s fun s =>
    let s := s.toPhys s.power.nextPower
    let s := { s with power := { s.power with nextPower := (s.phys / tickMs + 1) * tickMs } }
    let s := (s.wr F.POWER_MEAS_P (min p 0xFFFF)).maxTo F.POWER_MEAS_MAX_P p
    let s := if s.pres + 20 < p then s.count F.POWER_EXCESS_CNT_COUNT else s
    ((List.range 11).zip rails).foldl (fun s r =>
      ({ s with power := { s.power with amps := kset s.power.amps r.1 r.2.2 0 } }).railRead r.1 r.2.1) s

/-! ### Start-up (R470) -/

/-- Start-up goes on: no stop holds it. -/
def State.startupGoes (s : State) : Bool :=
  s.power.starting && !s.power.supplyHold && !s.flag F.POWER_STAT_THERM_EMERG

/-- WARMUP_END (R470, step 9): 150 ms after step 6, the pool test and training having ended; foreground calibration of all
four channels begins with the calibration-source conversion. -/
def execWarmupEnd (s : State) : Host.Outcome State Fault Refusal :=
  live s fun s =>
    if !s.startupGoes || s.power.warmDone || !s.power.poolDone || s.rd F.HBMC_STAT_TRAINED ≠ 3 then s else
    let s := (s.toPhys (s.power.startAt + 150 * tickMs)).wr F.GLOBAL_STATUS_STAGE 3
    let r : CalRun := { jid := 0, keepOnFail := false, mask := 15, todo := [0, 1, 2, 3] }
    ({ s with
      power := { s.power with warmDone := true }
      prism := { s.prism with cal := s.prism.cal ++ [r] } }).calRequest 0

/-- The ledger session opens (R444, R445, R470): the fine counters start at random, and the power cycle counts. -/
def State.openSession (s : State) : State :=
  if s.ledger.session then s else
  let s := (List.range 9).foldl (fun s f =>
    let k := s.fresh
    { k.2 with ledger := { k.2.ledger with fine := kset k.2.ledger.fine f (Config.freeNat k.1 % 921600) 0 } }) s
  ({ s with ledger := { s.ledger with session := true, nextSecond := s.phys + tickS } }).ledgerAdd ctrPower

/-- READY_SET (R470, steps 11 and 12): start-up has finished. -/
def execReadySet (s : State) : Host.Outcome State Fault Refusal :=
  live s fun s =>
    if !s.startupGoes || !s.power.calDone then s else
    let s := s.openSession
    let s := s.onHost (fun h => { h with started := true, bucket := bucketCap })
    let s := { s with power := { s.power with starting := false } }
    let s := if s.rd F.HBMC_STAT_OFFLINE ≠ 0 || s.flag F.POOL_STAT_DEGRADED then s.setf F.GLOBAL_STATUS_DEGRADED else s
    (s.wr F.GLOBAL_READY_TIME_US ((s.phys - s.mgmt.bootAt) / tickUs)).showStage

end Sys2Proof.Machine
end

