-- ==== Sys2Proof/Machine/Resets.lean ====
section
/-! DEFINITION. Machine/Resets.lean: the three resets (R468, R469). -/
namespace Sys2Proof.Machine

/-! ### Link reset -/

/-- A job leaves its block at a link reset: what it did there stops as its chapter says of an end before time. -/
def State.linkJob (s : State) (jid : Nat) : State :=
  match s.job? jid with
  | none => s
  | some j =>
    if !j.admitted || j.ending || j.kind = 0x70 then s
    else if j.kind = 0x61 then s.onClk (fun c => { c with align := none })
    else (s.cutJob j 0 id).1

/-- Offers of the host lose their jobs (R468): an open one ends, and a later one goes on without a job to report to. -/
def State.linkOffers (s : State) : State :=
  let open' (o : Offer) : Bool := o.src = 0 && o.isOpen
  let s := (s.mgmt.offers.filter open').foldl (fun s o =>
    o.joined.foldl (fun s x => s.reportBack x.1 0xFF) s) s
  s.onMgmt (fun m => { m with
    offers := (m.offers.filter (fun o => !open' o)).map (fun o => { o with
      jid := 0, joined := o.joined.filter (fun x => x.1 ≠ 0) }) })

/-- Retained images are released, and the tiles of runs (R313, R468). -/
def State.linkTiles (s : State) : State :=
  let s := s.lumen.runs.foldl (fun s r => s.dropRun r.jid) s
  let s := (List.range 256).foldl (fun s n =>
    if (s.tile n).image = 0 then s else (s.onTile n (fun t => { t with image := 0 })).clrf F.LUMEN_Tt_STAT_RETAINED n) s
  { s with lumen := { s.lumen with images := [] }, pool := { s.pool with owner := [] } }

/-- The registers of HOST and MOVER return to reset (R468). -/
def State.clearHost (s : State) : State := { s with
  regs := kclear s.regs 0x100000 0x400000
  rlatch := kclear s.rlatch 0x100000 0x400000, wlatch := kclear s.wlatch 0x100000 0x400000 }

/-- A link reset (R468): every job ends without a final record; reservations, channels, tile holds, held captures and
retained images are released; HOST and MOVER registers return to reset. -/
def State.linkReset (s : State) : State :=
  let s := s.clearHost.onHost (fun h => { h with
    cqs := [], sqs := [], jobs := h.jobs.map (fun j => { j with secondary := false }) })
  let s := (s.host.jobs.map (·.jid)).foldl State.linkJob s
  let s := s.linkOffers.linkTiles
  let s := (s.glimDrop 0).glimDrop 1
  let s := { s with
    record := { s.record with capts := [], reads := [], agReads := [] }
    fibre := { s.fibre with glims := [], fts := [], loads := [], anchors := [] }
    glint := { s.glint with runs := [] } }
  let s := (List.range 32).foldl State.glStat s
  let fresh : HostSt := {
    bucket := s.host.bucket, thermLimit := s.host.thermLimit, frozen := s.host.frozen, nextJid := s.host.nextJid
    started := s.host.started && s.flag F.GLOBAL_STATUS_READY }
  let s := ({ s with host := fresh }).recordRegs
  let s := { s.clearHost with power := { s.power with linkDue := false } }
  s.wr F.GLOBAL_RESET_CAUSE_CAUSE 3

/-- LINK_RESET (R468, R469): during a freeze the handover completes first. -/
def execLinkReset (s : State) : Host.Outcome State Fault Refusal :=
  live s fun s =>
    if s.host.frozen then { s with power := { s.power with linkDue := true } } else s.linkReset

/-- ADMISSION_RESUME's effect (R435-R439): admission resumes on the new or the previous image. `crcBad` says that the
handover record failed its CRC, `parity` that the scan of the previous slot found an error, which is a device failure
(R429). Nothing resumes before the new image has been verified and has written its record. -/
def State.resumeAdmission (s : State) (crcBad parity : Bool) : State :=
  if !s.host.frozen || s.mgmt.lostCore then s else
  match s.heldOffer with
  | none => s.unfreeze
  | some o =>
    let s := if crcBad then s.loseSession else s
    match o.due with
    | some outcome =>
      if parity then
        (((s.ledgerAdd ctrMgmt).clrf F.GLOBAL_STATUS_IMAGE).onMgmt (fun m => { m with
          lostCore := true, mailClosed := false, mail := [] })).wr F.GLOBAL_BOOT_STAT_STATE 0
      else (s.unfreeze).endOffer o outcome
    | none =>
      if s.mgmt.recY.isNone then s
      else if o.struck then s.handBack o 8
      else
        let s := (s.unfreeze).setf F.MGMT_STAT_PROBATION
        (s.setOffer o { o with stage := .probation }).onMgmt (fun m => { m with probeAt := s.devTime })

/-- ADMISSION_RESUME (R435-R439); a link reset that waited follows (R469). -/
def execAdmissionResume (crcBad parity : Bool) (s : State) : Host.Outcome State Fault Refusal :=
  live s fun s =>
    let s := s.resumeAdmission crcBad parity
    if s.power.linkDue && !s.host.frozen then s.linkReset else s

/-! ### Warm reset -/

/-- The registers that a warm reset keeps (R468): those of CLOCK and ERNOS, GLOBAL_COMPAT, GLOBAL_OWNER_LOCK,
GLOBAL_BOOT_CTRL and LOOPn; and those that only show what it keeps, the running image and the training of the stacks. -/
def warmKeeps (a : Nat) : Bool :=
  decide (0x3400000 ≤ a ∧ a < 0x3600000) || a = 0x10 || a = 0x18 || a = 0x40 || a = 0x48 || a = 0x4C ||
    decide (0x3600200 ≤ a ∧ a < 0x3600240)

/-- Copies register fields from an earlier state. -/
def State.carry (s old : State) (fs : List Fld) (n : Nat) : State :=
  (List.range n).foldl (fun s i => fs.foldl (fun s f => s.wr f (old.rd f i) i) s) s

/-- The fields that show what a warm reset keeps beside whole registers: the ledger session, live conditions of the
supplies and the temperature, and the stacks' training. -/
def warmFields : List Fld :=
  [F.GLOBAL_STATUS_IMAGE, F.MGMT_STAT_ACTIVE_SLOT, F.LEDGER_STAT_SESSION_LOST, F.POWER_STAT_MARGIN, F.POWER_STAT_SUPPLY_WARN,
    F.POWER_STAT_THERM_WARN, F.HBMC_STAT_TRAINED, F.HBMC_STAT_OFFLINE, F.HBMC_TRAIN_TIME_US]
def warmStack : List Fld :=
  [F.HBMC_Ss_STAT_TRAINED, F.HBMC_Ss_STAT_OFFLINE, F.HBMC_Ss_PC_FAIL_PC, F.HBMC_Ss_EYE_MIN_RD_EYE, F.HBMC_Ss_EYE_MIN_RD_LANE,
    F.HBMC_Ss_EYE_MIN_WR_EYE, F.HBMC_Ss_EYE_MIN_WR_LANE, F.HBMC_Ss_REPAIR_CNT_LANES, F.HBMC_Ss_STAT_SREF]

/-- A tile's memories outlast a warm reset; nothing is loaded. -/
def TileSt.memOnly (t : TileSt) : TileSt := { imem := t.imem, x := t.x, y := t.y, c := t.c }

/-- The blocks after a warm reset: their reset state, but for what R468 keeps and for what memories hold. -/
def State.warmBlocks (s : State) : State :=
  let tiles : KMap TileSt := (s.lumen.tiles.map (fun (c : Nat × TileSt) => (c.1, c.2.memOnly))).filter (fun c => c.2 ≠ ({} : TileSt))
  let beacons : KMap BeaconSt :=
    (s.fibre.beacons.map (fun (c : Nat × BeaconSt) => (c.1, { wave := c.2.wave }))).filter (fun c => c.2 ≠ ({} : BeaconSt))
  { s with prism := {}, lan := {}, record := {}, glint := {}, lumen := { tiles := tiles }, fibre := { beacons := beacons } }

/-- The registers, the host interface and the common blocks after a warm reset. -/
def State.warmCommon (s : State) : State :=
  let s := { s with regs := s.regs.filter (fun c => warmKeeps c.1), act := s.act.filter (fun c => warmKeeps c.1), rlatch := [], wlatch := [] }
  let host : HostSt := { nextJid := s.host.nextJid, bucket := s.host.bucket, thermLimit := s.host.thermLimit }
  let pool : PoolSt := { s.pool with owner := [], march := none }
  let hbm : HbmSt := { s.hbm with pcs := [], pend := [], stopHold := s.power.supplyHold }
  { s with
    host := host, pool := pool, hbm := hbm, amu := { loops := s.amu.loops, outputsOff := true }
    mgmt := { s.mgmt with offers := [], bootAt := s.phys }, power := { s.power with starting := false } }

/-- The registers that show what was kept, as before the reset `old`. -/
def State.warmShow (s old : State) : State :=
  let s := (s.carry old warmFields 1).carry old warmStack 2
  let s := s.hbmResume.showImages.ledgerRegs
  let s := s.wr F.GLOBAL_LIFE_LIFE (if old.ledger.session then s.life else 0)
  if 64 < s.pool.retired.length then s.setf F.POOL_STAT_DEGRADED else s

/-- Stack `k`'s contents are undefined where the reset changes its GRAIN. -/
def State.warmGrain (s old : State) (k : Nat) : State :=
  if old.ract F.HBMC_Ss_CTRL_GRAIN k = s.ract F.HBMC_Ss_CTRL_GRAIN k then s else s.spoilStack k

/-- A warm reset (R468): as a link reset, and the blocks return to their reset state; the running image, device time, the
array's alignment, the stacks' training, the loops' outputs and the ledger session stay. Start-up reruns from step 6. -/
def State.warmReset (s : State) : State :=
  let old := s.linkReset
  let s := (old.warmBlocks.warmCommon).warmShow old
  let s := (s.warmGrain old 0).warmGrain old 1
  let s := (s.wr F.GLOBAL_RESET_CAUSE_CAUSE 2).emit (.pin "THERM_N" 1)
  let s := { s with power := { s.power with starting := s.flag F.GLOBAL_STATUS_IMAGE } }
  (if s.power.starting && !s.power.supplyHold then s.beginStartup s.phys else s).showStage

/-- A warm reset is refused (R469). -/
def State.warmRefused (s : State) : Bool :=
  s.host.frozen || s.probed.isSome || (s.flag F.POWER_STAT_THERM_EMERG && decide (95 * 64 ≤ s.junction.2))

/-- A write of `v` to GLOBAL_RESET (R468, R469): another KEY is ignored. -/
def State.resetWrite (s : State) (v : Word) : State :=
  if bits v.toNat 15 8 ≠ 0xA5 ∨ !bit v.toNat 0 then s
  else if s.warmRefused then s.setf F.GLOBAL_RESET_CAUSE_REJ
  else s.warmReset

/-- WARM_RESET (R468, R469). -/
def execWarmReset (v : Word) (s : State) : Host.Outcome State Fault Refusal := live s fun s => s.resetWrite v

/-! ### Cold reset -/

/-- A cold reset (R468): everything but the ledger's OTP returns to the state after power-on, with the boot ROM waiting for
an image. Elapsed time, the output record and the count of free values are the model's own and go on. -/
def State.coldReset (s : State) : State :=
  let l : LedgerSt := { otp := s.ledger.otp }
  let r := { State.reset with pending := s.pending, phys := s.phys, out := s.out, freeCtr := s.freeCtr, ledger := l }
  let base := (List.range 18).foldl (fun (m : KMap Nat) (k : Nat) =>
    let b : Nat := r.ledgerBits (9 + k)
    kset m k (if b = 0 then 0 else 2 ^ (b - 1)) 0) ([] : KMap Nat)
  ({ r with ledger := { r.ledger with base := base } }).ledgerRegs

/-- COLD_RESET (R468): POR_N also revives a device that has lost its core clocks (R387). -/
def execColdReset (s : State) : Host.Outcome State Fault Refusal := .next s.coldReset

end Sys2Proof.Machine
end

