-- ==== Sys2Proof/Machine/RegView.lean ====
section
/-! DEFINITION. Machine/RegView.lean: what a read of a register returns (R11-R14, R30). Most registers are stored words; the
fields below follow from the rest of the state, and `State.shown` writes them before a read. -/
namespace Sys2Proof.Machine

/-- The row of the LO register of each 64-bit pair (R12). CLOCK_TIME has a rule of its own (R388). -/
def pairRows : List RegDef :=
  [
    R.HOST_DB_BASE_LO, R.HOST_EVQ_BASE_LO, R.HOST_SQ_BASE_LO, R.HOST_CQ_BASE_LO, R.PRISM_CHn_RANGE_STAMP_LO,
    R.PRISM_CHn_CAL_UPD_STAMP_LO, R.PRISM_CHn_FG_STAMP_LO, R.LANTERN_UNITu_HOLD_T_LO, R.RECORD_SYNC_STAMP_LO,
    R.RECORD_CHn_OLDEST_LO, R.RECORD_CHn_WRITTEN_LO, R.RECORD_CHn_STORED_LO, R.AFTERGLOW_CHn_SUM_RECORDS_LO,
    R.AFTERGLOW_CHn_MASK_FIRST_LO, R.AFTERGLOW_CHn_CLEAR_STAMP_LO, R.GLIMMER_Ff_ANCHOR_LO, R.BEACON_Bb_START_LO,
    R.BEACON_Bb_TSTART_LO, R.BEACON_Bb_CYCLE_LO, R.FTEMP_In_ANCHOR_LO, R.LUMEN_Tt_CYCLE_LO, R.POOL_MARCH_FAIL_LO,
    R.HBMC_Ss_ERR_ADDR_LO, R.AMU_RESULTn_TIME_LO, R.AMU_INJ_RES_TIME_LO, R.MGMT_HANDOVER_STAMP_LO
  ]

/-- Whether `a` is the LO register of a pair. -/
def isPairLo (a : Nat) : Bool := (findReg pairRows a).isSome

/-- Whether `a` is the HI register of a pair. -/
def isPairHi (a : Nat) : Bool := decide (4 ≤ a) && isPairLo (a - 4)

/-! ### HOST (R74) -/

/-- HOST_STATUS, the reservations and the bucket. -/
def State.showHost (s : State) : State :=
  let s := s.wr F.HOST_STATUS_INFLIGHT s.host.jobs.length
  let s := (s.wr F.HOST_STATUS_THERM_HOLD (b2n s.host.thermLimit.isSome)).wr F.HOST_STATUS_HANDOVER (b2n s.host.frozen)
  let s := s.wr F.HOST_STATUS_FETCHING (b2n (s.flag F.HOST_CTRL_ENABLE && s.host.started))
  let s := (s.wr F.HOST_RSV_D2H_RSV (s.used (·.d2h))).wr F.HOST_RSV_D2H_RSV_SEC (s.used (·.d2hSec))
  let s := (s.wr F.HOST_RSV_H2D_RSV (s.used (·.h2d))).wr F.HOST_RSV_H2D_RSV_SEC (s.used (·.h2dSec))
  let s := (s.wr F.HOST_RSV_HBM0_RSV (s.used (·.hbm0))).wr F.HOST_RSV_HBM1_RSV (s.used (·.hbm1))
  let s := (s.wr F.HOST_RSV_XAB_RSV (s.used (·.xab))).wr F.HOST_RSV_XBA_RSV (s.used (·.xba))
  let s := (s.wr F.HOST_RSV_POWER_P s.pres).wr F.HOST_BUCKET_E (s.host.bucket / tickS)
  let s := (s.wr F.HOST_RSV_POOL_JOBS s.poolJobs).wr F.HOST_RSV_POOL_MGMT s.pool.reserve.length
  (s.wr F.HOST_RSV_STORE_STACK0 (s.used (·.store0))).wr F.HOST_RSV_STORE_STACK1 (s.used (·.store1))

/-- The submission ring window. -/
def State.showSq (s : State) : State :=
  let r := s.sq (s.rd F.HOST_SQ_SEL_RING)
  let s := (s.wr F.HOST_SQ_BASE_LO_ADDR (r.base / 64)).wr F.HOST_SQ_BASE_HI_ADDR (r.base / 2 ^ 32)
  let s := (s.wr F.HOST_SQ_CTRL_CQ r.cq).wr F.HOST_SQ_CTRL_POLL_CLASS r.pollClass
  let s := (s.wr F.HOST_SQ_CTRL_SIZE_LOG2 r.sizeLog2).wr F.HOST_SQ_CTRL_ENABLE (b2n r.enable)
  let s := (s.wr F.HOST_SQ_HEAD_HEAD r.head).wr F.HOST_SQ_STAT_DISABLED (b2n r.disabled)
  (s.wr F.HOST_SQ_STAT_OWN_WAIT (b2n r.ownWait)).wr F.HOST_SQ_STAT_BAD_TAIL (b2n r.badTail)

/-- The completion ring window. -/
def State.showCq (s : State) : State :=
  let r := s.cq (s.rd F.HOST_CQ_SEL_RING)
  let s := (s.wr F.HOST_CQ_BASE_LO_ADDR (r.base / 32)).wr F.HOST_CQ_BASE_HI_ADDR (r.base / 2 ^ 32)
  let s := ((s.wr F.HOST_CQ_CTRL_VECTOR r.vector).wr F.HOST_CQ_CTRL_SIZE_LOG2 r.sizeLog2).wr F.HOST_CQ_CTRL_ENABLE (b2n r.enable)
  let s := (s.wr F.HOST_CQ_COAL_TIME r.coalTime).wr F.HOST_CQ_COAL_COUNT r.coalCount
  ((s.wr F.HOST_CQ_TAIL_TAIL r.tail).wr F.HOST_CQ_STAT_BAD_HEAD (b2n r.badHead)).wr F.HOST_CQ_STAT_FULL_STALL (b2n r.fullStall)

/-! ### MOVER (R357) -/

/-- MOVER_CHc.STATE (R337). -/
def ChState.code : ChState → Nat
  | .free => 0 | .held => 1 | .ready => 2 | .active => 3

/-- The free channels of a side. -/
def State.freeChans (s : State) (side : Nat) : Nat := countP (fun c => (s.chan (32 * side + c)).st = .free) (List.range 32)

/-- The movers' and the channels' registers; `a` picks the mover and the channel. -/
def State.showMover (s : State) (a : Nat) : State :=
  let m := (a - 0x201000) / 0x100
  let c := (a - 0x202000) / 4
  let s := (s.wr F.MOVER_FREE_CH_SIDE_A (s.freeChans 0)).wr F.MOVER_FREE_CH_SIDE_B (s.freeChans 1)
  if 0x202000 ≤ a then
    let j := s.job? (s.chan c).jid
    ((s.wr F.MOVER_CHc_STATE (s.chan c).st.code c).wr F.MOVER_CHc_SQ ((j.map (·.sq)).getD 0) c).wr F.MOVER_CHc_TAG
      ((j.map (·.tag)).getD 0) c
  else if 0x201000 ≤ a then
    let st (i : Nat) : ChState := (s.chan (8 * m + i)).st
    let s := s.wr F.MOVER_Mm_STAT_ACTIVE (b2n ((List.range 8).any (fun i => st i = .active))) m
    let s := s.wr F.MOVER_Mm_STAT_HELD (sumL ((List.range 8).map (fun i => b2n (st i ≠ .free) * 2 ^ i))) m
    s.wr F.MOVER_Mm_RSV_RSV (s.moverUsed m) m
  else s

/-! ### LANTERN (R131), RECORD (R170) -/

/-- Whether a threshold of condition `c` is clamped with its input's present settings (R110). -/
def State.condClamped (s : State) (c : Nat) : Bool :=
  let k := condCfg s.act c
  match Sys2Proof.Machine.srcOf k.src with
  | .ain n =>
    let cl (v : Nat) : Bool := levelClamped (sgn 21 v) (s.ract F.PRISM_CHn_CTRL_RANGE n) (s.ract F.PRISM_CHn_TRIM_FINE_GAIN n)
      (s.ract F.PRISM_CHn_TRIM_OFFSET n)
    cl k.levelA || cl k.levelB
  | _ => false

/-- LANTERN_UNITu_STAT. -/
def State.showUnit (s : State) (u : Nat) : State :=
  let x := s.unit u
  let s := (s.wr F.LANTERN_UNITu_STAT_ACTIVE (b2n x.started) u).wr F.LANTERN_UNITu_STAT_CLK_HOLD (b2n x.hold) u
  (s.wr F.LANTERN_UNITu_STAT_STAGE x.stage u).wr F.LANTERN_UNITu_STAT_LVL_CLAMP
    (b2n ((unitConds s.act u).any s.condClamped)) u

/-- Marks acceptable now (R141): those that one instant could bring. -/
def State.credit (s : State) (n : Nat) : Nat :=
  match s.writer n with
  | none => 0
  | some k =>
    if k.isStream || k.armed.isNone || s.devTime + k.burstL < k.tat then 0
    else min 65536 ((s.devTime + k.burstL - max k.tat s.devTime) / max k.gap1 1 + 1)

/-- PRE_MAX, CREDIT, OLDEST and the settling fields of input `n`. -/
def State.showRecord (s : State) (n : Nat) : State :=
  let r := s.rch n
  let d := r.dec
  let left := if (s.writer n).isSome then d.settle - d.taken else 0
  let s := s.wr F.RECORD_CHn_PRE_MAX_PRE_MAX (preMax (s.paired n) d.mode d.factor (s.spacing n)) n
  let s := (s.wr F.RECORD_CHn_STAT_SETTLING (b2n (decide (0 < left))) n).wr F.RECORD_CHn_SETTLE_LEFT_SAMPLES left n
  let old := (r.pen.getLast?.bind (fun w => w.smps.head?)).map (fun x => x.t % 2 ^ 64)
  (s.wr64 F.RECORD_CHn_OLDEST_LO_STAMP F.RECORD_CHn_OLDEST_HI_STAMP (old.getD 0) n).wr F.RECORD_CHn_CREDIT_MARKS (s.credit n) n

/-! ### Beacon, Glint, Lumen, the pool and the rest -/

/-- GB_CHF_DATA (R204, R229): the spec does not print the coefficients, so each is a free value. -/
def State.showCoef (s : State) : State :=
  let k := s.rd F.GB_CHF_SEL_SET
  let i := s.rd F.GB_CHF_SEL_INDEX
  s.wr F.GB_CHF_DATA_COEF (if [257, 129, 65, 0].getD k 0 ≤ i then 0 else Config.arith 40 [k, i])

/-- GLINT_INn_STAT. -/
def State.showGlint (s : State) (n : Nat) : State :=
  let x := s.gin n
  let on := s.ract F.GLINT_INn_CTRL_ENABLE n = 1 && !x.wait && !s.glint.holding && s.running && decide (x.from' ≤ s.devTime) &&
    !s.flag F.POWER_STAT_THERM_EMERG
  let s := (s.wr F.GLINT_INn_STAT_ACTIVE (b2n on) n).wr F.GLINT_INn_STAT_OWNED (b2n (s.glRun (n / 8)).isSome) n
  s.wr F.GLINT_INn_STAT_BORROWED (b2n (s.glint.runs.any (fun r => r.takes.contains n && r.group ≠ n / 8))) n

/-- The tiles that admitted TILE_RUN jobs hold (R314). -/
def State.heldTiles (s : State) : List Nat :=
  ((s.admittedJobs.filter (fun j => j.kind = 0x31)).map (fun j => j.demand.claims.filterMap (fun c =>
    match c with | .tile t => some t | _ => none))).flatten

/-- Tile `t`'s live fields. -/
def State.showTile (s : State) (t : Nat) : State :=
  let l := if (s.tile t).run = 0 then t else (s.tile t).lead
  let s := s.wr F.LUMEN_Tt_STAT_RUNNING (b2n (s.heldTiles.contains t)) t
  (s.wr F.LUMEN_Tt_PC_PC (s.tile l).pc t).wr64 F.LUMEN_Tt_CYCLE_LO_COUNT F.LUMEN_Tt_CYCLE_HI_COUNT (s.tile l).cyc t

/-- The pool's free pages, and the pages of retained images (R318, R334). -/
def State.showPool (s : State) : State :=
  let s := (s.wr F.POOL_FREE_SIDE_A (s.freePages 0)).wr F.POOL_FREE_SIDE_B (s.freePages 1)
  let s := (s.wr F.POOL_LONGEST_SIDE_A (s.longestRun 0)).wr F.POOL_LONGEST_SIDE_B (s.longestRun 1)
  s.wr F.POOL_RETIRED_PAGES s.pool.retired.length

/-- The time that probation has still to run, in ms (R438, R452). -/
def State.probationLeft (s : State) : Nat :=
  if s.probed.isNone then 0 else ceilDiv (s.mgmt.probeAt + 10 * tickS - s.devTime) tickMs

/-- The windows of POWER and THERMAL (R478), and the supply warning in force. -/
def State.showPower (s : State) : State :=
  let r := s.rd F.POWER_RAIL_SEL_RAIL
  let s := (s.wr F.POWER_RAIL_V_MV ((kget s.power.volts r none).getD 0)).wr F.POWER_RAIL_I_MA (kget s.power.amps r 0)
  let s := s.wr F.THERM_SENSOR_DATA_T (unsg 16 (kget s.power.temps (s.rd F.THERM_SENSOR_SEL_SENSOR) 0))
  s.wr F.POWER_STAT_SUPPLY_WARN (b2n s.supplyNow)

/-- The state with every live field of the register at `a` written (R30). -/
def State.shown (s : State) (a : Nat) : State :=
  if a < 0x100000 then s
  else if a < 0x100100 then s.showHost
  else if a < 0x100140 then s.showSq
  else if a < 0x100160 then s.showCq
  else if a < 0x200000 then s
  else if a < 0x400000 then s.showMover a
  else if a < 0x800000 then s
  else if a < 0xA00000 then (if 0x802000 ≤ a then s.showUnit ((a - 0x802000) / 0x40) else s)
  else if a < 0xC00000 then (if 0xA01000 ≤ a then s.showRecord ((a - 0xA01000) / 0x100) else s)
  else if a < 0x1000000 then s
  else if a < 0x1001000 then s.showCoef
  else if a < 0x1002000 then s
  else if a < 0x1400000 then
    let b := (a - 0x1002000) / 0x100
    s.wr64 F.BEACON_Bb_CYCLE_LO_COUNT F.BEACON_Bb_CYCLE_HI_COUNT (s.bcnCycle b) b
  else if a < 0x1800000 then s
  else if a < 0x1810000 then s.showGlint ((a - 0x1800000) / 0x100)
  else if a < 0x2000000 then s
  else if a < 0x2100000 then s.showTile ((a - 0x2000000) / 0x1000)
  else if a < 0x3000000 then (s.wr F.LUMEN_STAT_RUNNING s.heldTiles.length).wr F.LUMEN_HELD_PAGES_PAGES s.heldPages
  else if a < 0x3200000 then s.showPool
  else if a = 0x3400024 then s.wr F.CLOCK_HOLD_TUNE (Config.arith 41 [s.phys])
  else if a < 0x3800000 then s
  else if a < 0x3C00000 then s.ledgerRegs.wr F.MGMT_PROBATION_LEFT_MS s.probationLeft
  else s.showPower

/-- The odd input of an active pair: its RECORD and AFTERGLOW registers read 0, and so do its overrange fields (R104, R170,
R189). -/
def State.pairMask (s : State) (a : Nat) (w : Word) : Word :=
  let odd (base stride : Nat) : Bool := decide (base ≤ a ∧ a < base + 4 * stride) && s.pairedOdd ((a - base) / stride)
  if odd 0xA01000 0x100 || odd 0xC01000 0x100 then 0
  else if odd 0x400000 0x10000 && (a - 0x400000) % 0x10000 = 0x10 then
    ((F.PRISM_CHn_STAT_OVR.inWord w 0 |> fun w => F.PRISM_CHn_STAT_OVD.inWord w 0) |> fun w => F.PRISM_CHn_STAT_NBR_OVD.inWord w 0)
  else w

/-- The MSI-X table and its pending bits (R71). -/
def isMsix (a : Nat) : Bool := decide (msixTable ≤ a ∧ a < msixPba + 0x100)

/-- The word at `a` behind any latch: the register as shown, with WO fields 0 (R13); 0 where there is no register (R30). -/
def State.regNow (s : State) (a : Nat) : Word :=
  if isMsix a then s.word a (if a < msixPba ∧ a % 16 = 12 then 1 else 0) else
  match findReg regTable a with
  | none => 0
  | some (r, j) => s.pairMask a (r.read ((s.shown a).word a (BitVec.ofNat 32 (r.rsts.getD j 0))))

/-- A host address at or above this is BAR2's offset 0 onwards (the model's own numbering; BAR0 is 64 MiB, R30). -/
def bar2 : Nat := 0x100000000

/-- Whether `a` is a word of the boot mailbox (R427). -/
def isMail (a : Nat) : Bool := decide (bar2 + mailBase ≤ a ∧ a < bar2 + 0x500000)

/-- What a read of the word at `a` returns: the HI register of a pair returns its read latch (R12), BAR2 the boot mailbox
while it is open, and 0 elsewhere (R38, R427). -/
def State.readReg (s : State) (a : Nat) : Word :=
  if isMail a then
    if s.mgmt.mailClosed then 0 else BitVec.ofNat 32 (fieldAt (s.mailRead (a - bar2 - mailBase) 4) 0 4)
  else if isPairHi a then kget s.rlatch (a - 4) 0
  else s.regNow a

/-- A read of the word at `a` without a side effect, but for the read latch of a pair (R12). -/
def State.plainRead (s : State) (a : Nat) : State :=
  let s' := s.emit (.readData a (s.readReg a))
  if isPairLo a then { s' with rlatch := kset s.rlatch a (s.regNow (a + 4)) 0 } else s'

/-- A read of the word at `a` (R12, R269, R388, R413). -/
def State.busRead (s : State) (a : Nat) : State :=
  if a = 0x3400030 then s.clockTimeRead
  else match (List.finRange 17).find? (fun n : Fin 17 => decide (hdrAddr n.val = a)) with
  | some n => s.amuHdrRead n
  | none =>
    if 0x1880000 ≤ a ∧ a < 0x1880200 ∧ a % 16 = 8 then s.resHdrRead ((a - 0x1880000) / 16)
    else if 0x1880000 ≤ a ∧ a < 0x1880200 ∧ a % 16 = 12 then s.resDataRead ((a - 0x1880000) / 16)
    else s.plainRead a

/-- PAIR_LO_READ (R12): bits [31:0] are returned, and bits [63:32] of the same value latched. -/
def execPairLoRead (addr : Nat) (s : State) : Host.Outcome State Fault Refusal := liveRead s addr fun s => s.busRead addr

/-- Whether an access is an aligned 32-bit word (R10). -/
def goodAccess (addr len : Nat) : Bool := decide (len = 4 ∧ addr % 4 = 0)

/-- BAD_WIDTH_ACCESS (R10): a read returns all ones, a write is ignored, and the access is counted. -/
def execBadWidthAccess (write : Bool) (addr len : Nat) (s : State) : Host.Outcome State Fault Refusal :=
  let f (s : State) : State :=
    if goodAccess addr len then s
    else
      let s := s.count F.HOST_BADACC_CNT_COUNT
      if write then s else s.emit (.readData addr 0xFFFFFFFF)
  if write then live s f else liveRead s addr f

end Sys2Proof.Machine
end

