-- ==== Sys2Proof/Machine/RegWrite.lean ====
section
/-! DEFINITION. Machine/RegWrite.lean: what a write of a register does (R10-R16, R30). A register whose write has a command
of its own in the table takes that command's effect; any other takes the effect of its fields' access types. -/
namespace Sys2Proof.Machine

/-! ### HOST (R71, R74) -/

/-- A write of HOST_CTRL. -/
def State.writeHostCtrl (s : State) (v : Word) : State :=
  let s := (s.wr F.HOST_CTRL_ENABLE (bits v.toNat 0 0)).wr F.HOST_CTRL_GLARE_EN (bits v.toNat 1 1)
  s.setEvq (bit v.toNat 2)

/-- One half of a ring's 64-bit base replaced: the low half holds a multiple of `align`. -/
def halfBase (base align : Nat) (hi : Bool) (v : Word) : Nat :=
  if hi then v.toNat * 2 ^ 32 + base % 2 ^ 32 else base / 2 ^ 32 * 2 ^ 32 + v.toNat / align * align

/-- A write of one half of HOST_SQ_BASE of the selected ring, ignored while the ring's ENABLE is 1. -/
def State.writeSqBase (s : State) (hi : Bool) (v : Word) : State :=
  let n := s.rd F.HOST_SQ_SEL_RING
  let r := s.sq n
  if r.enable then s else s.setSq n { r with base := halfBase r.base 64 hi v }

/-- A write of one half of HOST_CQ_BASE of the selected ring, ignored while the ring's ENABLE is 1. -/
def State.writeCqBase (s : State) (hi : Bool) (v : Word) : State :=
  let m := s.rd F.HOST_CQ_SEL_RING
  let r := s.cq m
  if r.enable then s else s.setCq m { r with base := halfBase r.base 32 hi v }

/-- HOST_SQ_STAT of the selected ring: each flag written 1 clears. -/
def State.writeSqStat (s : State) (v : Word) : State :=
  let n := s.rd F.HOST_SQ_SEL_RING
  let r := s.sq n
  s.setSq n { r with disabled := r.disabled && !bit v.toNat 2, ownWait := r.ownWait && !bit v.toNat 1
                     badTail := r.badTail && !bit v.toNat 0 }

/-- HOST_CQ_STAT of the selected ring: each flag written 1 clears. -/
def State.writeCqStat (s : State) (v : Word) : State :=
  let m := s.rd F.HOST_CQ_SEL_RING
  let r := s.cq m
  s.setCq m { r with badHead := r.badHead && !bit v.toNat 1, fullStall := r.fullStall && !bit v.toNat 0 }

/-- HOST_CQ_COAL of the selected ring. -/
def State.writeCoal (s : State) (v : Word) : State :=
  let m := s.rd F.HOST_CQ_SEL_RING
  s.setCq m { s.cq m with coalTime := bits v.toNat 27 16, coalCount := bits v.toNat 7 0 }

/-- A write of an MSI-X word (R71): the pending bits are read only, and a vector that is unmasked with its pending bit set
sends its message and clears the bit (PRESUMED, the PCIe specification's layout and rule). -/
def State.writeMsix (s : State) (a : Nat) (v : Word) : State :=
  if msixPba ≤ a then s
  else if a % 16 ≠ 12 then { s with regs := kset s.regs a v 0 }
  else
    let n := (a - msixTable) / 16
    let p := msixPba + 4 * (n / 32)
    let s := { s with regs := kset s.regs a (v &&& 1) 1 }
    if bit v.toNat 0 || !bit (s.word p).toNat (n % 32) then s
    else ({ s with regs := kset s.regs p (s.word p &&& ~~~(BitVec.ofNat 32 (2 ^ (n % 32)))) 0 }).signal n

/-! ### Any register -/

/-- A write by the access types of the register's fields (R11, R13, R16); a write to no register is ignored (R30). -/
def State.writeFields (s : State) (a : Nat) (v : Word) : State :=
  match findReg regTable a with
  | none => s
  | some (r, j) =>
    let d : Word := BitVec.ofNat 32 (r.rsts.getD j 0)
    let v := if a = 0x410000 || a = 0x430000 then v &&& 0xFFFFF7FF#32 else v
    { s with regs := kset s.regs a (r.write (s.word a d) v) d }

/-- Whether the writable fields of the register at `a` are held as they are (R22, R74, R104). -/
def State.writeHeld (s : State) (a : Nat) : Bool :=
  if a = 0x100020 || a = 0x100024 then s.flag F.HOST_CTRL_ENABLE || s.flag F.HOST_CTRL_EVQ_EN
  else if a = 0x1000A0 || a = 0x1000A4 || a = 0x1000A8 then s.flag F.HOST_CTRL_EVQ_EN
  else if 0x400000 ≤ a ∧ a < 0x440000 then
    s.pairedOdd ((a - 0x400000) / 0x10000) && [0x0, 0x4, 0x28].contains ((a - 0x400000) % 0x10000)
  else false

/-- A write of CAL_CTRL of channel `n`: the second of R92 is measured from the moment that BG_EN was set. -/
def State.writeCalCtrl (s : State) (n : Nat) (a : Nat) (v : Word) : State :=
  let was := s.flag F.PRISM_CHn_CAL_CTRL_BG_EN n
  let s := s.writeFields a v
  if !was && s.flag F.PRISM_CHn_CAL_CTRL_BG_EN n then s.setCh n { s.ch n with bgSince := s.devTime } else s

/-- The registers of GLOBAL and HOST whose writes do more than their fields' types say. -/
def State.writeHost (s : State) (a : Nat) (v : Word) : Option State :=
  if a = 0x8 then some (s.resetWrite v)
  else if a = 0x10 then some (s.compatWrite v)
  else if a = 0x44 then some (s.imageArrives 0 v [])
  else if a = 0x100000 then some (s.writeHostCtrl v)
  else if a = 0x100104 then some (s.writeSqBase false v)
  else if a = 0x100108 then some (s.writeSqBase true v)
  else if a = 0x10010C then some (s.writeSqCtrl v)
  else if a = 0x100114 then some (s.writeSqStat v)
  else if a = 0x100144 then some (s.writeCqBase false v)
  else if a = 0x100148 then some (s.writeCqBase true v)
  else if a = 0x10014C then some (s.writeCqCtrl v)
  else if a = 0x100150 then some (s.writeCoal v)
  else if a = 0x100158 then some (s.writeCqStat v)
  else if isMsix a then some (s.writeMsix a v)
  else none

/-- The COMMIT registers. -/
def State.writeCommit (s : State) (a : Nat) (v : Word) : Option State :=
  match (List.finRange 4).find? (fun n : Fin 4 => decide (a = 0x400008 + 0x10000 * n.val)) with
  | some n => some (s.prismCommitWrite n v)
  | none =>
    if a = 0x800000 then some (s.lanternCommitWrite v)
    else if a = 0xC00000 then some (s.afterglowCommitWrite v)
    else if a = 0x1002004 then some (s.beaconCommitWrite 0 v)
    else if a = 0x1002104 then some (s.beaconCommitWrite 1 v)
    else if a = 0x1881000 then some (s.glintCommitWrite v)
    else if a = 0x3201008 then some (s.hbmcCommitWrite 0 v)
    else if a = 0x3201108 then some (s.hbmcCommitWrite 1 v)
    else if a = 0x3400000 then some (s.clockCommitWrite v)
    else if a = 0x3600000 then some (s.amuCommitWrite v)
    else none

/-- The other registers whose writes do more than their fields' types say. -/
def State.writeOther (s : State) (a : Nat) (v : Word) : Option State :=
  if 0x400000 ≤ a ∧ a < 0x440000 ∧ a % 0x10000 = 0x28 then some (s.writeCalCtrl ((a - 0x400000) / 0x10000) a v)
  else if a = 0xA00004 then some (s.recordSyncGoWrite v)
  else if 0x2000000 ≤ a ∧ a < 0x2100000 ∧ a % 0x1000 = 0x10 then some (s.mailWrite ((a - 0x2000000) / 0x1000) v)
  else if a = 0x3000020 then some (s.poolMarchGoWrite v)
  else if a = 0x3400018 then some (s.buildOutWrite v)
  else if a = 0x340100C then some ((s.writeFields a v).alignCheck)
  else if a = 0x3600014 then some (s.amuSwapWrite v)
  else if a = 0x3600200 then some ((s.writeFields a v).loopShow 0)
  else if a = 0x3600220 then some ((s.writeFields a v).loopShow 1)
  else if a = 0x3600204 then some (s.loopSetWrite 0 v)
  else if a = 0x3600224 then some (s.loopSetWrite 1 v)
  else none

/-- A write of one register, its latches apart. -/
def State.writeOne (s : State) (a : Nat) (v : Word) : State :=
  if s.writeHeld a then s
  else ((s.writeHost a v).orElse fun _ => (s.writeCommit a v).orElse fun _ => s.writeOther a v).getD (s.writeFields a v)

/-- A write of the LO register at `lo` (R12): its write latch, and nothing else. -/
def State.latchLo (s : State) (lo : Nat) (v : Word) : State := { s with wlatch := kset s.wlatch lo v 0 }

/-- A write of HI (R12): HI and the latched LO commit together, and the latch stays. -/
def State.commitPair (s : State) (lo : Nat) (v : Word) : State := (s.writeOne lo (kget s.wlatch lo 0)).writeOne (lo + 4) v

/-- A write of BAR2 (R38): HOST_NUDGE, and the boot mailbox while it is open (R427). -/
def State.writeBar2 (s : State) (a : Nat) (v : Word) : State :=
  if a = bar2 then s.hostNudgeWrite v
  else if isMail a && !s.mgmt.mailClosed then
    { s with mgmt := { s.mgmt with mail := kwrite 0 s.mgmt.mail (a - bar2 - mailBase) (leBytes 4 v.toNat) } }
  else s

/-- A write of the word `v` at `a` (R12, R13). -/
def State.busWrite (s : State) (a : Nat) (v : Word) : State :=
  if bar2 ≤ a then s.writeBar2 a v
  else if isPairLo a then s.latchLo a v
  else if isPairHi a then s.commitPair (a - 4) v
  else s.writeOne a v

/-- PAIR_LO_WRITE (R12). -/
def execPairLoWrite (addr : Nat) (v : Word) (s : State) : Host.Outcome State Fault Refusal :=
  live s fun s => if isPairLo addr then s.latchLo addr v else s

/-- PAIR_HI_WRITE (R12). -/
def execPairHiWrite (addr : Nat) (v : Word) (s : State) : Host.Outcome State Fault Refusal :=
  live s fun s => if isPairHi addr then s.commitPair (addr - 4) v else s

/-- REGISTER_WRITE (R13). -/
def execRegisterWrite (addr : Nat) (v : Word) (s : State) : Host.Outcome State Fault Refusal :=
  live s fun s => s.busWrite addr v

end Sys2Proof.Machine
end

