-- ==== Sys2Proof/Machine/Words.lean ====
section
/-! DEFINITION. Machine/Words.lean: the sample words that Prism issues and the range changes that apply at them ("Prism
converters and analogue inputs"). -/
namespace Sys2Proof.Machine

/-- Channel `n` issues words to its consumers: enabled, no second lane, not under foreground calibration (R22, R99). -/
def State.wordsOn (s : State) (n : Nat) : Bool :=
  s.running && s.chOn n && !s.pairedOdd n &&
    (!s.flag F.PRISM_CHn_STAT_CALIBRATING n || (s.ch n).isolating)

/-- The next word of channel `n` belongs to a configuration that has not been applied yet (R79). -/
def State.cfgDue (s : State) (n : Nat) : Bool :=
  match (s.ch n).cfgPend with | some c => decide (c.due ≤ (s.ch n).nextT) | none => false

/-- Input `n` is owned by a roll or stream-backed capture, so that a deferred change acts as an immediate one (R87). -/
def State.storesAll (s : State) (n : Nat) : Bool :=
  s.record.capts.any (fun k => k.input = n && !k.ended && !k.isStream && (k.shape = 2 || k.backed.isSome))

/-- The next word of channel `n` is the application word of the pending range or trim change (R87). -/
def State.rangeDue (s : State) (n : Nat) : Bool :=
  let c := s.ch n
  match c.rangePend with
  | none => false
  | some p => s.bankAligned n c.idx && decide (p.due ≤ c.nextT) &&
      c.shift = 0 && !s.clockFault c.nextT (c.nextT + s.span n) &&
      (p.immediate = 1 || s.storesAll n || !s.windowOpen n)

/-- The status of a word of channel `n` at `t`, up to `e`, from its overrange or neighbour flag (R82, R88). A word within which
a time step fell carries status 11 (R389). -/
def State.statusOf (s : State) (n t e : Nat) (outside : Bool) : Nat :=
  if s.clockFault t e || (s.ch n).shift ≠ 0 then 3 else if t < (s.ch n).settleEnd then 2 else if outside then 1 else 0

/-- The sticky flags and counters of a word's conditions (R82-R84, R104); `fresh` marks that an overrange event begins,
`run` and `clk` that the previous word carried the neighbour's flag and status 11. -/
def State.wordFlags (s : State) (n st : Nat) (own outside fresh nbr run clk : Bool) : State :=
  let s := if outside then s.setf F.PRISM_CHn_STAT_OVR n else s
  let s := if fresh then (s.count F.PRISM_CHn_OVR_CNT_COUNT 1 n).ledgerAdd (ctrOverrange n) else s
  let s := if own then s.setf F.PRISM_CHn_STAT_OVD n else s
  let s := if nbr then s.setf F.PRISM_CHn_STAT_NBR_OVD n else s
  let s := if nbr && !run then s.count F.PRISM_CHn_NBR_CNT_COUNT 1 n else s
  let s := if st = 3 then s.setf F.PRISM_CHn_STAT_CLK_FAULT n else s
  let s := if st = 3 && !clk then s.count F.PRISM_CHn_CLK_CNT_COUNT 1 n else s
  s.wr F.PRISM_CHn_STAT_SETTLING (b2n (st = 2)) n

/-- A finished word goes to its consumers: Lantern, the record path, Glimmer and the fibre temperature engine (R21). -/
def State.sendWord (s : State) (n : Nat) (w : PWord) (par : Bool) : State :=
  (((s.lanWord n w).recWord n w par).glimWord n w).ftWord n w

/-- The detector's changes within a word as device times. -/
def edgesAt (t : Nat) (l : List (Nat × Bool)) : List (Nat × Bool) := l.map (fun x => (t + x.1, x.2))

/-- The next word of channel `n` (R21, R80-R90): converted, given its status, counted and sent. The detector of a neighbour
that sends no words itself shows in its OVD (R84, R85). -/
def State.issueWord (s : State) (n : Nat) (volts : List Int) (own nbr : List (Nat × Bool)) (par : Bool)
    (cols : List Nat) : State :=
  let s := if s.rangeDue n then s.rangeApply n (s.ch n).nextT true else s
  let c := s.ch n
  let t := c.nextT
  let span := s.span n
  let e := t + span
  let range := s.ract F.PRISM_CHn_CTRL_RANGE n
  let fine := s.ract F.PRISM_CHn_TRIM_FINE_GAIN n
  let off := s.ract F.PRISM_CHn_TRIM_OFFSET n
  let codes := (List.range 64).map (fun i => codeOf (volts.getD i 0) range fine off)
  let clips := (codes.zip (List.range 64)).filterMap
    (fun x => if x.1 = -512 || x.1 = 511 then some (t + x.2 * (span / 64)) else none)
  let ownE := edgesAt t own
  let o := overrange c t e ownE clips
  let nb := if s.paired n then (o.1, false) else nbrOver o.1 t e (edgesAt t nbr)
  let st := s.statusOf n t e (o.2.1 || nb.2)
  let s := s.wordFlags n st (tripDuring c.tripped ownE t e) o.2.1 o.2.2 nb.2 c.nbrRun c.clkRun
  let acc := st = 0 && s.rd F.PRISM_CHn_CAL_CTRL_BG_EN n = 1
  let next := byCycles c.shift e
  let s := s.setCh n { nb.1.runsBy c.shift with
    nbrRun := nb.2, clkRun := st = 3, lastAcc := if acc then some t else c.lastAcc
    idx := c.idx + 1, nextT := next, shift := 0 }
  let w : PWord := { t := t, span := span, status := st, codes := codes, range := range, fine := fine, offset := off }
  let s := s.sendWord n w par
  let m := if n % 2 = 0 then n + 1 else n - 1
  let s := if !s.paired n && !s.wordsOn m && tripDuring c.nbrTripped (edgesAt t nbr) t e then
      s.setf F.PRISM_CHn_STAT_OVD m else s
  let s := if (s.ch n).isolating && s.bankAligned n (c.idx + 1) then s.calAway n else s
  let s := if s.agOn n F.AFTERGLOW_CHn_CTRL_HIST_EN then cols.foldl (fun s x => s.agPoison n x) s else s
  s.toDev next

/-- PRISM_WORD (R21): channel `n` issues its next word. -/
def execPrismWord (n : Fin 4) (volts : List Int) (own nbr : List (Nat × Bool)) (par : Bool) (cols : List (Fin 4096))
    (s : State) : Host.Outcome State Fault Refusal :=
  live s fun s =>
    if !s.wordsOn n || s.cfgDue n then s else s.issueWord n volts own nbr par (cols.map (·.val))

/-- RANGE_CHANGE_APPLY (R87, R89): at the application word, or for a disabled channel at the first SCLK boundary at least
64 ns after the commit. -/
def execRangeChangeApply (n : Fin 4) (s : State) : Host.Outcome State Fault Refusal :=
  live s fun s =>
    match (s.ch n).rangePend with
    | none => s
    | some p =>
      if s.pairedOdd n then s
      else if !s.chOn n then
        if p.withEnable then s else
        let t := roundUp p.due cycle
        (s.toDev t).rangeApply n t false
      else if s.wordsOn n && !s.cfgDue n && s.rangeDue n then
        let t := (s.ch n).nextT
        (s.toDev t).rangeApply n t true
      else s

end Sys2Proof.Machine
end

