-- ==== Sys2Proof/Machine/Dispatch.lean ====
section
/-! DEFINITION. Machine/Dispatch.lean: the meaning of every command, one arm for each constructor of `Instr`. -/
namespace Sys2Proof.Machine

/-- The effect of a command on everything but the queue. -/
def exec (i : Instr) (s : State) : Host.Outcome State Fault Refusal :=
  match i with
  | .badWidthAccess write addr len => Sys2Proof.Machine.execBadWidthAccess write addr len s
  | .pairLoRead addr => Sys2Proof.Machine.execPairLoRead addr s
  | .pairLoWrite addr v => Sys2Proof.Machine.execPairLoWrite addr v s
  | .pairHiWrite addr v => Sys2Proof.Machine.execPairHiWrite addr v s
  | .registerWrite addr v => Sys2Proof.Machine.execRegisterWrite addr v s
  | .hostNudge v => Sys2Proof.Machine.execHostNudge v s
  | .hostEnable on => Sys2Proof.Machine.execHostEnable on s
  | .evqEnable on => Sys2Proof.Machine.execEvqEnable on s
  | .sqEnable v => Sys2Proof.Machine.execSqEnable v s
  | .cqEnable v => Sys2Proof.Machine.execCqEnable v s
  | .doorbellPoll cls => Sys2Proof.Machine.execDoorbellPoll cls s
  | .doorbellReadDone cls words => Sys2Proof.Machine.execDoorbellReadDone cls words s
  | .doorbellReadFailed cls => Sys2Proof.Machine.execDoorbellReadFailed cls s
  | .descriptorFetch => Sys2Proof.Machine.execDescriptorFetch s
  | .descriptorPickup slot => Sys2Proof.Machine.execDescriptorPickup slot s
  | .descriptorReadFailed => Sys2Proof.Machine.execDescriptorReadFailed s
  | .postedCreditGrant granted => Sys2Proof.Machine.execPostedCreditGrant granted s
  | .coalesceTimeout m => Sys2Proof.Machine.execCoalesceTimeout m s
  | .linkRetrain secondary speed width flit => Sys2Proof.Machine.execLinkRetrain secondary speed width flit s
  | .linkCorrectedError => Sys2Proof.Machine.execLinkCorrectedError s
  | .linkUncorrectableError => Sys2Proof.Machine.execLinkUncorrectableError s
  | .linkReset => Sys2Proof.Machine.execLinkReset s
  | .coldReset => Sys2Proof.Machine.execColdReset s
  | .warmReset v => Sys2Proof.Machine.execWarmReset v s
  | .captureArm => Sys2Proof.Machine.execCaptureArm s
  | .segmentRead => Sys2Proof.Machine.execSegmentRead s
  | .streamOpen => Sys2Proof.Machine.execStreamOpen s
  | .streamClose => Sys2Proof.Machine.execStreamClose s
  | .afterglowRead => Sys2Proof.Machine.execAfterglowRead s
  | .afterglowClear => Sys2Proof.Machine.execAfterglowClear s
  | .fibreVibRun setup => Sys2Proof.Machine.execFibreVibRun setup s
  | .fibreTempRun setup => Sys2Proof.Machine.execFibreTempRun setup s
  | .beaconLoad => Sys2Proof.Machine.execBeaconLoad s
  | .glintMeasure setup => Sys2Proof.Machine.execGlintMeasure setup s
  | .tileLoad => Sys2Proof.Machine.execTileLoad s
  | .tileRun setup => Sys2Proof.Machine.execTileRun setup s
  | .move list => Sys2Proof.Machine.execMove list s
  | .amuSequence table => Sys2Proof.Machine.execAmuSequence table s
  | .amuInject => Sys2Proof.Machine.execAmuInject s
  | .calibrate => Sys2Proof.Machine.execCalibrate s
  | .arrayAlign devs => Sys2Proof.Machine.execArrayAlign devs s
  | .imageOffer header => Sys2Proof.Machine.execImageOffer header s
  | .ledgerRead => Sys2Proof.Machine.execLedgerRead s
  | .abort => Sys2Proof.Machine.execAbort s
  | .prismCommit n v => Sys2Proof.Machine.execPrismCommit n v s
  | .prismConfigApply n => Sys2Proof.Machine.execPrismConfigApply n s
  | .rangeChangeApply n => Sys2Proof.Machine.execRangeChangeApply n s
  | .prismWord n volts own nbr par cols => Sys2Proof.Machine.execPrismWord n volts own nbr par cols s
  | .calUpdate n offset gain bw skew ready => Sys2Proof.Machine.execCalUpdate n offset gain bw skew ready s
  | .calStaleTimeout n => Sys2Proof.Machine.execCalStaleTimeout n s
  | .calibrateChannelDone pass temp offset gain skew bw offTrim skewTrim => Sys2Proof.Machine.execCalibrateChannelDone pass temp offset gain skew bw offTrim skewTrim s
  | .lanternCommit v => Sys2Proof.Machine.execLanternCommit v s
  | .lanternCommitApply => Sys2Proof.Machine.execLanternCommitApply s
  | .triginEdge p rise t => Sys2Proof.Machine.execTriginEdge p rise t s
  | .lanternTimeout c => Sys2Proof.Machine.execLanternTimeout c s
  | .sequenceTimeout u => Sys2Proof.Machine.execSequenceTimeout u s
  | .markQueueDrain u => Sys2Proof.Machine.execMarkQueueDrain u s
  | .lineEvent k t => Sys2Proof.Machine.execLineEvent k t s
  | .clockHoldEnd => Sys2Proof.Machine.execClockHoldEnd s
  | .captureArming sq tag => Sys2Proof.Machine.execCaptureArming sq tag s
  | .captureMark sq tag => Sys2Proof.Machine.execCaptureMark sq tag s
  | .windowClose sq tag => Sys2Proof.Machine.execWindowClose sq tag s
  | .armTimeExpiry sq tag => Sys2Proof.Machine.execArmTimeExpiry sq tag s
  | .gateLimit sq tag => Sys2Proof.Machine.execGateLimit sq tag s
  | .streamStart sq tag => Sys2Proof.Machine.execStreamStart sq tag s
  | .streamStop sq tag => Sys2Proof.Machine.execStreamStop sq tag s
  | .recordSyncGo v => Sys2Proof.Machine.execRecordSyncGo v s
  | .syncApply => Sys2Proof.Machine.execSyncApply s
  | .afterglowCommit v => Sys2Proof.Machine.execAfterglowCommit v s
  | .afterglowCommitApply => Sys2Proof.Machine.execAfterglowCommitApply s
  | .sumSegmentRead n bad => Sys2Proof.Machine.execSumSegmentRead n bad s
  | .afterglowRecompute n => Sys2Proof.Machine.execAfterglowRecompute n s
  | .afterglowClearPoint n => Sys2Proof.Machine.execAfterglowClearPoint n s
  | .histogramColumnTake n => Sys2Proof.Machine.execHistogramColumnTake n s
  | .sumDrainDeliver n env => Sys2Proof.Machine.execSumDrainDeliver n env s
  | .beaconCommit b v => Sys2Proof.Machine.execBeaconCommit b v s
  | .beaconPlayStart b => Sys2Proof.Machine.execBeaconPlayStart b s
  | .probeEmission b => Sys2Proof.Machine.execProbeEmission b s
  | .markerEdge mk c slot rise => Sys2Proof.Machine.execMarkerEdge mk c slot rise s
  | .beaconBankSwitch b => Sys2Proof.Machine.execBeaconBankSwitch b s
  | .beaconPlayStop b => Sys2Proof.Machine.execBeaconPlayStop b s
  | .glimmerTrace f tone even odd late stateErr => Sys2Proof.Machine.execGlimmerTrace f tone even odd late stateErr s
  | .glimmerRecompute f tone even odd damaged => Sys2Proof.Machine.execGlimmerRecompute f tone even odd damaged s
  | .glimmerFrameWrite f => Sys2Proof.Machine.execGlimmerFrameWrite f s
  | .ftempTrace k late => Sys2Proof.Machine.execFtempTrace k late s
  | .ftempRecompute k damaged => Sys2Proof.Machine.execFtempRecompute k damaged s
  | .ftempAccumulationEnd k bad badKept => Sys2Proof.Machine.execFtempAccumulationEnd k bad badKept s
  | .directionChange k => Sys2Proof.Machine.execDirectionChange k s
  | .glintEdge n rise full t => Sys2Proof.Machine.execGlintEdge n rise full t s
  | .glintInterpCal n => Sys2Proof.Machine.execGlintInterpCal n s
  | .glintArm g => Sys2Proof.Machine.execGlintArm g s
  | .glintWindowEnd g => Sys2Proof.Machine.execGlintWindowEnd g s
  | .classICycleClose g => Sys2Proof.Machine.execClassICycleClose g s
  | .glintResult g spoiled crc damaged => Sys2Proof.Machine.execGlintResult g spoiled crc damaged s
  | .glintLimit g => Sys2Proof.Machine.execGlintLimit g s
  | .glintCommit v => Sys2Proof.Machine.execGlintCommit v s
  | .glintCommitApply high => Sys2Proof.Machine.execGlintCommitApply high s
  | .resHdrRead g => Sys2Proof.Machine.execResHdrRead g s
  | .resDataRead g => Sys2Proof.Machine.execResDataRead g s
  | .nop t => Sys2Proof.Machine.execNop t s
  | .mac4 t => Sys2Proof.Machine.execMac4 t s
  | .macp t => Sys2Proof.Machine.execMacp t s
  | .accld t => Sys2Proof.Machine.execAccld t s
  | .accst t => Sys2Proof.Machine.execAccst t s
  | .ext t => Sys2Proof.Machine.execExt t s
  | .movs t => Sys2Proof.Machine.execMovs t s
  | .sha t => Sys2Proof.Machine.execSha t s
  | .mov t => Sys2Proof.Machine.execMov t s
  | .add t => Sys2Proof.Machine.execAdd t s
  | .sub t => Sys2Proof.Machine.execSub t s
  | .and t => Sys2Proof.Machine.execAnd t s
  | .or t => Sys2Proof.Machine.execOr t s
  | .xor t => Sys2Proof.Machine.execXor t s
  | .add4 t => Sys2Proof.Machine.execAdd4 t s
  | .sub4 t => Sys2Proof.Machine.execSub4 t s
  | .cmp t => Sys2Proof.Machine.execCmp t s
  | .fcvt t => Sys2Proof.Machine.execFcvt t s
  | .icvt t => Sys2Proof.Machine.execIcvt t s
  | .geta t => Sys2Proof.Machine.execGeta t s
  | .gets t => Sys2Proof.Machine.execGets t s
  | .puts t => Sys2Proof.Machine.execPuts t s
  | .lde t => Sys2Proof.Machine.execLde t s
  | .ste t => Sys2Proof.Machine.execSte t s
  | .movi t => Sys2Proof.Machine.execMovi t s
  | .movih t => Sys2Proof.Machine.execMovih t s
  | .seta t => Sys2Proof.Machine.execSeta t s
  | .adda t => Sys2Proof.Machine.execAdda t s
  | .b t => Sys2Proof.Machine.execB t s
  | .call t => Sys2Proof.Machine.execCall t s
  | .ret t => Sys2Proof.Machine.execRet t s
  | .reti t => Sys2Proof.Machine.execReti t s
  | .loop t => Sys2Proof.Machine.execLoop t s
  | .rep t => Sys2Proof.Machine.execRep t s
  | .brk t => Sys2Proof.Machine.execBrk t s
  | .waitin t => Sys2Proof.Machine.execWaitin t s
  | .nextin t => Sys2Proof.Machine.execNextin t s
  | .putout t => Sys2Proof.Machine.execPutout t s
  | .waitout t => Sys2Proof.Machine.execWaitout t s
  | .pld t => Sys2Proof.Machine.execPld t s
  | .pst t => Sys2Proof.Machine.execPst t s
  | .pwait t => Sys2Proof.Machine.execPwait t s
  | .ei t => Sys2Proof.Machine.execEi t s
  | .di t => Sys2Proof.Machine.execDi t s
  | .halt t => Sys2Proof.Machine.execHalt t s
  | .tileStallRelease t n => Sys2Proof.Machine.execTileStallRelease t n s
  | .tileInterrupt t => Sys2Proof.Machine.execTileInterrupt t s
  | .tileTimer t => Sys2Proof.Machine.execTileTimer t s
  | .tileMailWrite t v => Sys2Proof.Machine.execTileMailWrite t v s
  | .tileOverrun t => Sys2Proof.Machine.execTileOverrun t s
  | .itemDelivery t => Sys2Proof.Machine.execItemDelivery t s
  | .tileParityRecovery t fetch => Sys2Proof.Machine.execTileParityRecovery t fetch s
  | .poolAccessComplete t cycles bad => Sys2Proof.Machine.execPoolAccessComplete t cycles bad s
  | .poolMarchGo v => Sys2Proof.Machine.execPoolMarchGo v s
  | .marchTestDone rows => Sys2Proof.Machine.execMarchTestDone rows s
  | .moverElementReady c => Sys2Proof.Machine.execMoverElementReady c s
  | .producerFlushTimeout c => Sys2Proof.Machine.execProducerFlushTimeout c s
  | .moverGrant m => Sys2Proof.Machine.execMoverGrant m s
  | .moverElementEnd m moved data retries damaged => Sys2Proof.Machine.execMoverElementEnd m moved data retries damaged s
  | .hostReadError c data => Sys2Proof.Machine.execHostReadError c data s
  | .hbmTrainingDone k us lanes => Sys2Proof.Machine.execHbmTrainingDone k us lanes s
  | .hbmTracking k lane write below above => Sys2Proof.Machine.execHbmTracking k lane write below above s
  | .hbmRefresh pc bank must => Sys2Proof.Machine.execHbmRefresh pc bank must s
  | .hbmRequest k port write addr mask data crc => Sys2Proof.Machine.execHbmRequest k port write addr mask data crc s
  | .hbmReadComplete pc flip => Sys2Proof.Machine.execHbmReadComplete pc flip s
  | .hbmcCommit k v => Sys2Proof.Machine.execHbmcCommit k v s
  | .hbmcCommitApply k => Sys2Proof.Machine.execHbmcCommitApply k s
  | .mpllRelockResume found => Sys2Proof.Machine.execMpllRelockResume found s
  | .clockCommit v => Sys2Proof.Machine.execClockCommit v s
  | .clockCommitApply => Sys2Proof.Machine.execClockCommitApply s
  | .presenceWindow xin refin ern => Sys2Proof.Machine.execPresenceWindow xin refin ern s
  | .missingEdge r => Sys2Proof.Machine.execMissingEdge r s
  | .lockWindow loop diff => Sys2Proof.Machine.execLockWindow loop diff s
  | .ssynPhaseError e1 e2 => Sys2Proof.Machine.execSsynPhaseError e1 e2 s
  | .referenceReturn step => Sys2Proof.Machine.execReferenceReturn step s
  | .buildOut v => Sys2Proof.Machine.execBuildOut v s
  | .coastLimitExpiry => Sys2Proof.Machine.execCoastLimitExpiry s
  | .cpllFallback => Sys2Proof.Machine.execCpllFallback s
  | .cpllFallbackReturn => Sys2Proof.Machine.execCpllFallbackReturn s
  | .mpllLockLost => Sys2Proof.Machine.execMpllLockLost s
  | .coreClockLoss => Sys2Proof.Machine.execCoreClockLoss s
  | .clockTimeRead => Sys2Proof.Machine.execClockTimeRead s
  | .epochWrap => Sys2Proof.Machine.execEpochWrap s
  | .timeStep => Sys2Proof.Machine.execTimeStep s
  | .ernLinkDown port => Sys2Proof.Machine.execErnLinkDown port s
  | .ernLinkUp port toHead => Sys2Proof.Machine.execErnLinkUp port toHead s
  | .ernosProbe port delay headDelay offset reach errors => Sys2Proof.Machine.execErnosProbe port delay headDelay offset reach errors s
  | .arrayAlignDone others reach => Sys2Proof.Machine.execArrayAlignDone others reach s
  | .amuCommit v => Sys2Proof.Machine.execAmuCommit v s
  | .amuCommitApply => Sys2Proof.Machine.execAmuCommitApply s
  | .amuPassStart => Sys2Proof.Machine.execAmuPassStart s
  | .amuOutput v vref => Sys2Proof.Machine.execAmuOutput v vref s
  | .amuSwap v => Sys2Proof.Machine.execAmuSwap v s
  | .injectStart => Sys2Proof.Machine.execInjectStart s
  | .injectDone v vref => Sys2Proof.Machine.execInjectDone v vref s
  | .amuResultHdrRead n => Sys2Proof.Machine.execAmuResultHdrRead n s
  | .amuCjcRead t => Sys2Proof.Machine.execAmuCjcRead t s
  | .loopSet k v => Sys2Proof.Machine.execLoopSet k v s
  | .loopReadback k ua => Sys2Proof.Machine.execLoopReadback k ua s
  | .loopWdog k => Sys2Proof.Machine.execLoopWdog k s
  | .bootImageArrival src v image => Sys2Proof.Machine.execBootImageArrival src v image s
  | .bootImageRequest port => Sys2Proof.Machine.execBootImageRequest port s
  | .imageVerifyDone => Sys2Proof.Machine.execImageVerifyDone s
  | .offerStaged image => Sys2Proof.Machine.execOfferStaged image s
  | .forwardedOfferArrival port header => Sys2Proof.Machine.execForwardedOfferArrival port header s
  | .offerOutcomeReport port reached installed last => Sys2Proof.Machine.execOfferOutcomeReport port reached installed last s
  | .handover => Sys2Proof.Machine.execHandover s
  | .admissionResume crcBad parity => Sys2Proof.Machine.execAdmissionResume crcBad parity s
  | .probationExpiry => Sys2Proof.Machine.execProbationExpiry s
  | .coreException => Sys2Proof.Machine.execCoreException s
  | .imageConfirmed => Sys2Proof.Machine.execImageConfirmed s
  | .compatWrite v => Sys2Proof.Machine.execCompatWrite v s
  | .ownerLock v => Sys2Proof.Machine.execOwnerLock v s
  | .ledgerSecond => Sys2Proof.Machine.execLedgerSecond s
  | .ledgerBurnStart => Sys2Proof.Machine.execLedgerBurnStart s
  | .ledgerBurnDone ok => Sys2Proof.Machine.execLedgerBurnDone ok s
  | .thermalSample temps hbm0 hbm1 => Sys2Proof.Machine.execThermalSample temps hbm0 hbm1 s
  | .thermalEmergency tj sensor hbm0 hbm1 => Sys2Proof.Machine.execThermalEmergency tj sensor hbm0 hbm1 s
  | .supplyWarning source x => Sys2Proof.Machine.execSupplyWarning source x s
  | .supplyMargin rail mv => Sys2Proof.Machine.execSupplyMargin rail mv s
  | .supplyWarnRelease => Sys2Proof.Machine.execSupplyWarnRelease s
  | .powerMeasure p rails => Sys2Proof.Machine.execPowerMeasure p rails s
  | .warmupEnd => Sys2Proof.Machine.execWarmupEnd s
  | .readySet => Sys2Proof.Machine.execReadySet s
  | .invalidKind => Sys2Proof.Machine.execInvalidKind s
  | .timeWrap g => Sys2Proof.Machine.execTimeWrap g s
  | .commandSlot pc blocked draw => Sys2Proof.Machine.execCommandSlot pc blocked draw s
  | .snapshotInstant sq tag => Sys2Proof.Machine.execSnapshotInstant sq tag s
  | .reportDeadline silent => Sys2Proof.Machine.execReportDeadline silent s
  | .sidebandMessage kind index hops headDelay t delta => Sys2Proof.Machine.execSidebandMessage kind index hops headDelay t delta s
  | .zeroLengthReadDone sq tag => Sys2Proof.Machine.execZeroLengthReadDone sq tag s
  | .linkTrainingDone bifurcated secondaryUp speed width flit => Sys2Proof.Machine.execLinkTrainingDone bifurcated secondaryUp speed width flit s

end Sys2Proof.Machine
end

