-- ==== Sys2Proof/Machine/Step.lean ====
section
/-! DEFINITION. Machine/Step.lean: one step takes the command at the front of the queue. -/
namespace Sys2Proof.Machine

/-- With an empty queue the block idles, and one SCLK cycle of time passes (DESIGN CHOICE, assumption 1). -/
def idle (s : State) : Host.Outcome State Fault Refusal := live s fun s => s.elapse cycle

/-- One step: the command at the front of the queue takes effect on the state with the rest of the queue; on an empty
queue the block idles. -/
def step (s : State) : Host.Outcome State Fault Refusal :=
  match s.pending with
  | [] => idle s
  | c :: rest => exec c { s with pending := rest }

/-- `s` with the command that a table word spells in front of its queue; the table gives no row any bits, so no word
spells one. -/
def State.withFetchWord (s : State) (nbits w : Nat) : State :=
  match decodeTableWord nbits w with
  | some c => { s with pending := c :: s.pending }
  | none => s

end Sys2Proof.Machine
end

