-- ==== Sys2Proof/Safety.lean ====
section
/-! DEFINITION. Safety.lean: what counts as a safe step, and the words that statements about effects and frames use. -/
namespace Sys2Proof

/-- A step that answers a next state: the command had its effect, and the block goes on. -/
def Goes (o : Host.Outcome Machine.State Machine.Fault Machine.Refusal) : Prop := ∃ t, o = .next t

/-- A step that stops the block. -/
def Stops (o : Host.Outcome Machine.State Machine.Fault Machine.Refusal) : Prop := ¬ Goes o

/-- Every register word outside the addresses `as` is the same in both states, whatever it reads as unlisted. -/
def KeepsWords (s t : Machine.State) (as : List Nat) : Prop :=
  ∀ a d, a ∉ as → Machine.kget t.regs a d = Machine.kget s.regs a d

/-- As `KeepsWords`, for a command that may raise events: HOST_EVQ_LOST, POWER_ALERT and the MSI-X pending bits may change
beside the words at `as` (R72, R73, R472). -/
def KeepsWordsButEvents (s t : Machine.State) (as : List Nat) : Prop :=
  ∀ a d, a ∉ as → a ≠ 0x1000AC → a ≠ 0x3C00040 → Machine.isMsix a = false →
    Machine.kget t.regs a d = Machine.kget s.regs a d

/-- The next descriptor that admission decides is job `j`, of KIND `kind`, and the block runs (R57). -/
def Decides (s : Machine.State) (j : Machine.Job) (kind : Nat) : Prop :=
  s.dead = false ∧ s.nextDecision = some j ∧ s.job? j.jid = some j ∧ j.kind = kind

/-- Job `j` as its admission leaves it (R53, R61, R63): its reservation, the shares granted, its bound and its duration. -/
def admittedAs (s : Machine.State) (j : Machine.Job) (d : Machine.Demand) (rd rh b : Nat) (dur : Option Nat) : Machine.Job :=
  { j with
    decided := true, admitted := true, admitAt := s.phys, demand := d, grantD2h := rd, grantH2d := rh, bound := b
    dur := dur }

/-- Job `jid` is in the table, admitted with reservation `d` and bound `b`. -/
def HoldsJob (t : Machine.State) (jid : Nat) (d : Machine.Demand) (b : Nat) : Prop :=
  ∃ k, t.job? jid = some k ∧ k.admitted = true ∧ k.demand = d ∧ k.bound = b

/-- A read at `a` has no side effect of its own: it is none of CLOCK_TIME_LO (R388), the AMU's result headers (R413) and
Glint's result windows (R269). -/
def ReadsPlain (a : Nat) : Prop :=
  a ≠ 0x3400030 ∧ (∀ n : Fin 17, Machine.hdrAddr n.val ≠ a) ∧
    ¬(0x1880000 ≤ a ∧ a < 0x1880200 ∧ (a % 16 = 8 ∨ a % 16 = 12))

/-- A write at `a` does more than the access types of the register's fields say, or is held in some states: a command
register, a ring window, a COMMIT, and their like. -/
def SpecialWrite (a : Nat) : Bool :=
  [0x8, 0x10, 0x44, 0x100000, 0x100020, 0x100024, 0x1000A0, 0x1000A4, 0x1000A8, 0x100104, 0x100108, 0x10010C, 0x100114,
    0x100144, 0x100148, 0x10014C, 0x100150, 0x100158, 0x800000, 0xC00000, 0x1002004, 0x1002104, 0x1881000, 0x3201008,
    0x3201108, 0x3400000, 0x3600000, 0xA00004, 0x3000020, 0x3400018, 0x340100C, 0x3600014, 0x3600200, 0x3600220, 0x3600204,
    0x3600224].contains a || Machine.isMsix a ||
    (decide (0x400000 ≤ a ∧ a < 0x440000) && [0x0, 0x4, 0x8, 0x28].contains ((a - 0x400000) % 0x10000)) ||
    (decide (0x2000000 ≤ a ∧ a < 0x2100000) && a % 0x1000 = 0x10)

/-- Unit `l` of run `r` issues its next bundle, and the bundle is a legal one of operation `code` (R283, R284). -/
def UnitIssues (s : Machine.State) (l : Nat) (r : Machine.RunSt) (code : Nat) : Prop :=
  s.dead = false ∧ s.run? (s.tile l).run = some r ∧ 0 < r.g ∧ s.canIssue r l = true ∧
    Machine.opc (s.tile l).bundle = code ∧ Machine.illegal (s.tile l).bundle = false ∧
    Machine.placement (s.tile l).now (s.tile l).bundle = false

/-- Unit `l` has no loop, repetition or delay slot in progress, no result of an earlier bundle under way, and MAX_CYCLES is at
least `n` cycles away. -/
def UnitQuiet (s : Machine.State) (l : Nat) (r : Machine.RunSt) (n : Nat) : Prop :=
  (s.tile l).loops = [] ∧ (s.tile l).delay = none ∧ (s.tile l).rep = none ∧ (s.tile l).since + n ≤ r.maxCycles ∧
    ∀ m ∈ r.unit l, (s.tile m).pend = []

/-- No capture, calibration, play, Glimmer, temperature or Glint run is in progress: a lock loss ends no job (R383). -/
def NothingRuns (s : Machine.State) : Prop :=
  s.record.capts = [] ∧ s.prism.cal = [] ∧ s.glint.runs = [] ∧
    ∀ i : Fin 2, s.glim i = none ∧ s.ft i = none ∧ (s.bcn i).play = none

end Sys2Proof
end

