-- ==== Sys2Proof/WellFormed.lean ====
section
/-! DEFINITION. WellFormed.lean: which operands a command can bring. Every check is a size, a range or an alignment that a
rule gives the thing the operand stands for. -/
namespace Sys2Proof

/-- A register address: an aligned word of the 64 MiB of BAR0, or of BAR2, whose words the model numbers from
0x1_0000_0000 on (R10, R30, R38). -/
def addrOk (a : Nat) : Bool :=
  a % 4 = 0 && (decide (a < 0x4000000) || decide (0x100000000 ≤ a ∧ a < 0x100800000))

/-- An access that R10 rejects: not one aligned 32-bit word. -/
def badAccess (addr len : Nat) : Bool :=
  decide (1 ≤ len ∧ len ≤ 64) && !(len = 4 && addr % 4 = 0) &&
    (decide (addr + len ≤ 0x4000000) || decide (0x100000000 ≤ addr ∧ addr + len ≤ 0x100800000))

/-- A link's generation and width (R35). -/
def linkOk (speed width : Nat) : Bool := decide (1 ≤ speed ∧ speed ≤ 6) && [1, 2, 4, 8, 16].contains width

/-- A block that is read from host memory, where the read answered. -/
def blockOk (n : Nat) : Option Bytes → Bool
  | none => true
  | some d => d.length = n

/-- A list of 32-byte entries, at least `lo` and at most `hi`, where the read answered. -/
def listOk (lo hi : Nat) : Option Bytes → Bool
  | none => true
  | some d => d.length % 32 = 0 && decide (32 * lo ≤ d.length ∧ d.length ≤ 32 * hi)

/-- The changes of an overdrive detector within a word: at rising offsets inside the longest word of 2^21 ticks, and
alternating (R77, R84). -/
def edgesOk : List (Nat × Bool) → Bool
  | [] => true
  | [x] => decide (x.1 < 2097152)
  | x :: y :: r => decide (x.1 < y.1) && x.2 != y.2 && edgesOk (y :: r)

/-- A signed value of `w` bits. -/
def signedOk (w : Nat) (v : Int) : Bool := decide (-(2 ^ (w - 1) : Int) ≤ v ∧ v < (2 ^ (w - 1) : Int))

/-- An element of a data mover is at most 256 KiB (R338). -/
def elemOk (n : Nat) : Bool := decide (n ≤ 262144)

/-- The members of a list differ. -/
def distinct {α : Type} [DecidableEq α] : List α → Bool
  | [] => true
  | x :: xs => !xs.contains x && distinct xs

/-- A trace of the channeliser: both inputs of the fibre give as many positions (R204, R207). -/
def traceOk (even odd : List (Int × Int)) : Bool :=
  even.length = odd.length && (even ++ odd).all (fun z => signedOk 32 z.1 && signedOk 32 z.2)

/-- The operands that a command can bring. -/
def Instr.wf : Instr → Bool
  | .badWidthAccess _ addr len => badAccess addr len
  | .pairLoRead addr => addrOk addr
  | .pairLoWrite addr _ => addrOk addr
  | .pairHiWrite addr _ => addrOk addr
  | .registerWrite addr _ => addrOk addr
  | .doorbellReadDone _ words => decide (words.length ≤ 512)
  | .descriptorPickup slot => slot.length = 64
  | .linkRetrain _ speed width _ => linkOk speed width
  | .linkTrainingDone _ _ speed width _ => linkOk speed width
  | .fibreVibRun setup => blockOk 576 setup
  | .fibreTempRun setup => blockOk 128 setup
  | .glintMeasure setup => blockOk 256 setup
  | .tileRun setup => blockOk 128 setup
  | .move list => listOk 1 4096 list
  | .amuSequence table => listOk 0 31 table
  | .arrayAlign devs => decide (1 ≤ devs.val)
  | .imageOffer header => blockOk 256 header
  | .prismWord _ volts own nbr _ _ => volts.length = 64 && edgesOk own && edgesOk nbr
  | .calibrateChannelDone _ temp _ _ _ _ offTrim skewTrim => signedOk 16 temp && signedOk 16 offTrim && signedOk 16 skewTrim
  | .glimmerTrace _ _ even odd _ _ => traceOk even odd
  | .glimmerRecompute _ _ even odd _ => traceOk even odd
  | .glintResult _ spoiled _ _ => distinct spoiled
  | .glintCommitApply high => distinct high
  | .marchTestDone rows => rows.all (fun r => decide (r.1 < 33554432))
  | .moverElementEnd _ moved data _ damaged => elemOk moved && elemOk data.length && damaged.all elemOk
  | .hostReadError _ data => elemOk data.length
  | .hbmTrainingDone _ _ lanes => lanes.length = 128
  | .hbmRequest _ _ write addr _ data _ => addr % 64 = 0 && (if write then data.length = 64 else data.isEmpty)
  | .hbmReadComplete _ flip => flip.length = 64
  | .commandSlot _ blocked _ => distinct blocked
  | .arrayAlignDone others _ => decide (others.length ≤ 31)
  | .referenceReturn step => signedOk 64 step
  | .sidebandMessage _ _ _ _ _ delta => signedOk 64 delta
  | .bootImageArrival src v image => if src.val = 0 then image.isEmpty else v = 0 && decide (256 ≤ image.length)
  | .forwardedOfferArrival _ header => header.length = 256
  | .thermalSample temps _ _ => temps.length = 36
  | .powerMeasure _ rails => rails.length = 11
  | .hostNudge _ | .hostEnable _ | .evqEnable _ | .sqEnable _ | .cqEnable _ | .doorbellPoll _ | .doorbellReadFailed _
  | .descriptorFetch | .descriptorReadFailed | .postedCreditGrant _ | .coalesceTimeout _ | .linkCorrectedError
  | .linkUncorrectableError | .linkReset | .coldReset | .warmReset _ | .captureArm | .segmentRead | .streamOpen
  | .streamClose | .afterglowRead | .afterglowClear | .beaconLoad | .tileLoad | .amuInject | .calibrate | .ledgerRead
  | .abort | .prismCommit _ _ | .prismConfigApply _ | .rangeChangeApply _ | .calUpdate _ _ _ _ _ _
  | .calStaleTimeout _ | .lanternCommit _ | .lanternCommitApply | .triginEdge _ _ _ | .lanternTimeout _
  | .sequenceTimeout _ | .markQueueDrain _ | .lineEvent _ _ | .clockHoldEnd | .captureArming _ _ | .captureMark _ _
  | .windowClose _ _ | .armTimeExpiry _ _ | .gateLimit _ _ | .streamStart _ _ | .streamStop _ _ | .recordSyncGo _
  | .syncApply | .afterglowCommit _ | .afterglowCommitApply | .sumSegmentRead _ _ | .afterglowRecompute _
  | .afterglowClearPoint _ | .histogramColumnTake _ | .sumDrainDeliver _ _ | .beaconCommit _ _ | .beaconPlayStart _
  | .probeEmission _ | .markerEdge _ _ _ _ | .beaconBankSwitch _ | .beaconPlayStop _ | .glimmerFrameWrite _
  | .ftempTrace _ _ | .ftempRecompute _ _ | .ftempAccumulationEnd _ _ _ | .directionChange _ | .glintEdge _ _ _ _
  | .glintInterpCal _ | .glintArm _ | .glintWindowEnd _ | .classICycleClose _ | .glintLimit _ | .glintCommit _
  | .resHdrRead _ | .resDataRead _ | .nop _ | .mac4 _ | .macp _ | .accld _ | .accst _ | .ext _ | .movs _ | .sha _
  | .mov _ | .add _ | .sub _ | .and _ | .or _ | .xor _ | .add4 _ | .sub4 _ | .cmp _ | .fcvt _ | .icvt _ | .geta _
  | .gets _ | .puts _ | .lde _ | .ste _ | .movi _ | .movih _ | .seta _ | .adda _ | .b _ | .call _ | .ret _ | .reti _
  | .loop _ | .rep _ | .brk _ | .waitin _ | .nextin _ | .putout _ | .waitout _ | .pld _ | .pst _ | .pwait _ | .ei _
  | .di _ | .halt _ | .tileStallRelease _ _ | .tileInterrupt _ | .tileTimer _ | .tileMailWrite _ _ | .tileOverrun _
  | .itemDelivery _ | .tileParityRecovery _ _ | .poolAccessComplete _ _ _ | .poolMarchGo _ | .moverElementReady _
  | .producerFlushTimeout _ | .moverGrant _ | .hbmTracking _ _ _ _ _ | .hbmRefresh _ _ _ | .hbmcCommit _ _
  | .hbmcCommitApply _ | .mpllRelockResume _ | .clockCommit _ | .clockCommitApply | .presenceWindow _ _ _
  | .missingEdge _ | .lockWindow _ _ | .ssynPhaseError _ _ | .buildOut _ | .coastLimitExpiry | .cpllFallback
  | .cpllFallbackReturn | .mpllLockLost | .coreClockLoss | .clockTimeRead | .epochWrap | .timeStep | .ernLinkDown _
  | .ernLinkUp _ _ | .ernosProbe _ _ _ _ _ _ | .amuCommit _ | .amuCommitApply | .amuPassStart | .amuOutput _ _
  | .amuSwap _ | .injectStart | .injectDone _ _ | .amuResultHdrRead _ | .amuCjcRead _ | .loopSet _ _
  | .loopReadback _ _ | .loopWdog _ | .bootImageRequest _ | .imageVerifyDone | .offerStaged _
  | .offerOutcomeReport _ _ _ _ | .handover | .admissionResume _ _ | .probationExpiry | .coreException
  | .imageConfirmed | .compatWrite _ | .ownerLock _ | .ledgerSecond | .ledgerBurnStart | .ledgerBurnDone _
  | .thermalEmergency _ _ _ _ | .supplyWarning _ _ | .supplyMargin _ _ | .supplyWarnRelease | .warmupEnd | .readySet
  | .invalidKind | .timeWrap _ | .snapshotInstant _ _ | .reportDeadline _ | .zeroLengthReadDone _ _ => true

end Sys2Proof
end

