-- ==== Sys2Proof/Certificates/Slice0/Obligations.lean ====
section
/-! DEFINITION. Certificates/Slice0/Obligations.lean: the statements for the provers, family by family. -/
open Sys2Proof Sys2Proof.Machine

/-! ### The queue, the step, reset -/

/-- A step takes the command at the front of the queue: it is `exec` of that command on the state with the rest of the
queue. On an empty queue the block idles: one SCLK cycle passes (the model's choice, assumption 1). -/
def Obligations.StepRunsTheFrontCommand : Prop :=
  (∀ (c : Instr) (rest : List Instr) (s : State), s.pending = c :: rest →
    Sys2Proof.Machine.step s = Sys2Proof.Machine.exec c { s with pending := rest }) ∧
  (∀ s : State, s.pending = [] → Sys2Proof.Machine.step s = Sys2Proof.Machine.idle s)

/-- An idle step on a running device: elapsed time and device time advance by one SCLK cycle of 32,768 ticks, the Glare
bucket changes at its rate, and of the rest only register words, the output record and the host interface may change
(assumption 1; R27, R60). -/
def Obligations.IdleStepAdvancesOneCycle : Prop :=
  ∀ s : State, s.pending = [] → s.dead = false →
    ∃ t, Sys2Proof.Machine.step s = .next t ∧ t.phys = s.phys + 32768 ∧
      t.devTime = (if s.running then s.devTime + 32768 else s.devTime) ∧
      t.host.bucket = min (15000 * tickS) ((s.host.bucket : Int) + (2150 - (s.pres : Int)) * 32768).toNat ∧
      t = { s with regs := t.regs, out := t.out, host := t.host, phys := t.phys, devTime := t.devTime }

/-- The state after a cold reset: every register field at its reset value, the pairs' latches 0 (R12), device time 0 and not
yet running (R381), the Glare bucket full (R74), no job, no held data, and no command waiting. -/
def Obligations.ResetLeavesTheResetValues : Prop :=
  (∀ (f : Fld) (i j : Nat), State.reset.rd f i j = f.ofWord (f.rst j)) ∧
  (∀ a d, kget State.reset.rlatch a d = d ∧ kget State.reset.wlatch a d = d) ∧
  State.reset.devTime = 0 ∧ State.reset.running = false ∧ State.reset.dead = false ∧
  State.reset.host.bucket = 15000 * tickS ∧ State.reset.host.jobs = [] ∧ State.reset.host.chans = [] ∧
  State.reset.record.capts = [] ∧ State.reset.pending = []

/-- No command stops the block, whatever its operands and the state, and none takes from the queue or adds to it. -/
def Obligations.EveryCommandCompletes : Prop :=
  ∀ (c : Instr) (s : State), ∃ t, Sys2Proof.Machine.exec c s = .next t ∧ t.pending = s.pending

/-- The queue is first in, first out: as many steps as there are commands in front take exactly those commands. -/
def Obligations.QueueIsServedInOrder : Prop :=
  ∀ (cs rest : List Instr) (s : State), s.pending = cs ++ rest →
    ∃ t : State, Sys2Proof.core.run cs.length s = .next t ∧ t.pending = rest

/-- Every waiting command has operands that its command can bring. -/
def Obligations.WellFormedQueueIsKept : Prop :=
  ∀ s t : State, s.pending.all Instr.wf = true → Sys2Proof.Machine.step s = .next t → t.pending.all Instr.wf = true

/-- The queue after reset is well formed. -/
def Obligations.ResetQueueIsWellFormed : Prop := State.reset.pending.all Instr.wf = true

/-- A device that has lost every core clock (R387): a command other than COLD_RESET changes nothing, but that a read is
answered with 0xFFFF_FFFF. -/
def Obligations.StoppedDeviceAnswersAllOnes : Prop :=
  ∀ (c : Instr) (s : State), s.dead = true → c ≠ .coldReset →
    (∃ os, Sys2Proof.Machine.exec c s = .next { s with out := s.out ++ os } ∧ os.length ≤ 1 ∧
      ∀ o ∈ os, ∃ a, o = .readData a 0xFFFFFFFF) ∧
    (∀ a, c = .pairLoRead a →
      Sys2Proof.Machine.exec c s = .next { s with out := s.out ++ [.readData a 0xFFFFFFFF] }) ∧
    (∀ a v, c = .registerWrite a v → Sys2Proof.Machine.exec c s = .next s)

/-- However long it runs, a stopped device keeps its whole state until COLD_RESET, but that reads are answered with
0xFFFF_FFFF (R387). -/
def Obligations.StoppedDeviceKeepsItsState : Prop :=
  ∀ (n : Nat) (s : State), s.dead = true → Instr.coldReset ∉ s.pending →
    ∃ os, Sys2Proof.core.run n s = .next { s with pending := s.pending.drop n, out := s.out ++ os } ∧
      ∀ o ∈ os, ∃ a, o = .readData a 0xFFFFFFFF
/-! ### Registers (R10-R16, R30) -/

/-- An access that is not one aligned 32-bit word (R10): a read returns 0xFFFF_FFFF, a write is ignored, and each counts
once in HOST_BADACC_CNT, which saturates (R16). Nothing else changes. -/
def Obligations.BadAccessIsCountedAndIgnored : Prop :=
  ∀ (s : State) (a n : Nat), s.dead = false → goodAccess a n = false →
    (∃ t, Sys2Proof.Machine.exec (.badWidthAccess true a n) s = .next t ∧ t = { s with regs := t.regs } ∧
      KeepsWords s t [0x100014] ∧
      t.rd F.HOST_BADACC_CNT_COUNT = min (s.rd F.HOST_BADACC_CNT_COUNT + 1) 0xFFFFFFFF) ∧
    (∃ t, Sys2Proof.Machine.exec (.badWidthAccess false a n) s = .next t ∧ t = { s with regs := t.regs, out := t.out } ∧
      KeepsWords s t [0x100014] ∧ t.out = s.out ++ [.readData a 0xFFFFFFFF] ∧
      t.rd F.HOST_BADACC_CNT_COUNT = min (s.rd F.HOST_BADACC_CNT_COUNT + 1) 0xFFFFFFFF)

/-- A pair of registers is one 64-bit value (R12). After reset every latch is 0, so that HI alone reads 0 and commits 0 below it.
Reading LO returns the low word and latches the high word of the same value in that pair's read latch alone; a read of HI
returns the latch. A write of LO replaces the pair's write latch and nothing else; a write of HI commits HI with the latched
LO, by their fields' access types, and leaves the latch. HOST_DB_BASE takes it only while HOST_CTRL.ENABLE and EVQ_EN are 0,
HOST_EVQ_BASE only while EVQ_EN is 0, and the base of the selected submission or completion ring, aligned to its slots, only
while that ring's ENABLE is 0; a held pair changes nothing (R74). -/
def Obligations.PairsAreOneValue : Prop :=
  (∀ a, kget State.reset.rlatch a 0 = 0 ∧ kget State.reset.wlatch a 0 = 0) ∧
  (∀ (s : State) (a : Nat), s.dead = false → isPairLo a = true →
    ∃ t u, Sys2Proof.Machine.exec (.pairLoRead a) s = .next t ∧ Sys2Proof.Machine.exec (.pairLoRead (a + 4)) s = .next u ∧
      t = { s with out := s.out ++ [.readData a (s.regNow a)], rlatch := t.rlatch } ∧
      kget t.rlatch a 0 = s.regNow (a + 4) ∧ (∀ b d, b ≠ a → kget t.rlatch b d = kget s.rlatch b d) ∧
      u = { s with out := s.out ++ [.readData (a + 4) (kget s.rlatch a 0)] }) ∧
  (∀ (s : State) (a : Nat) (lo hi : Word), s.dead = false → isPairLo a = true →
      (∃ t, Sys2Proof.Machine.exec (.pairLoWrite a lo) s = .next t ∧ t = { s with wlatch := t.wlatch } ∧
        kget t.wlatch a 0 = lo ∧ ∀ b d, b ≠ a → kget t.wlatch b d = kget s.wlatch b d) ∧
      ((SpecialWrite a = false ∧ SpecialWrite (a + 4) = false ∨
          (a = 0x100020 ∧ s.rd F.HOST_CTRL_ENABLE = 0 ∧ s.rd F.HOST_CTRL_EVQ_EN = 0) ∨
          (a = 0x1000A0 ∧ s.rd F.HOST_CTRL_EVQ_EN = 0)) → ∀ r q i j, findReg regTable a = some (r, i) →
        findReg regTable (a + 4) = some (q, j) →
        ∃ t, Sys2Proof.Machine.exec (.pairHiWrite (a + 4) hi) s = .next t ∧ t = { s with regs := t.regs } ∧
          KeepsWords s t [a, a + 4] ∧
          (let d : Word := BitVec.ofNat 32 (r.rsts.getD i 0)
           kget t.regs a d = r.write (kget s.regs a d) (kget s.wlatch a 0)) ∧
          (let d : Word := BitVec.ofNat 32 (q.rsts.getD j 0)
           kget t.regs (a + 4) d = q.write (kget s.regs (a + 4) d) hi)) ∧
      ((a = 0x100020 ∧ (s.rd F.HOST_CTRL_ENABLE = 1 ∨ s.rd F.HOST_CTRL_EVQ_EN = 1) ∨
          (a = 0x1000A0 ∧ s.rd F.HOST_CTRL_EVQ_EN = 1) ∨
          (a = 0x100104 ∧ (s.sq (s.rd F.HOST_SQ_SEL_RING)).enable = true) ∨
          (a = 0x100144 ∧ (s.cq (s.rd F.HOST_CQ_SEL_RING)).enable = true)) →
        Sys2Proof.Machine.exec (.pairHiWrite (a + 4) hi) s = .next s) ∧
      (let n := s.rd F.HOST_SQ_SEL_RING
       a = 0x100104 → (s.sq n).enable = false →
       ∃ t, Sys2Proof.Machine.exec (.pairHiWrite (a + 4) hi) s = .next t ∧ t = { s with host := t.host } ∧
        t.host = { s.host with sqs := t.host.sqs } ∧ (∀ k, k ≠ n → t.sq k = s.sq k) ∧
        t.sq n = { s.sq n with base := hi.toNat * 2 ^ 32 + (kget s.wlatch a 0).toNat / 64 * 64 }) ∧
      (let m := s.rd F.HOST_CQ_SEL_RING
       a = 0x100144 → (s.cq m).enable = false →
       ∃ t, Sys2Proof.Machine.exec (.pairHiWrite (a + 4) hi) s = .next t ∧ t = { s with host := t.host } ∧
        t.host = { s.host with cqs := t.host.cqs } ∧ (∀ k, k ≠ m → t.cq k = s.cq k) ∧
        t.cq m = { s.cq m with base := hi.toNat * 2 ^ 32 + (kget s.wlatch a 0).toNat / 32 * 32 }))

/-- A write of a register (R13, R30). Where no effect goes beyond the fields, the word follows the access types of its fields
and nothing else changes; where no register is defined, nothing changes. HOST_EVQ_CTRL is held while EVQ_EN is 1, and the
ring windows write the ring that is selected (R74): a flag of a STAT register written 1 clears, and HOST_CQ_COAL takes TIME and
COUNT. A write of a register that has a command of its own in the table is that command. -/
def Obligations.RegisterWriteFollowsItsFields : Prop :=
  ∀ (s : State) (a : Nat) (v : Word), s.dead = false →
    (a < bar2 → isPairLo a = false → isPairHi a = false →
      (SpecialWrite a = false ∨ (a = 0x1000A8 ∧ s.rd F.HOST_CTRL_EVQ_EN = 0)) →
      (∀ r j, findReg regTable a = some (r, j) →
        ∃ t, Sys2Proof.Machine.exec (.registerWrite a v) s = .next t ∧ t = { s with regs := t.regs } ∧ KeepsWords s t [a] ∧
          (let d : Word := BitVec.ofNat 32 (r.rsts.getD j 0)
           kget t.regs a d = r.write (kget s.regs a d) v)) ∧
      (findReg regTable a = none → Sys2Proof.Machine.exec (.registerWrite a v) s = .next s)) ∧
    (s.rd F.HOST_CTRL_EVQ_EN = 1 → Sys2Proof.Machine.exec (.registerWrite 0x1000A8 v) s = .next s) ∧
    (let n := s.rd F.HOST_SQ_SEL_RING
     let r := s.sq n
     ∃ t, Sys2Proof.Machine.exec (.registerWrite 0x100114 v) s = .next t ∧ t = { s with host := t.host } ∧
      t.host = { s.host with sqs := t.host.sqs } ∧ (∀ k, k ≠ n → t.sq k = s.sq k) ∧
      t.sq n = { r with disabled := r.disabled && !v.getLsbD 2, ownWait := r.ownWait && !v.getLsbD 1
                        badTail := r.badTail && !v.getLsbD 0 }) ∧
    (let m := s.rd F.HOST_CQ_SEL_RING
     let r := s.cq m
     (∃ t, Sys2Proof.Machine.exec (.registerWrite 0x100158 v) s = .next t ∧ t = { s with host := t.host } ∧
      t.host = { s.host with cqs := t.host.cqs } ∧ (∀ k, k ≠ m → t.cq k = s.cq k) ∧
      t.cq m = { r with badHead := r.badHead && !v.getLsbD 1, fullStall := r.fullStall && !v.getLsbD 0 }) ∧
     (∃ t, Sys2Proof.Machine.exec (.registerWrite 0x100150 v) s = .next t ∧ t = { s with host := t.host } ∧
      t.host = { s.host with cqs := t.host.cqs } ∧ (∀ k, k ≠ m → t.cq k = s.cq k) ∧
      t.cq m = { r with coalTime := v.toNat / 2 ^ 16 % 2 ^ 12, coalCount := v.toNat % 2 ^ 8 })) ∧
    (let w : Nat → Host.Outcome State Fault Refusal := fun b => Sys2Proof.Machine.exec (.registerWrite b v) s
     w 0x8 = Sys2Proof.Machine.exec (.warmReset v) s ∧ w 0x10 = Sys2Proof.Machine.exec (.compatWrite v) s ∧
     w 0x10010C = Sys2Proof.Machine.exec (.sqEnable v) s ∧ w 0x10014C = Sys2Proof.Machine.exec (.cqEnable v) s ∧
     w bar2 = Sys2Proof.Machine.exec (.hostNudge v) s ∧
     (∀ n : Fin 4, w (0x400008 + 0x10000 * n) = Sys2Proof.Machine.exec (.prismCommit n v) s) ∧
     w 0x800000 = Sys2Proof.Machine.exec (.lanternCommit v) s ∧ w 0xC00000 = Sys2Proof.Machine.exec (.afterglowCommit v) s ∧
     (∀ b : Fin 2, w (0x1002004 + 0x100 * b) = Sys2Proof.Machine.exec (.beaconCommit b v) s) ∧
     w 0x1881000 = Sys2Proof.Machine.exec (.glintCommit v) s ∧
     (∀ k : Fin 2, w (0x3201008 + 0x100 * k) = Sys2Proof.Machine.exec (.hbmcCommit k v) s) ∧
     w 0x3400000 = Sys2Proof.Machine.exec (.clockCommit v) s ∧ w 0x3600000 = Sys2Proof.Machine.exec (.amuCommit v) s ∧
     w 0xA00004 = Sys2Proof.Machine.exec (.recordSyncGo v) s ∧
     (∀ l : Fin 256, w (0x2000010 + 0x1000 * l) = Sys2Proof.Machine.exec (.tileMailWrite l v) s) ∧
     w 0x3000020 = Sys2Proof.Machine.exec (.poolMarchGo v) s ∧ w 0x3400018 = Sys2Proof.Machine.exec (.buildOut v) s ∧
     w 0x3600014 = Sys2Proof.Machine.exec (.amuSwap v) s ∧
     ∀ k : Fin 2, w (0x3600204 + 0x20 * k) = Sys2Proof.Machine.exec (.loopSet k v) s)

/-- The access types, bit by bit (R13, R15, R16): outside a field nothing changes; RW and RWS take the written bit, RO and WO
keep theirs, W1S sets, a one-bit W1C clears where 1 is written, and a wider W1C clears whole or not at all. -/
def Obligations.AccessTypesActBitwise : Prop :=
  ∀ (f : FieldDef) (old new : Word) (i : Nat), f.lo ≤ f.hi → f.hi < 32 → i < 32 →
    (f.write old new).getLsbD i =
      if i < f.lo ∨ f.hi < i then old.getLsbD i else
      match f.acc with
      | .rw | .rws => new.getLsbD i
      | .ro | .wo => old.getLsbD i
      | .w1s => old.getLsbD i || new.getLsbD i
      | .w1c =>
        if f.hi = f.lo then old.getLsbD i && !new.getLsbD i
        else if (List.range 32).all (fun k => decide (k < f.lo ∨ f.hi < k) || new.getLsbD k) then false else old.getLsbD i
/-! ### The doorbell page and the rings (R39-R46, R72-R74, R480, R481) -/

/-- A write of HOST_NUDGE (R42), while the doorbell page is in use: each class whose bit is 1 starts a poll, a read of the
page, or owes exactly one further poll where one is in progress; the other classes stay as they are. A poll due by its
interval starts likewise where none is in progress (R41). Nothing else changes. -/
def Obligations.PollsStartOncePerClass : Prop :=
  ∀ s : State, s.dead = false → s.pageUsed = true →
    (∀ v : Word, ∃ t, Sys2Proof.Machine.exec (.hostNudge v) s = .next t ∧ t = { s with out := t.out, host := t.host } ∧
      t.host = { s.host with pollBusy := t.host.pollBusy, pollAgain := t.host.pollAgain } ∧
      (∀ c : Fin 4,
        kget t.host.pollBusy c false = (kget s.host.pollBusy c false || bit v.toNat c) ∧
        kget t.host.pollAgain c false =
          (kget s.host.pollAgain c false || (bit v.toNat c && kget s.host.pollBusy c false))) ∧
      t.out = s.out ++ List.replicate
        (countP (fun c : Nat => bit v.toNat c && !kget s.host.pollBusy c false) (List.range 4))
        (.hostRead s.dbBase 0x408)) ∧
    (∀ c : Fin 4, kget s.host.pollBusy c false = false →
      ∃ t, Sys2Proof.Machine.exec (.doorbellPoll c) s = .next t ∧ t = { s with out := t.out, host := t.host } ∧
        t.host = { s.host with pollBusy := kset s.host.pollBusy c true false } ∧
        t.out = s.out ++ [.hostRead s.dbBase 0x408])

/-- A doorbell page that could not be read (R480): nothing is taken from it; the first failure since a read succeeded raises
RING_ERROR with SOURCE 0x200 and cause 3, further ones nothing; and a nudge met during the poll starts one more (R42). -/
def Obligations.PageReadFailureTakesNothing : Prop :=
  ∀ (s : State) (c : Fin 4), s.dead = false → kget s.host.pollBusy c false = true →
    ∃ t, Sys2Proof.Machine.exec (.doorbellReadFailed c) s = .next t ∧
      t = { s with regs := t.regs, out := t.out, host := t.host } ∧
      t.host = { s.host with pageBad := true, pollBusy := t.host.pollBusy, pollAgain := t.host.pollAgain
                             evq := t.host.evq } ∧
      kget t.host.pollBusy c false = kget s.host.pollAgain c false ∧ kget t.host.pollAgain c false = false ∧
      (s.host.pageBad = true → t.regs = s.regs ∧ t.host.evq = s.host.evq ∧
        t.out = s.out ++ (if kget s.host.pollAgain c false then [.hostRead s.dbBase 0x408] else [])) ∧
      (s.host.pageBad = false →
        let u := (s.onHost (fun h => { h with pageBad := true })).raise 2 1 0x200 3 0
        t.host.evq = u.host.evq ∧ t.regs = u.regs)

/-- A completed read of the doorbell page (R39, R41, R44, R481), with no record held back and no job: of each completion
ring, a valid head word is taken and an invalid one ignored with BAD_HEAD set; of each enabled submission ring of the class,
while ENABLE is 1, a tail within the ring's size is taken and a wait at an unowned slot ends, and one beyond it disables the
ring with BAD_TAIL set. The poll ends, with one more where a nudge met it. -/
def Obligations.PageReadTakesHeadsAndTails : Prop :=
  ∀ (s : State) (c : Fin 4) (words : List DWord), s.dead = false → kget s.host.pollBusy c false = true →
    s.host.cqs.all (fun r => r.2.held.isEmpty) = true → s.host.jobs = [] →
    ∃ t, Sys2Proof.Machine.exec (.doorbellReadDone c words) s = .next t ∧
      t = { s with regs := t.regs, out := t.out, host := t.host } ∧ t.host.pageBad = false ∧
      kget t.host.pollBusy c false = kget s.host.pollAgain c false ∧ kget t.host.pollAgain c false = false ∧
      (∀ m : Fin 64,
        let w := (words.getD (64 + m) 0).toNat % 2 ^ 32
        let r := s.cq m
        t.cq m = if !r.enable then r
          else if countOk r.tail w (ringSize r.sizeLog2 4 16) then { r with head := w, headBad := false }
          else { r with headBad := true, badHead := true }) ∧
      (∀ n : Fin 64,
        let w := (words.getD n 0).toNat % 2 ^ 32
        let r := s.sq n
        t.sq n = if !(s.flag F.HOST_CTRL_ENABLE && decide (r.pollClass = c) && r.enable) then r
          else if countOk w r.head (ringSize r.sizeLog2 4 16) then { r with tail := w, waiting := false }
          else { r with enable := false, badTail := true, disabled := true, waiting := false })

/-- The enables of the rings (R73, R74). HOST_CTRL.ENABLE is written alone. Setting EVQ_EN where no event was lost puts the
event ring's counts to 0; clearing it keeps them. Setting a submission ring's ENABLE takes its CQ, class and size, and sets
HEAD to 0; setting a completion ring's ENABLE takes its vector and size, and sets TAIL to 0 with the head taken as 0.
While a ring's ENABLE is 1 its other fields are kept. -/
def Obligations.RingEnablesTakeEffect : Prop :=
  ∀ (s : State) (v : Word), s.dead = false →
    (∀ on, ∃ t, Sys2Proof.Machine.exec (.hostEnable on) s = .next t ∧ t = { s with regs := t.regs } ∧
      KeepsWords s t [0x100000] ∧ t.rd F.HOST_CTRL_ENABLE = b2n on ∧
      t.rd F.HOST_CTRL_GLARE_EN = s.rd F.HOST_CTRL_GLARE_EN ∧ t.rd F.HOST_CTRL_EVQ_EN = s.rd F.HOST_CTRL_EVQ_EN) ∧
    (s.rd F.HOST_CTRL_EVQ_EN = 0 → s.host.evq.lostSince = 0 →
      ∃ t, Sys2Proof.Machine.exec (.evqEnable true) s = .next t ∧ t = { s with regs := t.regs, host := t.host } ∧
        KeepsWords s t [0x100000] ∧ t.rd F.HOST_CTRL_EVQ_EN = 1 ∧
        t.host = { s.host with evq := { tail := 0, head := 0, headBad := false, lostSince := 0 } }) ∧
    (∃ t, Sys2Proof.Machine.exec (.evqEnable false) s = .next t ∧ t = { s with regs := t.regs } ∧
      KeepsWords s t [0x100000] ∧ t.rd F.HOST_CTRL_EVQ_EN = 0) ∧
    (let n := s.rd F.HOST_SQ_SEL_RING
     let r := s.sq n
     ∃ t, Sys2Proof.Machine.exec (.sqEnable v) s = .next t ∧ t = { s with host := t.host } ∧
      t.host = { s.host with sqs := t.host.sqs } ∧ (∀ k, k ≠ n → t.sq k = s.sq k) ∧
      (r.enable = false → v.getLsbD 0 = true → t.sq n = { r with
        enable := true, cq := v.toNat / 2 ^ 16 % 64, pollClass := v.toNat / 2 ^ 8 % 4, sizeLog2 := v.toNat / 2 ^ 4 % 16
        head := 0, tail := 0, waiting := false, blocked := false }) ∧
      (r.enable = true → t.sq n = { r with enable := v.getLsbD 0 })) ∧
    (let m := s.rd F.HOST_CQ_SEL_RING
     let r := s.cq m
     r.held = [] → s.host.jobs = [] →
     ∃ t, Sys2Proof.Machine.exec (.cqEnable v) s = .next t ∧ t = { s with host := t.host } ∧
      t.host = { s.host with cqs := t.host.cqs } ∧ (∀ k, k ≠ m → t.cq k = s.cq k) ∧
      (r.enable = false → v.getLsbD 0 = true → t.cq m = { r with
        enable := true, vector := v.toNat / 2 ^ 16 % 2048, sizeLog2 := v.toNat / 2 ^ 4 % 16
        tail := 0, head := 0, headBad := false, since := 0, oldest := none }) ∧
      (r.enable = true → t.cq m = { r with enable := v.getLsbD 0 }))

/-- A descriptor read is issued for the ring whose turn it is (R43, R46): with ENABLE set, fetching started, no freeze, no read
outstanding, room in the fetch window and an entry free, the slot at the ring's head is read. -/
def Obligations.DescriptorReadIsIssued : Prop :=
  ∀ (s : State) (n : Nat), s.dead = false → s.flag F.HOST_CTRL_ENABLE = true → s.host.started = true →
    s.host.frozen = false → s.host.fetch = none → countP (fun j => !j.decided) s.host.jobs < 64 →
    (s.generalFree || s.abortFree) = true → s.nextRing = some n →
    (s.sq n).due = true ∧
    ∃ t, Sys2Proof.Machine.exec .descriptorFetch s = .next t ∧ t = { s with out := t.out, host := t.host } ∧
      t.host = { s.host with fetch := some n, turn := t.host.turn, lastClass := t.host.lastClass
                             lastRing := t.host.lastRing } ∧
      t.out = s.out ++ [.hostRead ((s.sq n).base + 64 * ((s.sq n).head % ringSize (s.sq n).sizeLog2 4 16)) 64]

/-- What a descriptor read brings (R44, R45, R46). A slot with OWN = 0 sets OWN_WAIT and the ring waits for its next poll. A slot
with OWN = 1 is picked up where a general entry is free, and an ABORT also where only an ABORT-only entry is: the job joins the
table undecided, with no record written yet, OWN is written back 0 with the other bits of bytes 0 to 7 unchanged, and HEAD
advances by one. Any other slot is discarded, and nothing more is fetched from its ring until a general entry is free. -/
def Obligations.PickupTakesOwnedSlots : Prop :=
  ∀ (s : State) (n : Nat) (slot : Bytes), s.dead = false → s.host.fetch = some n → (s.sq n).enable = true →
    (bitsAt slot 0 8 63 63 = 0 →
      ∃ t, Sys2Proof.Machine.exec (.descriptorPickup slot) s = .next t ∧ t = { s with host := t.host } ∧
        t.host = { s.host with fetch := none, turn := none, sqs := t.host.sqs } ∧
        t.sq n = { s.sq n with ownWait := true, waiting := true } ∧ ∀ k, k ≠ n → t.sq k = s.sq k) ∧
    (bitsAt slot 0 8 63 63 = 1 → (s.generalFree = true ∨ (bitsAt slot 0 8 55 48 = 0x7F ∧ s.abortFree = true)) →
      ∃ t, Sys2Proof.Machine.exec (.descriptorPickup slot) s = .next t ∧ t = { s with host := t.host, out := t.out } ∧
        t.host = { s.host with fetch := none, turn := t.host.turn, sqs := t.host.sqs, nextJid := s.host.nextJid + 1
                               jobs := s.host.jobs ++ [{ jid := s.host.nextJid, sq := n, cq := (s.sq n).cq, desc := slot
                                                         abortEntry := !s.generalFree, pickup := s.phys }] } ∧
        t.sq n = { s.sq n with head := ((s.sq n).head + 1) % 2 ^ 32 } ∧ (∀ k, k ≠ n → t.sq k = s.sq k) ∧
        t.out = s.out ++ [.hostWrite ((s.sq n).base + 64 * ((s.sq n).head % ringSize (s.sq n).sizeLog2 4 16))
          (leBytes 8 (fieldAt slot 0 8 % 2 ^ 63))]) ∧
    (bitsAt slot 0 8 63 63 = 1 → s.generalFree = false → (bitsAt slot 0 8 55 48 ≠ 0x7F ∨ s.abortFree = false) →
      ∃ t, Sys2Proof.Machine.exec (.descriptorPickup slot) s = .next t ∧ t = { s with host := t.host } ∧
        t.host = { s.host with fetch := none, turn := none, sqs := t.host.sqs } ∧
        t.sq n = { s.sq n with blocked := true } ∧ ∀ k, k ≠ n → t.sq k = s.sq k)

/-- A descriptor read that fails (R480): the ring is disabled with DISABLED set, HEAD stays, nothing is written back, and
RING_ERROR is raised with the ring's SOURCE and cause 3. -/
def Obligations.FailedDescriptorReadDisablesTheRing : Prop :=
  ∀ (s : State) (n : Nat), s.dead = false → s.host.fetch = some n →
    ∃ t, Sys2Proof.Machine.exec .descriptorReadFailed s = .next t ∧
      t = { s with regs := t.regs, out := t.out, host := t.host } ∧
      t.host = { s.host with fetch := none, turn := none, sqs := t.host.sqs, evq := t.host.evq } ∧
      t.sq n = { s.sq n with enable := false, disabled := true } ∧ (∀ k, k ≠ n → t.sq k = s.sq k) ∧
      (s.flag F.HOST_CTRL_EVQ_EN = false → t.host.evq = { s.host.evq with lostSince := s.host.evq.lostSince + 1 })

/-- Posted-write credit (R67): granting or withdrawing it, with no record held and no job, sets only the credit; and a
completion ring whose oldest unsignalled record has waited HOST_CQ_COAL.TIME × 250 ns is signalled, with both counts
reset (R72). -/
def Obligations.CreditAndCoalescing : Prop :=
  ∀ s : State, s.dead = false →
    (∀ g, s.host.cqs.all (fun r => r.2.held.isEmpty) = true → s.host.jobs = [] →
      Sys2Proof.Machine.exec (.postedCreditGrant g) s = .next { s with host := { s.host with credit := g } }) ∧
    (∀ (m : Fin 64) (w : Nat), (s.cq m).oldest = some w → (s.cq m).coalTime ≠ 0 →
      ∃ t, Sys2Proof.Machine.exec (.coalesceTimeout m) s = .next t ∧
        t = { s with phys := t.phys, devTime := t.devTime, regs := t.regs, out := t.out, host := t.host } ∧
        t.phys = max s.phys (w + (s.cq m).coalTime * 250 * tickNs) ∧
        (t.cq m).since = 0 ∧ (t.cq m).oldest = none ∧
        (∀ k, k ≠ m.val → t.cq k = (s.toPhys (w + (s.cq m).coalTime * 250 * tickNs)).cq k))
/-! ### The link and the resets (R32-R37, R468, R469) -/

/-- The link after training (R32, R33, R35): its generation, width and mode are shown, and the capacities are those of a ×16
link of the generation scaled to the width and rounded down; in bifurcation each half reports at most the ×8 figures, and
without it the secondary's read 0. -/
def Obligations.TrainingSetsLinkCapacities : Prop :=
  ∀ (s : State) (bf up flit : Bool) (speed width : Nat), s.dead = false → 1 ≤ speed → speed ≤ 6 →
    width ∈ [1, 2, 4, 8, 16] →
    ∃ t, Sys2Proof.Machine.exec (.linkTrainingDone bf up speed width flit) s = .next t ∧ t = { s with regs := t.regs } ∧
      KeepsWords s t [0x100008, 0x10000C, 0x100010] ∧
      t.rd F.HOST_LINK_SPEED = speed ∧ t.rd F.HOST_LINK_WIDTH = width ∧ t.rd F.HOST_LINK_BIFURCATED = b2n bf ∧
      t.rd F.HOST_LINK_SECONDARY_UP = b2n (bf && up) ∧ t.rd F.HOST_LINK_FLIT = (if speed = 6 then 1 else b2n flit) ∧
      (let w := if bf then min width 8 else width
       let d := [429, 859, 1375, 2750, 5500, 11000].getD (speed - 1) 0 * w / 16
       let h := [390, 781, 1250, 2500, 5000, 10000].getD (speed - 1) 0 * w / 16
       t.rd F.HOST_D2H_CAP_CAP = d ∧ t.rd F.HOST_H2D_CAP_CAP = h ∧
       t.rd F.HOST_D2H_CAP_CAP_SEC = (if bf && up then d else 0) ∧
       t.rd F.HOST_H2D_CAP_CAP_SEC = (if bf && up then h else 0))

/-- A retrain of the primary link to another speed or width (R37): capacities follow the new speed and width, LINK_CHANGED is raised, every job and
reservation stays, and with a job admitted it counts in HOST_LINK_UE_CNT. Corrected errors count in HOST_LINK_CE_CNT and
uncorrectable ones in HOST_LINK_UE_CNT, with no other effect. -/
def Obligations.RetrainsAndLinkErrorsAreCounted : Prop :=
  ∀ s : State, s.dead = false →
    (∀ (speed width : Nat) (flit : Bool), 1 ≤ speed → speed ≤ 6 → width ∈ [1, 2, 4, 8, 16] →
      (speed, width) ≠ (s.rd F.HOST_LINK_SPEED, s.rd F.HOST_LINK_WIDTH) →
      ∃ t, Sys2Proof.Machine.exec (.linkRetrain false speed width flit) s = .next t ∧
        t = { s with regs := t.regs, out := t.out, host := t.host } ∧ t.host = { s.host with evq := t.host.evq } ∧
        KeepsWordsButEvents s t [0x100008, 0x10000C, 0x100010, 0x10001C] ∧
        t.rd F.HOST_LINK_SPEED = speed ∧ t.rd F.HOST_LINK_WIDTH = width ∧
        t.rd F.HOST_D2H_CAP_CAP = [429, 859, 1375, 2750, 5500, 11000].getD (speed - 1) 0 *
          (if s.bifurcated then min width 8 else width) / 16 ∧
        t.rd F.HOST_H2D_CAP_CAP = [390, 781, 1250, 2500, 5000, 10000].getD (speed - 1) 0 *
          (if s.bifurcated then min width 8 else width) / 16 ∧
        t.rd F.HOST_LINK_UE_CNT_COUNT =
          if s.admittedJobs.isEmpty then s.rd F.HOST_LINK_UE_CNT_COUNT else min (s.rd F.HOST_LINK_UE_CNT_COUNT + 1) 0xFFFFFFFF) ∧
    (∃ t, Sys2Proof.Machine.exec .linkCorrectedError s = .next t ∧ t = { s with regs := t.regs } ∧
      KeepsWords s t [0x100018] ∧ t.rd F.HOST_LINK_CE_CNT_COUNT = min (s.rd F.HOST_LINK_CE_CNT_COUNT + 1) 0xFFFFFFFF) ∧
    (∃ t, Sys2Proof.Machine.exec .linkUncorrectableError s = .next t ∧ t = { s with regs := t.regs } ∧
      KeepsWords s t [0x10001C] ∧ t.rd F.HOST_LINK_UE_CNT_COUNT = min (s.rd F.HOST_LINK_UE_CNT_COUNT + 1) 0xFFFFFFFF)

/-- The three resets (R468, R469). A link reset outside a freeze leaves no job, reservation, channel, ring, held capture,
stream, run or retained image, and HOST and MOVER registers at reset; during a freeze it waits for the handover. A write to
GLOBAL_RESET with another KEY changes nothing, and a refused warm reset only sets REJ. A warm reset also returns the
converters, the trigger, the record store and the timing inputs to reset. A cold reset returns everything but the ledger's
OTP; the queue, elapsed time, the output record and the count of free values are the model's own and stay. -/
def Obligations.ResetsReleaseAndRestore : Prop :=
  ∀ (s : State) (v : Word),
    (s.dead = false → s.host.frozen = true →
      Sys2Proof.Machine.exec .linkReset s = .next { s with power := { s.power with linkDue := true } }) ∧
    (s.dead = false → s.host.frozen = false →
      ∃ t, Sys2Proof.Machine.exec .linkReset s = .next t ∧ t.host.jobs = [] ∧ t.host.kept = [] ∧ t.host.chans = [] ∧
        t.host.sqs = [] ∧ t.host.cqs = [] ∧ t.host.fetch = none ∧ t.host.turn = none ∧ t.record.capts = [] ∧
        t.record.reads = [] ∧ t.record.agReads = [] ∧ t.lumen.images = [] ∧ t.pool.owner = [] ∧ t.glint.runs = [] ∧
        t.fibre.glims = [] ∧ t.fibre.fts = [] ∧ t.fibre.loads = [] ∧ t.rd F.GLOBAL_RESET_CAUSE_CAUSE = 3 ∧
        ∀ a d, 0x100000 ≤ a → a < 0x400000 → kget t.regs a d = d) ∧
    (s.dead = false → (v.toNat / 256 % 256 ≠ 0xA5 ∨ v.getLsbD 0 = false) →
      Sys2Proof.Machine.exec (.warmReset v) s = .next s) ∧
    (s.dead = false → v.toNat / 256 % 256 = 0xA5 → v.getLsbD 0 = true → s.warmRefused = true →
      ∃ t, Sys2Proof.Machine.exec (.warmReset v) s = .next t ∧ t = { s with regs := t.regs } ∧ KeepsWords s t [0xC] ∧
        t.rd F.GLOBAL_RESET_CAUSE_REJ = 1 ∧ t.rd F.GLOBAL_RESET_CAUSE_CAUSE = s.rd F.GLOBAL_RESET_CAUSE_CAUSE) ∧
    (s.dead = false → v.toNat / 256 % 256 = 0xA5 → v.getLsbD 0 = true → s.warmRefused = false →
      ∃ t, Sys2Proof.Machine.exec (.warmReset v) s = .next t ∧ t.prism = {} ∧ t.lan = {} ∧ t.record = {} ∧ t.glint = {} ∧
        t.rlatch = [] ∧ t.wlatch = [] ∧ t.host.jobs = [] ∧ t.host.kept = [] ∧ t.host.sqs = [] ∧ t.host.cqs = [] ∧
        t.rd F.GLOBAL_RESET_CAUSE_CAUSE = 2) ∧
    (∃ t, Sys2Proof.Machine.exec .coldReset s = .next t ∧
      t = { State.reset with
        pending := s.pending, phys := s.phys, out := s.out, freeCtr := s.freeCtr, ledger := t.ledger, regs := t.regs } ∧
      t.ledger.otp = s.ledger.otp ∧ KeepsWords State.reset t [0x3800100, 0x3800104, 0x3800108])

/-- The admission decision of a KIND that is not in the table (R48, R54): DESCRIPTOR_ERROR. With the job's completion ring
enabled, empty of held records and with room for two, credit granted, and no other job, an admission record and at once the
final record of the same STATUS are written, each as bytes 8 to 31 and then bytes 0 to 7 (R52), the job leaves the table,
and HOST_DESC_ERR_CNT counts it. -/
def Obligations.UnknownKindIsRefusedWithTwoRecords : Prop :=
  ∀ (s : State) (j : Job), s.dead = false → s.host.frozen = false → s.host.jobs = [j] → j.decided = false →
    j.kind ∉ kinds → j.admitted = false → j.desc.length = 64 →
    (let q := s.cq j.cq
     q.enable = true → q.held = [] → s.host.credit = true → q.coalCount = 0 → j.hdr 0 0 = 0 → j.hdr 1 1 = 0 →
     j.stalls = [] → j.residue = 0 → j.delivered = 0 →
     2 ≤ ringFree q.tail q.head (ringSize q.sizeLog2 4 16) → q.head ≤ q.tail → q.tail + 2 < 2 ^ 32 →
     ∃ t, Sys2Proof.Machine.exec .invalidKind s = .next t ∧
      t = { s with regs := t.regs, out := t.out, host := t.host } ∧ t.host.jobs = [] ∧
      t.rd F.HOST_DESC_ERR_CNT_COUNT = min (s.rd F.HOST_DESC_ERR_CNT_COUNT + 1) 0xFFFFFFFF ∧
      KeepsWords s t [0x100094] ∧ (t.cq j.cq).tail = q.tail + 2 ∧
      (let size := ringSize q.sizeLog2 4 16
       let slot (k : Nat) : Nat := q.base + 32 * ((q.tail + k) % size)
       let rest := leBytes 8 (j.sq * 2 ^ 58) ++ leBytes 8 0 ++ leBytes 8 s.stamp
       let w0 (k : Nat) : Nat :=
         ringPhase (q.tail + k) size * 2 ^ 63 + k * 2 ^ 62 + j.kind * 2 ^ 48 + j.tag * 2 ^ 32 + 0x21 * 2 ^ 24
       t.out = s.out ++ [.hostWrite (slot 0 + 8) rest, .hostWrite (slot 0) (leBytes 8 (w0 0)),
         .hostWrite (slot 1 + 8) rest, .hostWrite (slot 1) (leBytes 8 (w0 1))]))

/-- In bifurcation (R33), once the zero-length read on the secondary link completes, the job that waited for it goes on to its
final record; here its ring is full or closed, so that the record is held behind those already held (R67). -/
def Obligations.ZeroLengthReadReleasesTheFinalRecord : Prop :=
  ∀ (s : State) (j : Job), s.dead = false → s.host.jobs = [j] → j.zeroRead = true → j.ending = true → j.finalSent = false →
    s.host.chans = [] → j.waits = [] → s.cqOpen j.cq = false → ∀ (q : Fin 64) (tag : BitVec 16), j.sq = q.val → j.tag = tag.toNat →
    ∃ t, Sys2Proof.Machine.exec (.zeroLengthReadDone q tag) s = .next t ∧ t = { s with host := t.host } ∧
      t.host.jobs = [{ j with zeroRead := false, secondary := false, finalSent := true }] ∧
      (t.cq j.cq).held = (s.cq j.cq).held ++ [{ j with zeroRead := false, secondary := false, finalSent := true }.finalRec] ∧
      ∀ m, m ≠ j.cq → t.cq m = s.cq m
/-! ### Admission decisions (R53, R54, R57, R63, and the KINDs' own rules) -/

/-- CAPTURE_ARM and STREAM_OPEN, admitted (R137, R164, R166): the job stands in the table with its reservation and its bound,
and a capture or stream of its ring and TAG joins the record store on the payload's input, due at its first word at least
2 µs later, with nothing stored. Of the rest only register words, the output record and the host interface change. -/
def Obligations.CapturesAndStreamsAreOpened : Prop :=
  ∀ (s : State) (j : Job) (d : Demand) (rd rh b : Nat) (dur : Option Nat) (chans : List (Nat × Nat)),
    (Decides s j 0x01 → s.judge j (s.armPlan j) = .granted d rd rh b dur chans →
      ∃ t k, Sys2Proof.Machine.exec .captureArm s = .next t ∧
        t = { s with regs := t.regs, out := t.out, host := t.host, record := t.record } ∧
        t.record = { s.record with capts := s.record.capts ++ [k] } ∧
        t.job? j.jid = some (admittedAs s j d rd rh b dur) ∧
        k.jid = j.jid ∧ k.sq = j.sq ∧ k.tag = j.tag ∧ k.input = j.bits 8 1 1 0 ∧ k.shape = j.bits 9 1 1 0 ∧
        k.unit = j.bits 9 1 6 4 ∧ k.pre = j.fld 16 6 ∧ k.post = j.fld 24 6 ∧ k.n = j.fld 32 3 + 1 ∧
        k.due = s.devTime + 131072000 ∧ k.words = [] ∧ k.table = [] ∧ k.ended = false ∧ k.armed = none) ∧
    (Decides s j 0x03 → s.judge j (s.openPlan j) = .granted d rd rh b dur chans →
      ∃ t k, Sys2Proof.Machine.exec .streamOpen s = .next t ∧
        t = { s with regs := t.regs, out := t.out, host := t.host, record := t.record } ∧
        t.record = { s.record with capts := s.record.capts ++ [k] } ∧
        t.job? j.jid = some (admittedAs s j d rd rh b dur) ∧
        k.jid = j.jid ∧ k.sq = j.sq ∧ k.tag = j.tag ∧ k.isStream = true ∧ k.input = j.bits 8 1 1 0 ∧
        k.mode = j.bits 9 1 2 0 ∧ k.limit = j.fld 16 4 ∧ k.due = s.devTime + 131072000 ∧ k.words = [] ∧ k.ended = false)

/-- STREAM_CLOSE with STOP, admitted (R167): the target takes its stop time and the job that stops it, and holds its data or
not as RELEASE says; every other capture is unchanged. -/
def Obligations.StreamCloseSetsTheStop : Prop :=
  ∀ (s : State) (j : Job) (k : Capt) (d : Demand) (rd rh b : Nat) (dur : Option Nat) (chans : List (Nat × Nat)),
    Decides s j 0x04 → s.judge j (s.closePlan j) = .granted d rd rh b dur chans →
    s.captOf (j.bits 10 1 5 0) (j.fld 8 2) = some k → j.bits 11 1 0 0 = 1 →
    ∃ t, Sys2Proof.Machine.exec .streamClose s = .next t ∧
      t = { s with regs := t.regs, out := t.out, host := t.host, record := t.record } ∧
      t.record = { s.record with capts := s.record.capts.map (fun x => if x.jid = k.jid then
        { x with stopAt := some (j.fld 16 8), stopJid := j.jid, release := x.release || decide (j.bits 11 1 1 1 = 1) }
        else x) } ∧
      HoldsJob t j.jid d b

/-- SEGMENT_READ of entries of a capture, or of a range of a stream, that are not yet written, admitted with no other read in
flight (R65, R168, R169): the read joins those that wait, and the record store is otherwise unchanged. -/
def Obligations.SegmentReadWaitsForItsEntries : Prop :=
  ∀ (s : State) (j : Job) (k : Capt) (d : Demand) (rd rh b : Nat) (dur : Option Nat) (chans : List (Nat × Nat)),
    Decides s j 0x02 → s.judge j (s.readPlan j) = .granted d rd rh b dur chans → dur ≠ some 0 →
    s.captOf (j.bits 10 1 5 0) (j.fld 8 2) = some k → s.capt? k.jid = some k → s.record.reads = [] → k.ended = false →
    j.bits 1 1 2 2 = 0 → k.nextEnt ≤ j.fld 16 8 → 0 < j.fld 24 8 →
    ∃ t r, Sys2Proof.Machine.exec .segmentRead s = .next t ∧
      t = { s with regs := t.regs, out := t.out, host := t.host, record := t.record } ∧
      t.record = { s.record with reads := [r] } ∧ HoldsJob t j.jid d b ∧
      r.jid = j.jid ∧ r.cap = k.jid ∧ r.fmt = j.bits 1 1 1 0 ∧ r.range = false ∧ r.next = j.fld 16 8 ∧
      r.last = j.fld 16 8 + j.fld 24 8 ∧ r.dataAt = j.fld 32 8 ∧ r.tableAt = j.fld 48 8 ∧ r.mapAt = j.fld 56 8 ∧
      r.queued = false

/-- AFTERGLOW_READ of an instant to come, and AFTERGLOW_CLEAR without a mask, admitted (R182, R183, R185, R186): the read joins
the reads of its input with its snapshot instant, no earlier than the next SCLK boundary; the clear is pending on its
input, due 2 µs later. -/
def Obligations.AfterglowReadsAndClearsAreSet : Prop :=
  ∀ (s : State) (j : Job) (d : Demand) (rd rh b : Nat) (dur : Option Nat) (chans : List (Nat × Nat)),
    (Decides s j 0x05 → s.judge j (s.agReadPlan j) = .granted d rd rh b dur chans →
      s.devTime < s.fullTime (j.fld 16 8) → s.record.agReads = [] →
      ∃ t r, Sys2Proof.Machine.exec .afterglowRead s = .next t ∧
        t = { s with regs := t.regs, out := t.out, host := t.host, record := t.record } ∧
        t.record = { s.record with agReads := [r] } ∧ t.job? j.jid = some (admittedAs s j d rd rh b dur) ∧
        r.jid = j.jid ∧ r.what = j.bits 9 1 1 0 ∧ r.ts = max s.boundary (s.fullTime (j.fld 16 8)) ∧
        t.rd F.AFTERGLOW_CHn_STAT_READING (j.bits 8 1 1 0) = 1) ∧
    (Decides s j 0x06 → s.judge j (s.agClearPlan j) = .granted d rd rh b dur chans → j.bits 9 1 4 4 = 0 →
      ∃ t, Sys2Proof.Machine.exec .afterglowClear s = .next t ∧
        t = { s with regs := t.regs, out := t.out, host := t.host, record := t.record } ∧
        t.record = { s.record with ag := t.record.ag } ∧
        t.ag (j.bits 8 1 1 0) = { s.ag (j.bits 8 1 1 0) with
          clear := some { jid := j.jid, what := j.fld 9 1, due := some (s.devTime + 131072000) } } ∧
        (∀ n, n ≠ j.bits 8 1 1 0 → t.ag n = s.ag n) ∧ HoldsJob t j.jid d b ∧
        t.rd F.AFTERGLOW_CHn_STAT_CLEAR_PENDING (j.bits 8 1 1 0) = 1)

/-- The fibre jobs, admitted (R201, R227, R247). FIBRE_VIB_RUN: the fibre's run stands, fresh, and its Beacon output plays the
bank from the start time; FIBRE_TEMP_RUN: the instance's run stands; each shows its ring and TAG and RUNNING. BEACON_LOAD: the
load stands, with the waveform's place and length. -/
def Obligations.FibreJobsStart : Prop :=
  ∀ (s : State) (j : Job) (d : Demand) (rd rh b : Nat) (dur : Option Nat) (chans : List (Nat × Nat)) (setup : Option Bytes),
    (Decides s j 0x10 → s.judge j (s.vibPlan setup j) = .granted d rd rh b dur chans →
      let f := j.bits 8 1 0 0
      ∃ t r p, Sys2Proof.Machine.exec (.fibreVibRun setup) s = .next t ∧
        t = { s with regs := t.regs, out := t.out, host := t.host, fibre := t.fibre } ∧
        t.fibre = { s.fibre with glims := t.fibre.glims, beacons := t.fibre.beacons } ∧
        kget t.fibre.glims f none = some r ∧ r.jid = j.jid ∧ r.sq = j.sq ∧ r.tag = j.tag ∧ r.n = 0 ∧ r.c0 = none ∧
        (∀ g, g ≠ f → kget t.fibre.glims g none = kget s.fibre.glims g none) ∧
        (t.bcn f).play = some p ∧ p.owner = j.jid ∧ p.t0 = s.tStart (j.fld 24 8) ∧
        (∀ g, g ≠ f → t.bcn g = s.bcn g) ∧ t.job? j.jid = some (admittedAs s j d rd rh b dur) ∧
        t.rd F.GLIMMER_Ff_STAT_RUNNING f = 1 ∧ t.rd F.GLIMMER_Ff_JOB_TAG f = j.tag) ∧
    (Decides s j 0x11 → s.judge j (s.ftPlan setup j) = .granted d rd rh b dur chans →
      let i := j.bits 8 1 0 0
      ∃ t r, Sys2Proof.Machine.exec (.fibreTempRun setup) s = .next t ∧
        t = { s with regs := t.regs, out := t.out, host := t.host, fibre := t.fibre } ∧
        t.fibre = { s.fibre with fts := t.fibre.fts, beacons := t.fibre.beacons } ∧
        kget t.fibre.fts i none = some r ∧ r.jid = j.jid ∧ r.sq = j.sq ∧ r.tag = j.tag ∧
        r.cfg.start = s.tStart (j.fld 24 8) ∧ r.k = 0 ∧
        (∀ g, g ≠ i → kget t.fibre.fts g none = kget s.fibre.fts g none) ∧ (∀ g, g ≠ i → t.bcn g = s.bcn g) ∧
        t.job? j.jid = some (admittedAs s j d rd rh b dur) ∧
        t.rd F.FTEMP_In_STAT_RUNNING i = 1 ∧ t.rd F.FTEMP_In_JOB_TAG i = j.tag) ∧
    (Decides s j 0x12 → s.judge j (s.beaconPlan j) = .granted d rd rh b dur chans →
      ∃ t l, Sys2Proof.Machine.exec .beaconLoad s = .next t ∧
        t = { s with regs := t.regs, out := t.out, host := t.host, fibre := t.fibre } ∧
        t.fibre = { s.fibre with loads := s.fibre.loads ++ [l] } ∧ HoldsJob t j.jid d b ∧
        l.jid = j.jid ∧ l.out = j.bits 8 1 0 0 ∧ l.bank = j.bits 8 1 1 1 ∧ l.first = j.fld 24 4 ∧ l.count = j.fld 28 4 ∧
        l.done = 0)

/-- GLINT_MEASURE, admitted (R257, R258, R274): the group's run stands and arms 2 µs later or at its start time, whichever is
later; the group shows RUNNING. -/
def Obligations.GlintMeasureStandsByItsGroup : Prop :=
  ∀ (s : State) (j : Job) (d : Demand) (rd rh b : Nat) (dur : Option Nat) (chans : List (Nat × Nat)) (setup : Option Bytes),
    Decides s j 0x20 → s.judge j (s.glPlan setup j) = .granted d rd rh b dur chans →
    ∃ t r, Sys2Proof.Machine.exec (.glintMeasure setup) s = .next t ∧
      t = { s with regs := t.regs, out := t.out, host := t.host, glint := t.glint } ∧
      t.glint = { s.glint with runs := s.glint.runs ++ [r] } ∧ t.job? j.jid = some (admittedAs s j d rd rh b dur) ∧
      r.jid = j.jid ∧ r.sq = j.sq ∧ r.tag = j.tag ∧ r.group = j.bits 8 1 4 0 ∧
      r.armAt = (let st := fieldAt (setup.getD []) 32 8
        max (s.devTime + 131072000) (if st = 0 then 0 else s.devTime / 2 ^ 64 * 2 ^ 64 + st))

/-- TILE_LOAD without retained pages and TILE_RUN without a pool window, admitted (R313, R316): the load's job stands with its
pickup as anchor; the run stands, and each of its tiles is its unit's, live at the image's entry, with its fault cleared. -/
def Obligations.TileJobsStart : Prop :=
  ∀ (s : State) (j : Job) (d : Demand) (rd rh b : Nat) (dur : Option Nat) (chans : List (Nat × Nat)) (setup : Option Bytes),
    (Decides s j 0x30 → s.judge j (s.loadPlan j) = .granted d rd rh b dur chans → j.retainPages = 0 →
      ∃ t k, Sys2Proof.Machine.exec .tileLoad s = .next t ∧
        t = { s with regs := t.regs, out := t.out, host := t.host } ∧ t.job? j.jid = some k ∧ k.admitted = true ∧
        k.demand = d ∧ k.bound = b ∧ k.anchor = some j.pickup) ∧
    (Decides s j 0x31 → s.judge j (s.runPlan setup j) = .granted d rd rh b dur chans →
      let r := runCfg j (setup.getD []) 0
      r.poolSize = 0 → j.bits 9 1 6 4 = 0 → 0 < r.g →
      ∃ t, Sys2Proof.Machine.exec (.tileRun setup) s = .next t ∧
        t = { s with regs := t.regs, out := t.out, host := t.host, lumen := t.lumen } ∧
        t.lumen = { s.lumen with runs := s.lumen.runs ++ [{ r with poolBase := 0 }], tiles := t.lumen.tiles } ∧
        HoldsJob t j.jid d b ∧
        (∀ n, r.first ≤ n → n < r.first + r.nt → (t.tile n).run = j.jid ∧ (t.tile n).lead = n / r.g * r.g ∧
          (t.tile n).live = true ∧ (t.tile n).pc = (s.tile n).entry ∧ (t.tile n).cyc = 0) ∧
        (∀ n, (n < r.first ∨ r.first + r.nt ≤ n) → t.tile n = s.tile n))

/-- MOVE of host memory or the pool, and LEDGER_READ, admitted (R352, R448): the job ends with its last element, its anchor is
its pickup, and a LEDGER_READ already carries the life and the count of burnt bits as its DETAIL. -/
def Obligations.MoverJobsStart : Prop :=
  ∀ (s : State) (j : Job) (d : Demand) (rd rh b : Nat) (dur : Option Nat) (chans : List (Nat × Nat)) (list : Option Bytes),
    (Decides s j 0x40 → s.judge j (s.movePlan list j) = .granted d rd rh b dur chans → j.srcSpace ≠ 2 →
      ∃ t k, Sys2Proof.Machine.exec (.move list) s = .next t ∧
        t = { s with regs := t.regs, out := t.out, host := t.host } ∧ t.job? j.jid = some k ∧ k.admitted = true ∧
        k.demand = d ∧ k.bound = b ∧ k.autoEnd = true ∧ k.anchor = some j.pickup) ∧
    (Decides s j 0x71 → s.judge j (s.ledgerPlan j) = .granted d rd rh b dur chans →
      ∃ t k, Sys2Proof.Machine.exec .ledgerRead s = .next t ∧
        t = { s with regs := t.regs, out := t.out, host := t.host } ∧ t.job? j.jid = some k ∧ k.admitted = true ∧
        k.demand = d ∧ k.bound = b ∧ k.autoEnd = true ∧ k.detail = s.life * 2 ^ 16 + countP (·.2) s.ledger.otp)

/-- AMU_SEQUENCE, AMU_INJECT with the conversion slot empty, CALIBRATE with the slot empty, and ARRAY_ALIGN, admitted (R99, R395,
R415, R418): the sequence stands, its first pass due 2 µs later; the conversion takes the slot; the calibration stands with
its channels in ascending order and asks for the source level; the alignment stands with its instant. -/
def Obligations.MeasurementJobsStart : Prop :=
  ∀ (s : State) (j : Job) (d : Demand) (rd rh b : Nat) (dur : Option Nat) (chans : List (Nat × Nat)),
    (∀ table, Decides s j 0x50 → s.judge j (s.amuSeqPlan table j) = .granted d rd rh b dur chans →
      ∃ t q, Sys2Proof.Machine.exec (.amuSequence table) s = .next t ∧
        t = { s with regs := t.regs, out := t.out, host := t.host, amu := t.amu } ∧
        t.amu = { s.amu with seq := some q, outputsOff := false } ∧ t.job? j.jid = some (admittedAs s j d rd rh b dur) ∧
        q.jid = j.jid ∧ q.passes = j.fld 36 4 ∧ q.resAddr = j.fld 24 8 ∧ q.start = s.phys + 131072000 ∧
        q.entries.length = j.bits 8 1 4 0 ∧ t.rd F.AMU_STAT_SEQ_RUNNING = 1) ∧
    (Decides s j 0x51 → s.judge j (s.amuInjPlan j) = .granted d rd rh b dur chans → s.amu.slot = none →
      s.amu.waitCal = [] →
      ∃ t i, Sys2Proof.Machine.exec .amuInject s = .next t ∧
        t = { s with regs := t.regs, out := t.out, host := t.host, amu := t.amu } ∧
        t.amu = { s.amu with slot := some i, waitHost := none, jumped := false } ∧
        t.job? j.jid = some (admittedAs s j d rd rh b dur) ∧ i.jid = j.jid ∧ i.cal = false) ∧
    (Decides s j 0x60 → s.judge j (s.calPlan j) = .granted d rd rh b dur chans → s.amu.slot = none → s.amu.waitCal = [] →
      s.amu.waitHost = none →
      ∃ t i, Sys2Proof.Machine.exec .calibrate s = .next t ∧
        t = { s with regs := t.regs, out := t.out, host := t.host, amu := t.amu, prism := t.prism } ∧
        t.prism = { s.prism with cal := s.prism.cal ++ [{ jid := j.jid, keepOnFail := decide (j.bits 9 1 0 0 = 1)
                                                          mask := j.bits 8 1 3 0, todo := maskList (j.bits 8 1 3 0) }] } ∧
        t.amu = { s.amu with slot := some i, waitCal := [], jumped := false } ∧ i.jid = j.jid ∧ i.cal = true ∧
        HoldsJob t j.jid d b) ∧
    (∀ devs : Fin 33, Decides s j 0x61 → s.judge j (s.alignPlan devs j) = .granted d rd rh b dur chans →
      ∃ t, Sys2Proof.Machine.exec (.arrayAlign devs) s = .next t ∧
        t = { s with regs := t.regs, out := t.out, host := t.host, clk := t.clk } ∧
        t.clk = { s.clk with align := some { jid := j.jid, t := s.alignTime j, devs := s.arraySize devs } } ∧
        HoldsJob t j.jid d b)

/-- ABORT of one TAG that names a job still in the fetch window (R68, R69, R70): the job ends with ABORTED in both of its records,
and the ABORT's own final record waits for the job's, with one job counted. Here their completion ring is closed, so that the
ABORT's admission record and the job's two records are held in that order (R55, R67). -/
def Obligations.AbortEndsAWaitingJob : Prop :=
  ∀ (s : State) (a x : Job), Decides s a 0x7F → s.host.jobs = [x, a] → x.decided = false → x.ending = false →
    x.jid ≠ a.jid → x.kind ≠ 0x7F → x.sq = a.bits 10 1 5 0 → x.tag = a.fld 8 2 → a.bits 11 1 0 0 = 0 → a.cq = x.cq → a.waits = [] →
    s.headerBad a = false → a.kflags = 0 → payloadOnly a.desc [(8, 15, 0), (10, 5, 0), (11, 0, 0)] = true →
    s.cqOpen a.cq = false → s.host.chans = [] → a.ending = false → a.finalSent = false → a.zeroRead = false →
    a.secondary = false →
    ∃ t r1 r2 r3, Sys2Proof.Machine.exec .abort s = .next t ∧
      (t.cq a.cq).held = (s.cq a.cq).held ++ [r1, r2, r3] ∧
      r1.jid = a.jid ∧ r1.final = false ∧ r1.status = 0 ∧ r1.boundUs = 42 ∧
      r2.jid = x.jid ∧ r2.final = false ∧ r2.status = 0x10 ∧ r3.jid = x.jid ∧ r3.final = true ∧ r3.status = 0x10 ∧
      ∃ k, t.job? a.jid = some k ∧ k.admitted = true ∧ k.waits = [x.jid] ∧ k.detail = 1 ∧ k.finalSent = false

/-! ### Prism (R79-R102) -/

/-- Set-up of a channel. A commit that is accepted and changes ENABLE, RATE or PAIR waits 2 µs from the next SCLK boundary
(R79); applied, its configuration is active from the first word boundary at or after that, with word index 0; a range or trim
change becomes active with its RANGE_CNT and RANGE_STAMP, for a disabled channel at the first SCLK boundary at least 64 ns
after the commit, else at the application word (R87, R89). Other channels keep their set-up. -/
def Obligations.PrismSetUpTakesEffect : Prop :=
  ∀ (s : State) (n : Fin 4), s.dead = false →
    (∀ v : Word, v.getLsbD 0 = true → s.pairedOdd n = false →
      let pair := if n.val % 2 = 0 then s.rd F.PRISM_CHn_CTRL_PAIR n else 0
      let cfg := (s.rd F.PRISM_CHn_CTRL_ENABLE n, s.rd F.PRISM_CHn_CTRL_RATE n, pair)
      cfg ≠ s.cfgOf n → s.owned n = false → ((pair = 1 ∨ (s.cfgOf n).2.2 = 1) → s.owned (n + 1) = false) →
      cfg.2.1 ≠ 7 → (pair = 1 → cfg.2.1 = 0) → s.floorWith n cfg + s.jobPower ≤ 2150 →
      ∃ t, Sys2Proof.Machine.exec (.prismCommit n v) s = .next t ∧
        t = { s with regs := t.regs, act := t.act, prism := t.prism } ∧
        KeepsWords s t [0x40000C + 0x10000 * n.val] ∧
        (t.ch n).cfgPend = some ⟨cfg.1, cfg.2.1, pair, s.boundary + 131072000⟩ ∧ (t.ch n).nextT = (s.ch n).nextT ∧
        (∀ m, m ≠ n.val → t.ch m = s.ch m) ∧ t.cfgOf n = s.cfgOf n) ∧
    (∀ c : CfgReq, (s.ch n).cfgPend = some c → c.enable < 2 → c.rate < 8 → c.pair < 2 →
      ∃ t, Sys2Proof.Machine.exec (.prismConfigApply n) s = .next t ∧
        t.ract F.PRISM_CHn_CTRL_ENABLE n = c.enable ∧ t.ract F.PRISM_CHn_CTRL_RATE n = c.rate ∧
        t.ract F.PRISM_CHn_CTRL_PAIR n = c.pair ∧ (t.ch n).cfgPend = none ∧ (t.ch n).nextT = s.gridFrom n c.due ∧
        (t.ch n).idx = 0 ∧ (t.ch n).converged = false ∧ t.rd F.PRISM_CHn_STAT_BG_CONVERGED n = 0 ∧
        (∀ m, m ≠ n.val → t.ch m = s.ch m) ∧ t.host.jobs = s.host.jobs) ∧
    (∀ p : RangeReq, (s.ch n).rangePend = some p → p.range < 4 → p.fine < 4096 → p.offset < 16384 →
      s.pairedOdd n = false →
      ((s.chOn n = false ∧ p.withEnable = false) ∨ (s.wordsOn n && !s.cfgDue n && s.rangeDue n) = true) →
      let at' := if s.chOn n then (s.ch n).nextT else roundUp p.due 32768
      let u := s.toDev at'
      ∃ t, Sys2Proof.Machine.exec (.rangeChangeApply n) s = .next t ∧
        t = { u with regs := t.regs, act := t.act, prism := t.prism } ∧
        t.ract F.PRISM_CHn_CTRL_RANGE n = p.range ∧ t.ract F.PRISM_CHn_TRIM_FINE_GAIN n = p.fine ∧
        t.ract F.PRISM_CHn_TRIM_OFFSET n = p.offset ∧ (t.ch n).rangePend = none ∧
        (t.ch n).settleEnd = (if s.chOn n then at' + 393216 else (s.ch n).settleEnd) ∧
        t.rd F.PRISM_CHn_RANGE_CNT_COUNT n = min (u.rd F.PRISM_CHn_RANGE_CNT_COUNT n + 1) 0xFFFFFFFF ∧
        t.rd64 F.PRISM_CHn_RANGE_STAMP_LO_STAMP F.PRISM_CHn_RANGE_STAMP_HI_STAMP n = at' % 2 ^ 64 ∧
        (∀ m, m ≠ n.val → t.ch m = s.ch m))

/-- Words and calibration. The next word of a converting channel advances its index by one and its grid by one word interval,
and a clipped sample outside an overrange event sets OVR and counts the event (R21, R83); a background update that can be
made counts, is stamped with the word it applies at and takes a new coefficient set (R93); 1 s without an accumulated word
sets CAL_STALE (R92); a channel's foreground calibration sets CAL_VALID or CAL_FAIL and the channel reconnects (R99). -/
def Obligations.PrismWordsAndCalibration : Prop :=
  ∀ (s : State) (n : Fin 4), s.dead = false →
    (∀ (volts : List Int) (own nbr : List (Nat × Bool)) (par : Bool) (cols : List (Fin 4096)),
      (s.wordsOn n && !s.cfgDue n && !s.rangeDue n) = true →
      ∃ t, Sys2Proof.Machine.exec (.prismWord n volts own nbr par cols) s = .next t ∧
        (t.ch n).idx = (s.ch n).idx + 1 ∧
        (t.ch n).nextT = byCycles (s.ch n).shift ((s.ch n).nextT + s.span n) ∧ (t.ch n).shift = 0 ∧
        (t.ch n).cfgPend = (s.ch n).cfgPend ∧ (t.ch n).rangePend = (s.ch n).rangePend ∧ (t.ch n).sets = (s.ch n).sets ∧
        (∀ m, m ≠ n.val → t.ch m = s.ch m) ∧ (∀ m, t.cfgOf m = s.cfgOf m) ∧
        ((s.ch n).ovrFirst = none → (∃ i : Fin 64, codeOf (volts.getD i 0) (s.ract F.PRISM_CHn_CTRL_RANGE n)
            (s.ract F.PRISM_CHn_TRIM_FINE_GAIN n) (s.ract F.PRISM_CHn_TRIM_OFFSET n) ∈ [(-512 : Int), 511]) →
          t.rd F.PRISM_CHn_STAT_OVR n = 1 ∧
          t.rd F.PRISM_CHn_OVR_CNT_COUNT n = min (s.rd F.PRISM_CHn_OVR_CNT_COUNT n + 1) 0xFFFFFFFF)) ∧
    (∀ offset gain bw skew : Fin 256, s.running = true → s.chOn n = true → s.pairedOdd n = false →
      s.rd F.PRISM_CHn_CAL_CTRL_BG_EN n = 1 → s.flag F.PRISM_CHn_STAT_CALIBRATING n = false →
      s.rd F.PRISM_CHn_CAL_CTRL_FREEZE n = 0 → s.host.frozen = false → s.clk.lossT = none →
      let i := roundUp (max s.devTime ((s.ch n).calAt + 1)) 655360000000
      (s.ch n).settleEnd ≤ s.gridFrom n i →
      let ok := decide (offset.val ≤ 10 ∧ gain.val ≤ 10 ∧ bw.val ≤ 5 ∧ skew.val ≤ 8)
      let u := s.toDev i
      ∃ t, Sys2Proof.Machine.exec (.calUpdate n offset gain bw skew true) s = .next t ∧
        t = { u with regs := t.regs, prism := t.prism } ∧
        t.ch n = { s.ch n with calAt := i, sets := (s.ch n).sets.map (· + 1), converged := (s.ch n).converged || ok } ∧
        (∀ m, m ≠ n.val → t.ch m = s.ch m) ∧ t.rd F.PRISM_CHn_STAT_BG_CONVERGED n = b2n ok ∧
        t.rd F.PRISM_CHn_CAL_RESID_OFFSET n = offset ∧ t.rd F.PRISM_CHn_CAL_RESID_SKEW n = skew ∧
        t.rd F.PRISM_CHn_STAT_CAL_STALE n = 0 ∧
        t.rd F.PRISM_CHn_CAL_UPD_CNT_COUNT n = min (u.rd F.PRISM_CHn_CAL_UPD_CNT_COUNT n + 1) 0xFFFFFFFF ∧
        t.rd64 F.PRISM_CHn_CAL_UPD_STAMP_LO_STAMP F.PRISM_CHn_CAL_UPD_STAMP_HI_STAMP n = s.gridFrom n i % 2 ^ 64) ∧
    (s.chOn n = true → s.rd F.PRISM_CHn_CAL_CTRL_BG_EN n = 1 →
      let u := s.toDev ((match (s.ch n).lastAcc with
        | some t => max t (s.ch n).bgSince | none => (s.ch n).bgSince) + 65536000000000)
      ∃ t, Sys2Proof.Machine.exec (.calStaleTimeout n) s = .next t ∧ t = { u with regs := t.regs } ∧
        KeepsWords u t [0x400010 + 0x10000 * n.val] ∧ t.rd F.PRISM_CHn_STAT_CAL_STALE n = 1) ∧
    (∀ (pass : Bool) (temp : Int) (offset gain skew bw : Fin 65536) (ot st : Int) (r : CalRun) (rest : List Nat),
      s.prism.cal = [r] → r.level.isSome = true → r.todo = n.val :: rest →
      ∃ t, Sys2Proof.Machine.exec (.calibrateChannelDone pass temp offset gain skew bw ot st) s = .next t ∧
        t.rd F.PRISM_CHn_STAT_CAL_FAIL n = b2n (!pass) ∧
        t.rd F.PRISM_CHn_STAT_CAL_VALID n =
          (if pass then 1 else if r.keepOnFail then s.rd F.PRISM_CHn_STAT_CAL_VALID n else 0) ∧
        (t.ch n).sets = (if pass ∨ r.keepOnFail = false then
          (if pass then (s.ch n).sets.map (· + 1) else (s.ch n).sets) else (s.ch n).oldSets) ∧
        (rest = [] → t.prism.cal = []) ∧
        (∀ m l, rest = m :: l → t.rd F.PRISM_CHn_STAT_CALIBRATING m = 1 ∧ ∃ q, t.prism.cal = [q] ∧ q.todo = rest ∧
          (if pass then q.passed = r.passed ++ [n.val] else q.failed = r.failed ++ [n.val]) ∧
          q.report.length = r.report.length + 64))

/-! ### Lantern (R105-R130) -/

/-- Lantern's set-up and inputs. A commit of valid settings waits for the first SCLK boundary at least 64 ns later and shows
PENDING; of an invalid set-up it names the offender and changes nothing else (R129, R130). Applied, the snapshot of the
commit is the active set-up. A TRIGIN edge sets its source's level and leaves every other (R108); a timeout or a duration that
expires is no longer due (R112); a sequence whose next stage does not come in time resets (R118). -/
def Obligations.LanternTakesSetUpAndEdges : Prop :=
  ∀ s : State, s.dead = false →
    (∀ v : Word, v.getLsbD 0 = true → (s.shadow lanLo lanHi == lastPend s.lan.pend (s.active lanLo lanHi)) = false →
      (lanternOffender (s.shadow lanLo lanHi) = none →
        ∃ t, Sys2Proof.Machine.exec (.lanternCommit v) s = .next t ∧ t = { s with regs := t.regs, lan := t.lan } ∧
          t.lan = { s.lan with pend := addPend s.lan.pend (roundUp (s.devTime + 4194304) 32768) (s.shadow lanLo lanHi) } ∧
          KeepsWords s t [0x800004] ∧ t.rd F.LANTERN_COMMIT_STAT_PENDING = 1) ∧
      (∀ c : Nat, c < 32 → lanternOffender (s.shadow lanLo lanHi) = some c →
        ∃ t, Sys2Proof.Machine.exec (.lanternCommit v) s = .next t ∧ t = { s with regs := t.regs } ∧
          KeepsWords s t [0x800004] ∧ t.rd F.LANTERN_COMMIT_STAT_REJ_INVALID = 1 ∧
          t.rd F.LANTERN_COMMIT_STAT_REJ_WHERE = c)) ∧
    (∀ p : PendCommit, s.lan.pend = some p →
      ∃ t, Sys2Proof.Machine.exec .lanternCommitApply s = .next t ∧ t.lan.pend = p.after ∧ t.lan.applyT = p.due ∧
        t.act = (s.applyShadow lanLo lanHi p.snap).act ∧ t.rd F.LANTERN_COMMIT_STAT_PENDING = b2n p.after.isSome ∧
        (∀ c : Fin 16, condUsed t.act c = false → t.cond c = {}) ∧
        t = { s.toDev p.due with regs := t.regs, act := t.act, out := t.out, lan := t.lan }) ∧
    (∀ (p : Fin 2) (rise : Bool) (t : Nat), s.running = true →
      ∃ r, Sys2Proof.Machine.exec (.triginEdge p rise t) s = .next r ∧ kget r.lan.levels (256 + p.val) false = rise ∧
        (∀ i, i ≠ 256 + p.val → kget r.lan.levels i false = kget s.lan.levels i false) ∧
        r = { s.toDev t with regs := r.regs, out := r.out, lan := r.lan }) ∧
    (∀ (c : Fin 16) (d : Nat), (srcOf (condCfg s.act c).src).level?.isSome = true → (s.cond c).due = some d →
      condUsed s.act c = true → (∀ k : Fin 16, (s.cond k).dirty = none) →
      ∃ r, Sys2Proof.Machine.exec (.lanternTimeout c) s = .next r ∧ r.cond c = { s.cond c with due := none } ∧
        (∀ k : Fin 16, k ≠ c → r.cond k = s.cond k) ∧ r.lan.levels = s.lan.levels ∧
        r = { s.toDev d with regs := r.regs, out := r.out, lan := r.lan }) ∧
    (∀ u : Fin 8, (s.unit u).stage ≠ 0 → s.lan.unitAct.rd F.LANTERN_UNITu_SEQ_TMAX_T u 0 ≠ 0 → s.lan.queue = [] →
      (∀ k : Fin 16, (s.cond k).dirty = none) →
      let e := (s.unit u).stageT + s.lan.unitAct.rd F.LANTERN_UNITu_SEQ_TMAX_T u 0 * 256
      let v := s.toDev e
      e < v.lanHorizon.getD v.lanEnd →
      ∃ r, Sys2Proof.Machine.exec (.sequenceTimeout u) s = .next r ∧ r = { v with lan := r.lan } ∧
        r.unit u = { s.unit u with stage := 0 } ∧ (∀ w : Fin 8, w ≠ u → r.unit w = s.unit w))

/-- Marks and lines. A mark that the queue can take carries the unit's number and the count of marks lost before it, and
MARK_CNT counts it (R121, R123); with EXPORT_EN it goes out on its line with its time, unless it follows the previous export
there by less than 8 ns, which EXPORT_DROP_CNT counts (R127). The oldest mark of a unit's queue leaves it and joins the
captures that listen to the unit (R121, R122). A line event reaches an enabled line; without alignment it sets NO_ALIGN on the units that use
it, and within 8 ns of the last it counts in LINE_DROP_CNT (R128). CLOCK_HOLD_END ends the hold of Lantern and Glint (R125). -/
def Obligations.LanternMarksAndLines : Prop :=
  ∀ s : State, s.dead = false →
    (∀ (u : Fin 8) (e : LEv) (w : Nat), (s.unit u).queue.length < 1024 →
      let l := s.lan.unitAct.rd F.LANTERN_UNITu_CTRL_EXPORT_LINE u 0
      let en := s.lan.unitAct.rd F.LANTERN_UNITu_CTRL_EXPORT_EN u 0
      let last := kget s.lan.lastExport l 0
      let t := s.issueMark u e w
      t = { s with regs := t.regs, out := t.out, lan := t.lan } ∧
      (∃ m : Mark, (t.unit u).queue = (s.unit u).queue ++ [m] ∧ m.stamp = e.t ∧ m.number = (s.unit u).number ∧
        m.lost = min (s.unit u).lost 0xFFFF ∧ m.cond = e.cond ∧ m.unit = u.val ∧ m.flags < 64) ∧
      (t.unit u).lost = 0 ∧ (t.unit u).number = ((s.unit u).number + 1) % 2 ^ 32 ∧ (t.unit u).lastMark = e.t ∧
      (t.unit u).count = 0 ∧ (t.unit u).markWord = some w ∧ (∀ v : Fin 8, v ≠ u → t.unit v = s.unit v) ∧
      t.rd F.LANTERN_UNITu_MARK_CNT_COUNT u = min (s.rd F.LANTERN_UNITu_MARK_CNT_COUNT u + 1) 0xFFFFFFFF ∧
      (en = 0 → t.out = s.out) ∧
      (en ≠ 0 → (last = 0 ∨ last + 524288 ≤ e.t) →
        t.out = s.out ++ [.trigLine l (e.t % 2 ^ 64)] ∧ kget t.lan.lastExport l 0 = e.t) ∧
      (en ≠ 0 → last ≠ 0 → e.t < last + 524288 → t.out = s.out ∧
        t.rd F.LANTERN_EXPORT_DROP_CNT_COUNT = min (s.rd F.LANTERN_EXPORT_DROP_CNT_COUNT + 1) 0xFFFFFFFF)) ∧
    (∀ (u : Fin 8) (m : Mark) (q : List Mark), (s.unit u).queue = m :: q → s.lan.queue = [] →
      (∀ k : Fin 16, (s.cond k).dirty = none) → (∀ i : Fin 2, s.ft i = none) →
      ∃ t, Sys2Proof.Machine.exec (.markQueueDrain u) s = .next t ∧
        t = { s with lan := t.lan, record := t.record } ∧
        t.unit u = { s.unit u with queue := q } ∧ (∀ w : Fin 8, w ≠ u → t.unit w = s.unit w) ∧
        t.record = { s.record with capts := s.record.capts.map (fun (k : Capt) =>
          if !k.isStream && !k.ended && !k.hold && (k.unit = u.val || (k.shape = 3 && k.stopUnit = u.val)) then
            { k with inbox := k.inbox ++ [m] } else k) }) ∧
    (∀ (i : Fin 8) (e : Nat), s.running = true → s.record.sync = none → s.lan.holding = false →
      let v := s.toDev e
      let on := (s.ract F.LANTERN_IMPORT_LINE_EN).testBit i.val
      let last := kget s.lan.lastLine i 0
      ∃ t, Sys2Proof.Machine.exec (.lineEvent i e) s = .next t ∧ t.act = s.act ∧ t.lan.levels = s.lan.levels ∧
        t.host.jobs = s.host.jobs ∧
        (on = false → t = v) ∧
        (on = true → s.flag F.ERNOS_STAT_ALIGNED = false → t = { v with regs := t.regs } ∧
          ∀ u : Fin 8, t.rd F.LANTERN_UNITu_STAT_NO_ALIGN u =
            if unitOn s.act u && (unitConds s.act u).any (fun c => srcOf (condCfg s.act c).src == .tl i) then 1
            else s.rd F.LANTERN_UNITu_STAT_NO_ALIGN u) ∧
        (on = true → s.flag F.ERNOS_STAT_ALIGNED = true → last ≠ 0 → e < last + 524288 →
          t = { v with regs := t.regs } ∧
          t.rd F.LANTERN_LINE_DROP_CNT_COUNT = min (s.rd F.LANTERN_LINE_DROP_CNT_COUNT + 1) 0xFFFFFFFF) ∧
        (on = true → s.flag F.ERNOS_STAT_ALIGNED = true → (last = 0 ∨ last + 524288 ≤ e) →
          kget t.lan.lastLine i 0 = e ∧ ∀ k, k ≠ i.val → kget t.lan.lastLine k 0 = kget s.lan.lastLine k 0)) ∧
    (∀ e : Nat, s.clk.holdEnd = some e →
      ∃ t, Sys2Proof.Machine.exec .clockHoldEnd s = .next t ∧ t.clk = { s.clk with holdEnd := none } ∧
        t.lan.holding = false ∧ t.glint.holding = false ∧ t.prism = s.prism ∧ t.devTime = (s.toDev e).devTime)

/-! ### The record store (R134-R170) -/

/-- The life of a capture. It arms at the first word at least 2 µs after its admission (R137); a mark of its unit while armed is
declined, counted and kept for a gap entry where it comes too early (R141, R142), else accepted, and its window joins the open
ones; a mark of the stop unit closes an open gate, and until then the capture ignores other marks (R151); the oldest window whose last sample has passed Penumbra is written as one entry, and with the last of N the capture ends
(R145, R149); at the end of ARM_TIME it takes no further marks (R149); a gate that has taken LIMIT samples ends there (R151).
Other captures of other jobs are not touched by the arming. -/
def Obligations.CapturesTakeMarksAndWriteEntries : Prop :=
  ∀ (s : State) (sq : Fin 64) (tag : BitVec 16) (k : Capt), s.dead = false → s.captOf sq tag.toNat = some k →
    s.capt? k.jid = some k → k.isStream = false → k.ended = false → k.input < 4 →
    (k.armed = none →
      let e := s.gridFrom k.input k.due
      let u := s.toDev e
      ∃ t, Sys2Proof.Machine.exec (.captureArming sq tag) s = .next t ∧
        t = { u with regs := t.regs, record := t.record } ∧
        t.capt? k.jid = some { k with armed := some e, tat := e, nextG := 0 } ∧
        (∀ i, i ≠ k.jid → t.capt? i = s.capt? i)) ∧
    (∀ (m : Mark) (q : List Mark) (a : Nat), k.inbox = m :: q → k.armed = some a → a ≤ m.stamp → k.hold = false →
      (k.shape = 3 → k.gateOpen = false ∧ k.cut = false) → m.unit = k.unit → k.closed = false → (k.shape = 2 ∨ k.accepted < k.n) →
      ∃ t k', Sys2Proof.Machine.exec (.captureMark sq tag) s = .next t ∧ t.capt? k.jid = some k' ∧ k'.inbox = q ∧
        k'.armed = k.armed ∧ k'.anyLost = (k.anyLost || decide (m.lost ≠ 0)) ∧ t.devTime = s.devTime ∧ t.act = s.act ∧
        (m.stamp + k.burstL < k.tat →
          k'.accepted = k.accepted ∧ k'.tat = k.tat ∧ k'.wins = k.wins ∧ k'.anyDeclined = true ∧
          t.rd F.RECORD_CHn_STAT_DECLINED k.input = 1 ∧
          k'.gapOpen = some (match k.gapOpen with
            | some g => { g with last := m.stamp, declined := g.declined + 1, lost := g.lost + m.lost }
            | none => { mark := m, last := m.stamp, declined := 1, lost := m.lost })) ∧
        (k.tat ≤ m.stamp + k.burstL →
          k'.accepted = k.accepted + 1 ∧ k'.tat = max k.tat m.stamp + k.gap1 ∧ k'.wins.length = k.wins.length + 1 ∧
          k'.gapOpen = none ∧ k'.nextEnt = k.nextEnt + (if k.gapOpen.isSome then 1 else 0))) ∧
    (∀ (m : Mark) (q : List Mark) (a : Nat), k.inbox = m :: q → k.armed = some a → a ≤ m.stamp → k.hold = false →
      k.shape = 3 → k.gateOpen = true → m.unit = k.stopUnit → (∀ w ∈ k.wins, w.mark.stamp ≤ m.stamp) →
      ∃ t k', Sys2Proof.Machine.exec (.captureMark sq tag) s = .next t ∧ t.capt? k.jid = some k' ∧ k'.inbox = q ∧
        k'.accepted = k.accepted ∧ k'.tat = k.tat ∧ k'.wins.length = k.wins.length ∧ k'.gateOpen = false) ∧
    (∀ (m : Mark) (q : List Mark), k.inbox = m :: q → k.shape = 3 → (k.gateOpen = true ∨ k.cut = true) → m.unit ≠ k.stopUnit →
      ∃ t, Sys2Proof.Machine.exec (.captureMark sq tag) s = .next t ∧ t = { s with record := t.record } ∧
        t.capt? k.jid = some { k with inbox := q } ∧ ∀ i, i ≠ k.jid → t.capt? i = s.capt? i) ∧
    (∀ (w : Win) (ws : List Win) (e : Nat), k.wins = w :: ws → w.stop = some e → e ≤ 64 * (s.rch k.input).penN →
      k.gapOpen = none → k.closed = false → k.release = false →
      ∃ t k', Sys2Proof.Machine.exec (.windowClose sq tag) s = .next t ∧ t.capt? k.jid = some k' ∧ k'.segs = k.segs + 1 ∧
        k'.nextEnt = k.nextEnt + 1 ∧ k'.ended = decide (k.shape ≠ 2 ∧ k.n ≤ k.segs + 1) ∧ t.devTime = s.devTime ∧
        (k'.ended = false → k'.wins.length ≤ ws.length ∧ k'.closed = false)) ∧
    (∀ a, k.armed = some a → 0 < k.armTime → k.release = false →
      ∃ t k', Sys2Proof.Machine.exec (.armTimeExpiry sq tag) s = .next t ∧ t.capt? k.jid = some k' ∧ k'.closed = true ∧
        k'.ended = (k.wins.isEmpty || decide (k.shape ≠ 2 ∧ k.n ≤ k.segs)) ∧
        t.devTime = (s.toDev (a + k.armTime * 65536000)).devTime) ∧
    (∀ w : Win, k.shape = 3 → k.wins.find? (fun v => v.stop.isNone && v.trig.isSome) = some w →
      k.winEnd w ≤ 64 * (s.rch k.input).penN →
      ∃ t, Sys2Proof.Machine.exec (.gateLimit sq tag) s = .next t ∧ t = { s with record := t.record } ∧
        t.capt? k.jid = some { k with
          cut := k.cut || w.closing.isNone
          wins := k.wins.map (fun v =>
            if v.mark = w.mark then { v with stop := some (k.winEnd w), truncEnd := true } else v) } ∧
        ∀ i, i ≠ k.jid → t.capt? i = s.capt? i)

/-- Streams and SYNC. A stream starts at the first word at least 2 µs after its admission (R166) and, stopped, ends with its
stop time: it is held, or released where a STREAM_CLOSE said so (R167). RECORD_SYNC_GO requests a restart of the named
decimators at the first word of the lowest named input at least 64 ns later, or at a line event; applied, the request is gone,
its instant is in RECORD_SYNC_STAMP and RECORD_SYNC_CNT counts it (R158). -/
def Obligations.StreamsAndSyncRun : Prop :=
  ∀ s : State, s.dead = false →
    (∀ (sq : Fin 64) (tag : BitVec 16) (k : Capt), s.captOf sq tag.toNat = some k → s.capt? k.jid = some k →
      k.ended = false → k.isStream = true →
      (k.armed = none →
        let e := s.gridFrom k.input k.due
        let u := s.toDev e
        ∃ t, Sys2Proof.Machine.exec (.streamStart sq tag) s = .next t ∧
          t = { u with regs := t.regs, record := t.record } ∧ t.capt? k.jid = some { k with armed := some e } ∧
          (∀ i, i ≠ k.jid → t.capt? i = s.capt? i)) ∧
      (∀ e, k.stopAt = some e →
        ∃ t, Sys2Proof.Machine.exec (.streamStop sq tag) s = .next t ∧
          t.devTime = (s.toDev e).devTime ∧ t.act = s.act ∧
          (k.release = true → ∀ x ∈ t.record.capts, x.jid ≠ k.jid) ∧
          (k.release = false → ∃ k', t.capt? k.jid = some k' ∧ k'.ended = true ∧ k'.closed = true ∧ k'.wins = [] ∧
            (k.jid, { store0 := if k.input / 2 = 0 then k'.space else 0
                      store1 := if k.input / 2 = 0 then 0 else k'.space : Demand }) ∈ t.host.kept))) ∧
    (∀ v : Word, v.getLsbD 0 = true →
      ∃ t, Sys2Proof.Machine.exec (.recordSyncGo v) s = .next t ∧ t = { s with regs := t.regs, record := t.record } ∧
        KeepsWords s t [0xA00008] ∧ t.rd F.RECORD_SYNC_STAT_PENDING = 1 ∧
        t.record = { s.record with sync := some {
          mask := s.rd F.RECORD_SYNC_CTRL_CH_MASK, line := s.rd F.RECORD_SYNC_CTRL_LINE
          at' := if s.rd F.RECORD_SYNC_CTRL_SRC = 1 then none else some (s.gridFrom
            (((List.range 4).find? (fun n => (s.rd F.RECORD_SYNC_CTRL_CH_MASK).testBit n)).getD 0) (s.devTime + 4194304)) } }) ∧
    (∀ (r : SyncReq) (e : Nat), s.record.sync = some r → r.at' = some e →
      let u := s.toDev e
      ∃ t, Sys2Proof.Machine.exec .syncApply s = .next t ∧ t = { u with regs := t.regs, record := t.record } ∧
        t.record.sync = none ∧ t.record.capts = s.record.capts ∧
        (∀ n : Fin 4, (t.rch n).dec.syncAt = if r.mask.testBit n.val then some e else (s.rch n).dec.syncAt) ∧
        (∀ n : Fin 4, (t.rch n).pen = (s.rch n).pen ∧ (t.rch n).penN = (s.rch n).penN) ∧
        t.rd F.RECORD_SYNC_STAT_PENDING = 0 ∧
        t.rd64 F.RECORD_SYNC_STAMP_LO_T F.RECORD_SYNC_STAMP_HI_T = e % 2 ^ 64 ∧
        t.rd F.RECORD_SYNC_CNT_COUNT = min (u.rd F.RECORD_SYNC_CNT_COUNT + 1) 0xFFFFFFFF)

/-! ### Afterglow (R171-R189) -/

/-- Afterglow's set-up, sums and clears. A commit that changes no owned input's fields is active 64 ns after the next SCLK
boundary; one that does is refused whole (R172). The sum engine takes the next segment: complete and undamaged it joins the
current sum area, else it counts as skipped (R178, R179). At T_c, the first word that begins at or after both of its times, a
clear empties what its mask names and leaves the rest, with CLEAR_STAMP (R182, R183). A spoiled contribution is recomputed
from sound words and counted (R181). -/
def Obligations.AfterglowSetUpSumsAndClears : Prop :=
  ∀ s : State, s.dead = false →
    (∀ v : Word, v.getLsbD 0 = true → let base := lastPend s.record.agPend (s.active agLo agHi)
      s.shadow agLo agHi ≠ base →
      let hit := (List.range 4).any (fun n => s.owned n &&
        kget (s.shadow agLo agHi) (0xC01000 + 0x100 * n) 0 ≠ kget base (0xC01000 + 0x100 * n) 0)
      ∃ t, Sys2Proof.Machine.exec (.afterglowCommit v) s = .next t ∧ KeepsWords s t [0xC00004] ∧
        (hit = true → t = { s with regs := t.regs } ∧ t.rd F.AFTERGLOW_COMMIT_STAT_REJ_OWNED = 1) ∧
        (hit = false → t = { s with regs := t.regs, record := t.record } ∧ t.rd F.AFTERGLOW_COMMIT_STAT_PENDING = 1 ∧
          t.record = { s.record with agPend := addPend s.record.agPend (s.boundary + 4194304) (s.shadow agLo agHi) })) ∧
    (∀ p : PendCommit, s.record.agPend = some p →
      let u := s.toDev p.due
      ∃ t, Sys2Proof.Machine.exec .afterglowCommitApply s = .next t ∧
        t = { u with regs := t.regs, act := t.act, record := t.record } ∧
        t.act = (s.applyShadow agLo agHi p.snap).act ∧ t.record = { s.record with agPend := p.after } ∧
        KeepsWords u t [0xC00004] ∧ t.rd F.AFTERGLOW_COMMIT_STAT_PENDING = b2n p.after.isSome) ∧
    (∀ (n : Fin 4) (k : Capt) (q : Nat) (qs : List Nat) (e : SegEnt),
      s.record.capts.find? (fun k => k.input = n.val && !k.sumQ.isEmpty) = some k → k.sumQ = q :: qs → k.entBase ≤ q →
      k.table[q - k.entBase]? = some e → s.ract F.AFTERGLOW_CHn_CTRL_SUM_EN n = 1 →
      s.ract F.AFTERGLOW_CHn_CTRL_ENV_EN n = 0 → s.record.agReads = [] → (s.ag n).sumT ≤ e.mark.stamp →
      let xs := (s.entSamples k e).filterMap id
      let ok := e.len = k.pre + k.post && xs.length = e.len && !e.retired && (s.ag n).sumCur.fits e.range &&
        (s.entWords k e).all (fun w => match w with
          | some w => !w.w.damaged && !s.excluded n w.w.status | none => false)
      ∃ t, Sys2Proof.Machine.exec (.sumSegmentRead n false) s = .next t ∧
        t = { s with regs := t.regs, record := t.record } ∧
        (∀ m, m ≠ n.val → t.ag m = s.ag m) ∧
        (ok = true → t.ag n = { s.ag n with sumCur := (s.ag n).sumCur.add e xs } ∧
          t.rd F.AFTERGLOW_CHn_SUM_SKIP_CNT_COUNT n = s.rd F.AFTERGLOW_CHn_SUM_SKIP_CNT_COUNT n) ∧
        (ok = false → t.ag n = s.ag n ∧ t.rd F.AFTERGLOW_CHn_SUM_SKIP_CNT_COUNT n =
          min (s.rd F.AFTERGLOW_CHn_SUM_SKIP_CNT_COUNT n + 1) 0xFFFFFFFF)) ∧
    (∀ (n : Fin 4) (c : AgClear) (d : Nat) (j : Job), (s.ag n).clear = some c → c.due = some d → s.job? c.jid = some j →
      let e := s.gridFrom n (max d (s.devTime / 2 ^ 64 * 2 ^ 64 + j.fld 16 8))
      ∃ t, Sys2Proof.Machine.exec (.afterglowClearPoint n) s = .next t ∧
        (t.ag n).clear = none ∧ t.rd F.AFTERGLOW_CHn_STAT_CLEAR_PENDING n = 0 ∧
        t.rd64 F.AFTERGLOW_CHn_CLEAR_STAMP_LO_T F.AFTERGLOW_CHn_CLEAR_STAMP_HI_T n = e % 2 ^ 64 ∧
        (if c.what.testBit 0 then (t.ag n).hist = [] ∧ (t.ag n).poison = [] ∧ (t.ag n).histT = e
          else (t.ag n).hist = (s.ag n).hist ∧ (t.ag n).poison = (s.ag n).poison) ∧
        (if c.what.testBit 1 then (t.ag n).sumCur = {} ∧ (t.ag n).sumOld = {} ∧ (t.ag n).sumT = e
          else (t.ag n).sumCur = (s.ag n).sumCur) ∧
        (if c.what.testBit 2 then (t.ag n).envCur = {} ∧ (t.ag n).envOld = {} ∧ (t.ag n).envT = e
          else (t.ag n).envCur = (s.ag n).envCur) ∧
        (c.what.testBit 3 = true → t.rd F.AFTERGLOW_CHn_MASK_TESTED_CNT_COUNT n = 0 ∧
          t.rd F.AFTERGLOW_CHn_MASK_FAIL_CNT_COUNT n = 0 ∧ (t.ag n).firstFail = false) ∧
        (t.ag n).mask = (if c.what.testBit 4 then maskCells (j.taken.take 524288) else (s.ag n).mask) ∧
        (∀ m, m ≠ n.val → t.ag m = s.ag m) ∧ t.record.capts = s.record.capts ∧ t.act = s.act) ∧
    (∀ (n : Fin 4) (k : Capt) (e : SegEnt),
      s.record.capts.find? (fun k => k.input = n.val && k.backed.isNone && !k.isStream && k.table.any (fun e => !e.gap)) =
        some k → (k.table.filter (fun e => !e.gap)).getLast? = some e →
      let good := !e.retired && (s.entWords k e).all (fun w => match w with | some w => !w.w.damaged | none => false)
      ∃ t, Sys2Proof.Machine.exec (.afterglowRecompute n) s = .next t ∧
        t.record = { s.record with ag := t.record.ag } ∧ t.devTime = s.devTime ∧ t.act = s.act ∧
        t.host.jobs = s.host.jobs ∧ (∀ m, m ≠ n.val → t.ag m = s.ag m) ∧
        (good = true → t = { s with regs := t.regs } ∧ t.rd F.AFTERGLOW_CHn_STAT_RECOMPUTED n = 1 ∧
          t.rd F.AFTERGLOW_CHn_RECOMP_CNT_COUNT n = min (s.rd F.AFTERGLOW_CHn_RECOMP_CNT_COUNT n + 1) 0xFFFFFFFF) ∧
        (good = false → ∀ b ∈ ((List.range e.len).zip (s.entSamples k e)).filterMap (fun p => match p.2 with
            | some x => binOf (s.hshift n) (p.1 + k.pre - e.trigIdx) x.v | none => none), b / 1024 ∈ (t.ag n).poison))

/-- Afterglow's reads. At the snapshot instant a read of sums or envelopes sets the current area aside and the next begins
empty, and a histogram read starts (R186); each column of a histogram read is taken at a word boundary, and with CLEAR its
counters and its poison start again; a drained area is delivered only once no record that belongs to it still waits. -/
def Obligations.AfterglowReadsSnapshotAndDeliver : Prop :=
  ∀ s : State, s.dead = false →
    (∀ (sq : Fin 64) (tag : BitVec 16) (j : Job) (r : AgRead), s.jobOf? sq tag.toNat = some j →
      s.record.agReads = [r] → r.jid = j.jid → r.started = false →
      let n := j.bits 8 1 1 0
      let u := s.toDev r.ts
      ∃ t q, Sys2Proof.Machine.exec (.snapshotInstant sq tag) s = .next t ∧ t.devTime = u.devTime ∧
        t.record.agReads = [q] ∧ q.started = true ∧ q.jid = r.jid ∧ t.record.capts = s.record.capts ∧
        (∀ m, m ≠ n → t.ag m = s.ag m) ∧
        (r.what = 0 → t.ag n = s.ag n ∧ q.next = r.next) ∧
        (r.what = 1 → t.ag n = { s.ag n with sumOld := (s.ag n).sumCur, sumCur := {} } ∧
          t.rd64 F.AFTERGLOW_CHn_SUM_RECORDS_LO_COUNT F.AFTERGLOW_CHn_SUM_RECORDS_HI_COUNT n = 0) ∧
        (r.what = 2 → t.ag n = { s.ag n with envOld := (s.ag n).envCur, envCur := {} }) ∧
        (r.what = 3 → q.next = r.count ∧ (r.clear = true → t.rd F.AFTERGLOW_CHn_MASK_TESTED_CNT_COUNT n = 0 ∧
          t.rd F.AFTERGLOW_CHn_MASK_FAIL_CNT_COUNT n = 0))) ∧
    (∀ (n : Fin 4) (r : AgRead), s.record.agReads = [r] → r.what = 0 → r.started = true → r.next < r.count →
      (match s.job? r.jid with | some j => j.bits 8 1 1 0 = n.val ∧ s.moved j = true | none => False) →
      let e := s.gridFrom n (max r.ts s.devTime)
      let col := r.first + r.next
      ∃ t q, Sys2Proof.Machine.exec (.histogramColumnTake n) s = .next t ∧ t.devTime = (s.toDev e).devTime ∧
        t.record.agReads = [q] ∧ q.jid = r.jid ∧ q.next = r.next + 1 ∧ q.tLast = e % 2 ^ 64 ∧
        q.tFirst = (if r.next = 0 then e % 2 ^ 64 else r.tFirst) ∧
        q.poisoned = r.poisoned + b2n ((s.ag n).poison.contains col) ∧
        (∀ m, m ≠ n.val → t.ag m = s.ag m) ∧ t.record.capts = s.record.capts ∧
        (r.clear = false → t.ag n = s.ag n) ∧
        (r.clear = true → (t.ag n).hist = (s.ag n).hist.filter (fun c => decide (c.1 / 1024 ≠ col)) ∧
          (t.ag n).poison = (s.ag n).poison.filter (· ≠ col))) ∧
    (∀ (n : Fin 4) (env : Bool) (r : AgRead), s.record.agReads = [r] → r.what = (if env then 2 else 1) → r.started = true →
      r.next < r.count → (match s.job? r.jid with | some j => j.bits 8 1 1 0 = n.val | none => False) →
      (∀ k ∈ s.record.capts, k.input = n.val → k.backed = none → k.isStream = false →
        k.wins = [] ∧ k.inbox = [] ∧ k.sumQ = []) →
      ∃ t q, Sys2Proof.Machine.exec (.sumDrainDeliver n env) s = .next t ∧ t.devTime = s.devTime ∧
        t.record.agReads = [q] ∧ q.jid = r.jid ∧ q.next = r.count ∧ t.record.capts = s.record.capts ∧
        (∀ m, m ≠ n.val → t.ag m = s.ag m) ∧
        t.ag n = (if env then { s.ag n with envOld := {} } else { s.ag n with sumOld := {} }))

/-! ### Beacon, Glimmer and fibre temperature (R192-R248) -/

/-- A standalone play. A commit that sets PLAY starts a play of a valid bank from its start time and shows PENDING; of an output
that a job owns, an empty bank or too much power it is refused (R198); an output that still finishes a stopped play's probe
takes the new play after it. At its start time the play runs and TSTART shows it;
each emission is counted, goes out with its slot and time, and the next slot follows (R196); a marker's window rises and falls
at its instants (R197); a bank change takes the other bank from its cycle boundary (R198); a play that stops is over, and one
scheduled behind it stands in its place. -/
def Obligations.BeaconPlays : Prop :=
  ∀ (s : State) (b : Fin 2), s.dead = false →
    (∀ v : Word, v.getLsbD 0 = true → (s.shadow (bcnLo b) (bcnHi b) == s.active (bcnLo b) (bcnHi b)) = false →
      s.rd F.BEACON_Bb_CTRL_PLAY b = 1 → s.ract F.BEACON_Bb_CTRL_PLAY b = 0 →
      s.rd F.BEACON_Bb_CTRL_MK_INV b = s.ract F.BEACON_Bb_CTRL_MK_INV b →
      let bank := s.rd F.BEACON_Bb_CTRL_BANK b
      let ok := !s.claimed (.beacon b) && ((s.bcn b).prog bank).isSome && decide (s.floorPlay b 1 + s.jobPower ≤ 2150)
      (ok = true → ∃ t p, Sys2Proof.Machine.exec (.beaconCommit b v) s = .next t ∧
        t = { s with regs := t.regs, act := t.act, fibre := t.fibre } ∧
        t.act = (s.applyShadow (bcnLo b) (bcnHi b) (s.shadow (bcnLo b) (bcnHi b))).act ∧
        ((s.bcn b).play = none → (t.bcn b).play = some p) ∧
        ((s.bcn b).play.isSome = true → (t.bcn b).play = (s.bcn b).play ∧ (t.bcn b).after = some p) ∧
        p.owner = 0 ∧ p.bank = bank ∧ p.started = false ∧ p.left = none ∧
        p.t0 = s.tStart (s.rd64 F.BEACON_Bb_START_LO_T F.BEACON_Bb_START_HI_T b) ∧
        t.rd F.BEACON_Bb_COMMIT_STAT_PENDING b = 1 ∧ ∀ c, c ≠ b.val → t.bcn c = s.bcn c) ∧
      (ok = false → ∃ t, Sys2Proof.Machine.exec (.beaconCommit b v) s = .next t ∧ t = { s with regs := t.regs } ∧
        KeepsWords s t [0x1002008 + 0x100 * b.val] ∧
        (s.claimed (.beacon b) = true → t.rd F.BEACON_Bb_COMMIT_STAT_REJ_OWNED b = 1) ∧
        ((s.bcn b).prog bank = none → t.rd F.BEACON_Bb_COMMIT_STAT_REJ_INVALID b = 1) ∧
        (2150 < s.floorPlay b 1 + s.jobPower → t.rd F.BEACON_Bb_COMMIT_STAT_REJ_POWER b = 1))) ∧
    (∀ p : Play, (s.bcn b).play = some p → p.started = false → p.held = false → p.stopAt = none →
      let u := s.toDev (p.t0 + p.c * (((s.bcn b).prog p.bank).map (·.cyc)).getD 0 * 32768)
      ∃ t, Sys2Proof.Machine.exec (.beaconPlayStart b) s = .next t ∧ t = { u with regs := t.regs, fibre := t.fibre } ∧
        t.bcn b = { s.bcn b with play := some { p with started := true } } ∧ (∀ c, c ≠ b.val → t.bcn c = s.bcn c) ∧
        t.rd F.BEACON_Bb_STAT_PLAYING b = 1 ∧
        t.rd64 F.BEACON_Bb_TSTART_LO_T F.BEACON_Bb_TSTART_HI_T b = p.t0 % 2 ^ 64) ∧
    (∀ (p : Play) (g : BProg), (s.bcn b).play = some p → (s.bcn b).prog p.bank = some g → p.started = true →
      p.held = false → p.stopAt = none → p.next = none → p.owner = 0 → p.left = none →
      let te := p.t0 + (p.c * g.cyc + (g.slot p.slot).offset) * 32768
      let u := s.toDev te
      let last := decide (p.slot + 1 = g.slots.length)
      ∃ t, Sys2Proof.Machine.exec (.probeEmission b) s = .next t ∧
        t = { u with regs := t.regs, out := t.out, fibre := t.fibre } ∧
        t.out = u.out ++ [.probe b p.slot (te % 2 ^ 64)] ∧
        t.bcn b = { s.bcn b with play := some { p with
          slot := if last then 0 else p.slot + 1, c := if last then p.c + 1 else p.c
          probeEnd := te + (g.slot p.slot).len * 8192 } } ∧
        (∀ c, c ≠ b.val → t.bcn c = s.bcn c) ∧
        t.rd F.BEACON_Bb_EMIT_CNT_COUNT b = min (u.rd F.BEACON_Bb_EMIT_CNT_COUNT b + 1) 0xFFFFFFFF) ∧
    (∀ (m : Fin 2) (c : Nat) (slot : Fin 16) (p : Play) (g : BProg), (s.bcn b).play = some p →
      (s.bcn b).prog p.bank = some g → p.held = false → p.stopAt = none → p.next = none → p.left = none →
      slot.val < g.slots.length → (g.slot slot).mkr.testBit m.val = true → (s.bcn b).wins = [] →
      let te := p.t0 + (c * g.cyc + (g.slot slot).offset) * 32768
      let e := max (te - (g.slot slot).lead * 32768) p.floor
      s.devTime ≤ e → e < te + (g.slot slot).len * 8192 + (g.slot slot).lag * 32768 →
      ∃ t, Sys2Proof.Machine.exec (.markerEdge ⟨2 * b.val + m.val, by omega⟩ c slot true) s = .next t ∧
        t.bcn b = { s.bcn b with wins := [⟨m, c, slot, te + (g.slot slot).len * 8192 + (g.slot slot).lag * 32768⟩] } ∧
        t.devTime = (s.toDev e).devTime ∧ t.act = s.act ∧
        ((s.bcn b).dir = none → t.out = (s.toDev e).out ++
          [.marker (2 * b + m) (!(s.ract F.BEACON_Bb_CTRL_MK_INV b).testBit m.val) (e % 2 ^ 64)])) ∧
    (∀ (m : Fin 2) (w : MkWin), (s.bcn b).wins = [w] → w.mkr = m.val → w.slot < 16 →
      ∃ t, Sys2Proof.Machine.exec (.markerEdge ⟨2 * b.val + m.val, by omega⟩ w.c (Fin.ofNat 16 w.slot) false) s = .next t ∧
        t.bcn b = { s.bcn b with wins := [] } ∧ t.devTime = (s.toDev w.fall).devTime ∧ t.act = s.act ∧
        ((s.bcn b).dir = none → t.out = (s.toDev w.fall).out ++
          [.marker (2 * b + m) ((s.ract F.BEACON_Bb_CTRL_MK_INV b).testBit m.val) (w.fall % 2 ^ 64)])) ∧
    (∀ (p : Play) (bank e fl : Nat), (s.bcn b).play = some p → p.next = some (bank, e, fl) → p.held = false → bank < 2 →
      let u := s.toDev e
      ∃ t, Sys2Proof.Machine.exec (.beaconBankSwitch b) s = .next t ∧ t = { u with regs := t.regs, fibre := t.fibre } ∧
        t.bcn b = { s.bcn b with play := some { p with
          bank := bank, t0 := e, c := 0, slot := 0, floor := max p.floor fl, next := none, started := true } } ∧
        t.rd F.BEACON_Bb_STAT_ACTIVE_BANK b = bank ∧ t.rd F.BEACON_Bb_COMMIT_STAT_PENDING b = 0 ∧
        t.rd64 F.BEACON_Bb_TSTART_LO_T F.BEACON_Bb_TSTART_HI_T b = e % 2 ^ 64) ∧
    (∀ (p : Play) (e : Nat), (s.bcn b).play = some p → p.stopAt = some e →
      (∀ q, (s.bcn b).after = some q → q.started = false) →
      ∃ t, Sys2Proof.Machine.exec (.beaconPlayStop b) s = .next t ∧
        t.bcn b = { s.bcn b with play := (s.bcn b).after, after := none, wins := [], dir := none } ∧ (∀ c, c ≠ b.val → t.bcn c = s.bcn c) ∧
        t.rd F.BEACON_Bb_STAT_PLAYING b = 0 ∧ t.act = s.act ∧ t.devTime = (s.toDev e).devTime)

/-- The fibre engines. A tone's trace joins the oldest emission that awaits it, once both inputs' words reach its last sample;
a recomputed trace is counted, and damaged words behind it set INTEGRITY (R204, R223); the oldest complete frame leaves for the
host ring (R218). A temperature trace is summed, or skipped and counted (R233, R242); a completed accumulation of a
single-ended run writes a frame and the next begins (R234); a direction change flips the direction (R239). -/
def Obligations.FibreTracesAndFrames : Prop :=
  ∀ (s : State) (f : Fin 2), s.dead = false →
    (∀ (tone : Fin 16) (even odd : List (Int × Int)) (late damaged again : Bool) (errs : List Nat) (r : GRun) (k : GTone)
        (e : GEmis) (es : List GEmis),
      s.glim f = some r → r.cfg.tones[tone.val]? = some k → r.pending = e :: es → r.hold = false → e.slot = k.slot → r.hit11 e = false →
      (∀ x ∈ e.got, x.tone ≠ tone.val) → (∀ x ∈ es, x.te ≠ e.te) →
      e.got.length + 1 < (r.cfg.slotTones e.slot).length →
      let last := posTime e.te r.cfg.delay (r.cfg.posFirst + r.cfg.traceLen k - 1) + halfSpan
      wordsReach r.histE last = true → wordsReach r.histO last = true →
      let g : GTrace := { tone := tone, even := even.map chanPart, odd := odd.map chanPart, late := if again then false else late
                          damaged := if again then damaged else false, stateErr := if again then [] else errs }
      ∃ t, Sys2Proof.Machine.exec (if again then .glimmerRecompute f tone even odd damaged
          else .glimmerTrace f tone even odd late errs) s = .next t ∧
        t = { s with regs := t.regs, fibre := t.fibre } ∧
        t.glim f = some { r with pending := { e with got := e.got ++ [g] } :: es } ∧
        (∀ h, h ≠ f.val → t.glim h = s.glim h) ∧ (again = false → t.regs = s.regs) ∧
        (again = true → t.rd F.GLIMMER_Ff_STAT_RECOMPUTED f = 1 ∧
          t.rd F.GLIMMER_Ff_STAT_INTEGRITY f = (if damaged then 1 else s.rd F.GLIMMER_Ff_STAT_INTEGRITY f) ∧
          t.rd F.GLIMMER_Ff_RECOMP_CNT_COUNT f = min (s.rd F.GLIMMER_Ff_RECOMP_CNT_COUNT f + 1) 0xFFFFFFFF)) ∧
    (∀ (r : GRun) (x : GFrame) (xs : List GFrame), s.glim f = some r → r.frames = x :: xs → r.done = false →
      ∃ t, Sys2Proof.Machine.exec (.glimmerFrameWrite f) s = .next t ∧
        t = { s with regs := t.regs, out := t.out, host := t.host, fibre := t.fibre } ∧
        t.glim f = some { r with frames := xs } ∧ (∀ h, h ≠ f.val → t.glim h = s.glim h)) ∧
    (∀ (late : Bool) (r : FtRun) (te : Nat) (es : List (Nat × Bool)), s.ft f = some r → r.pending = (te, false) :: es →
      r.hold = false → r.taken < r.cfg.nAcc → wordsReach r.histE (r.cfg.anchor te - 1) = true →
      wordsReach r.histO (r.cfg.anchor te - 1) = true →
      let a := trace r.cfg r.histE (max (s.spacing (2 * f)) 1) te
      let b := trace r.cfg r.histO (max (s.spacing (2 * f + 1)) 1) te
      let q : FtRun := { r with pending := es, taken := r.taken + 1, tFirst := if r.taken = 0 then te else r.tFirst, tLast := te }
      ∃ t, Sys2Proof.Machine.exec (.ftempTrace f late) s = .next t ∧ t = { s with regs := t.regs, fibre := t.fibre } ∧
        (∀ h, h ≠ f.val → t.ft h = s.ft h) ∧
        (if late = false ∧ a.2 = true ∧ b.2 = true then
          t.ft f = some { q with clean := r.clean + 1, areaS := areaAdd r.areaS a.1, areaA := areaAdd r.areaA b.1 }
        else t.ft f = some q ∧ t.rd F.FTEMP_In_STAT_SKIPPED f = 1 ∧
          t.rd F.FTEMP_In_SKIP_CNT_COUNT f = min (s.rd F.FTEMP_In_SKIP_CNT_COUNT f + 1) 0xFFFFFFFF)) ∧
    (∀ (damaged : Bool) (r : FtRun), s.ft f = some r → r.ready = true →
      ∃ t u, Sys2Proof.Machine.exec (.ftempRecompute f damaged) s = .next t ∧ u.dead = false ∧
        Sys2Proof.Machine.exec (.ftempTrace f damaged) u = .next t ∧ u = { s with regs := u.regs } ∧
        (damaged = true → u = s) ∧
        (damaged = false → u.rd F.FTEMP_In_STAT_RECOMPUTED f = 1 ∧
          u.rd F.FTEMP_In_RECOMP_CNT_COUNT f = min (s.rd F.FTEMP_In_RECOMP_CNT_COUNT f + 1) 0xFFFFFFFF)) ∧
    (∀ (bad kept : Bool) (r : FtRun), s.ft f = some r → r.cfg.nAcc ≤ r.taken → r.cfg.dbl = false →
      (r.cfg.nRun = 0 ∨ r.k + 1 < r.cfg.nRun) →
      ∃ t q, Sys2Proof.Machine.exec (.ftempAccumulationEnd f bad kept) s = .next t ∧
        t = { s with regs := t.regs, out := t.out, host := t.host, fibre := t.fibre, freeCtr := t.freeCtr } ∧
        t.ft f = some q ∧ q.k = r.k + 1 ∧ q.seq = r.seq + 1 ∧ q.taken = 0 ∧ q.clean = 0 ∧ q.areaS = [] ∧ q.areaA = [] ∧
        q.cfg = r.cfg ∧ q.pending = r.pending ∧ q.brk = false ∧ t.rd F.FTEMP_In_ACC_N_N f = 0 ∧
        ∀ h, h ≠ f.val → t.ft h = s.ft h) ∧
    (∀ (r : FtRun) (e : Nat), s.ft f = some r → r.dirDue = some e →
      ∃ t, Sys2Proof.Machine.exec (.directionChange f) s = .next t ∧
        t.ft f = some { r with dirDue := none, dir := !r.dir } ∧ (t.bcn f).dir = some (!r.dir) ∧
        t.rd F.FTEMP_In_STAT_DIR f = b2n (!r.dir) ∧ t.devTime = (s.toDev e).devTime ∧ t.act = s.act)

/-! ### Glint (R250-R277) -/

/-- Stamps and gates. An edge on an enabled input whose interpolators are free is stamped, counts in STAMP_CNT, takes
interpolator A, or B while A is busy, and sets Lantern's level; with both busy it is lost and counted (R252, R253). A stamp
within the reach of an open class I measurement that takes its input joins the measurement (R259, R260). The opening edge of
the gate begins a measurement at its time, or while one is open is counted as skipped (R258). A run arms at its instant
(R258); a timed window ends GATE_LEN after its opening (R259); the oldest class I cycle closes at its start plus SPAN, and is
no longer open (R260); no window lasts past 2^47 ticks (R259); after LIMIT_US no further gate is taken (R270). -/
def Obligations.GlintStampsAndGates : Prop :=
  ∀ s : State, s.dead = false →
    (∀ (n : Fin 256) (rise full : Bool) (e : Nat), s.running = true → s.flag F.POWER_STAT_THERM_EMERG = false →
      s.glint.holding = false → s.ract F.GLINT_INn_CTRL_ENABLE n = 1 → s.glint.runs = [] →
      (s.gin n).wait = false → (s.gin n).from' ≤ e →
      let u := s.toDev e
      ∃ t, Sys2Proof.Machine.exec (.glintEdge ⟨n.val, by omega⟩ rise full e) s = .next t ∧
        t = { u with regs := t.regs, out := t.out, lan := t.lan, glint := t.glint } ∧ t.glint.runs = [] ∧
        (∀ m, m ≠ n.val → t.gin m = s.gin m) ∧
        ((s.gin n).freeA ≤ e → t.gin n = { s.gin n with freeA := e + 327680 } ∧ kget t.lan.levels n.val false = rise ∧
          t.rd F.GLINT_INn_STAMP_CNT_COUNT n = min (u.rd F.GLINT_INn_STAMP_CNT_COUNT n + 1) 0xFFFFFFFF) ∧
        (e < (s.gin n).freeA → (s.gin n).freeB ≤ e →
          t.gin n = { s.gin n with freeB := e + 327680 } ∧ kget t.lan.levels n.val false = rise ∧
          t.rd F.GLINT_INn_STAMP_CNT_COUNT n = min (u.rd F.GLINT_INn_STAMP_CNT_COUNT n + 1) 0xFFFFFFFF) ∧
        (e < (s.gin n).freeA → e < (s.gin n).freeB → t.gin n = s.gin n ∧ t.lan = s.lan ∧
          t.rd F.GLINT_INn_STAT_INTERP_LOSS n = 1 ∧
          t.rd F.GLINT_INn_LOSS_CNT_COUNT n = min (u.rd F.GLINT_INn_LOSS_CNT_COUNT n + 1) 0xFFFFFFFF)) ∧
    (∀ (n : Fin 256) (rise : Bool) (e : Nat) (r : GlRun) (m : Meas), s.running = true →
      s.flag F.POWER_STAT_THERM_EMERG = false → s.glint.holding = false → s.ract F.GLINT_INn_CTRL_ENABLE n = 1 →
      s.glint.runs = [r] → r.clsF = false → r.meas = some m → r.takes.contains n.val = true → r.gateSrc ≠ n.val →
      s.slopePass n rise = true → (s.gin n).wait = false → (s.gin n).from' ≤ e → (s.gin n).freeA ≤ e →
      s.ract F.GLINT_INn_TERM_DESKEW n = 0 → m.ws ≤ e → e ≤ m.lim → m.wend = none →
      ∃ t, Sys2Proof.Machine.exec (.glintEdge ⟨n.val, by omega⟩ rise false e) s = .next t ∧
        t.glint.runs = [{ r with meas := some (m.take r ⟨e, n.val, rise⟩) }]) ∧
    (∀ (g : Fin 4) (e : Nat) (r : GlRun), s.running = true → s.flag F.POWER_STAT_THERM_EMERG = false →
      s.glint.holding = false → s.glint.runs = [r] → r.gateSrc = 256 + g.val → r.armed = true → r.hold = false →
      let u := s.toDev e
      ∃ t, Sys2Proof.Machine.exec (.glintEdge ⟨256 + g.val, by omega⟩ (decide (r.pol = 0)) false e) s = .next t ∧
        t = { u with regs := t.regs, glint := t.glint } ∧
        (r.meas = none → r.isOver = false → t.glint.runs = [{ r with
            meas := some { tg := e, brk := r.brk, accs := r.stops.map (fun _ => {}) }, gates := r.gates + 1, brk := false }] ∧
          (r.group < 32 → t.rd F.GLINT_Gg_STAT_WINDOW r.group = 1)) ∧
        (r.meas = none → r.isOver = true → t = u) ∧
        (∀ m, r.meas = some m → t.glint.runs = [{ r with meas := some { m with skips := m.skips + 1 } }] ∧
          t.rd F.GLINT_GATE_SKIP_CNT_COUNT = min (u.rd F.GLINT_GATE_SKIP_CNT_COUNT + 1) 0xFFFFFFFF)) ∧
    (∀ n : Fin 256, s.glint.holding = false → s.running = true → s.ract F.GLINT_INn_CTRL_ENABLE n = 1 →
      let e := (s.devTime / 32768 + 1) * 32768
      ∃ t, Sys2Proof.Machine.exec (.glintInterpCal n) s = .next t ∧ t = { s with glint := t.glint } ∧
        t.gin n = { s.gin n with
          calAt := s.devTime, scaleAt := e, wait := false, from' := if (s.gin n).wait then e else (s.gin n).from' } ∧
        (∀ m, m ≠ n.val → t.gin m = s.gin m) ∧ t.glint.runs = s.glint.runs) ∧
    (∀ (g : Fin 32) (r : GlRun), s.glRun g = some r → s.glint.runs.find? (fun x => x.jid = r.jid) = some r →
      (r.armed = false →
        ∃ t, Sys2Proof.Machine.exec (.glintArm g) s = .next t ∧ t = { s.toDev r.armAt with glint := t.glint } ∧
          t.glRun g = some { r with armed := true }) ∧
      (∀ m, r.meas = some m → r.gateLen ≠ 0 → m.wend = none →
        let e := m.tg + r.gateLen * 65536000
        ∃ t q, Sys2Proof.Machine.exec (.glintWindowEnd g) s = .next t ∧
          t = { s.toDev e with regs := t.regs, glint := t.glint } ∧ t.glRun g = some q ∧ q.lastClose = some e ∧
          (if m.cycles = [] then q.meas = none ∧ q.ended = r.ended ++ [{ m with wend := some e }]
            else q.meas = some { m with wend := some e } ∧ q.ended = r.ended)) ∧
      (∀ m ts cs, r.meas = some m → m.cycles = ts :: cs → ts + r.span ≤ m.lim →
        ∃ t q, Sys2Proof.Machine.exec (.classICycleClose g) s = .next t ∧
          t = { s.toDev (ts + r.span) with regs := t.regs, glint := t.glint } ∧ t.glRun g = some q ∧
          (if cs = [] ∧ m.wend.isSome then q.meas = none ∧ q.ended = r.ended ++ [m.closeCycle r]
            else q.meas = some (m.closeCycle r) ∧ q.ended = r.ended) ∧ (m.closeCycle r).cycles = cs) ∧
      (∀ m, r.meas = some m → ((m.wend = none ∧ r.gateLen = 0) ∨ ∃ ts ∈ m.cycles, m.lim < ts + r.span) →
        ∃ t q x, Sys2Proof.Machine.exec (.timeWrap g) s = .next t ∧
          t = { s.toDev m.lim with regs := t.regs, glint := t.glint } ∧ t.glRun g = some q ∧ q.meas = none ∧
          q.ended = r.ended ++ [x] ∧ x.wrap = true ∧ x.wend = some (m.wend.getD m.lim) ∧ x.cycles = [] ∧ x.stamps = m.stamps) ∧
      (0 < r.limit → r.armed = true → (r.meas.isSome ∨ r.ended ≠ []) →
        let e := r.armAt + r.limit * 65536000
        ∃ t, Sys2Proof.Machine.exec (.glintLimit g) s = .next t ∧ t = { s.toDev e with glint := t.glint } ∧
          t.glRun g = some { r with
            closed := true, limited := true, lastClose := if r.meas.isNone then some e else r.lastClose }))

/-- Glint's results and set-up. The oldest ended measurement gives its record: the run's count of results and the job's rise by
one, the live record shows it with NEW (R265, R269); a read of RES_HDR moves the live record to the latch and clears NEW,
and each read of RES_DATA returns the next word of the latch (R269). A commit that touches no input in use is applied at the
first SCLK boundary at least 64 ns later, one that does names the lowest and changes nothing else (R276). -/
def Obligations.GlintResultsAndSetUp : Prop :=
  ∀ s : State, s.dead = false →
    (∀ (g : Fin 32) (spoiled : List (Fin 64)) (crc damaged : Bool) (r : GlRun) (m : Meas) (ms : List Meas),
      s.glint.runs = [r] → r.group = g.val → r.ended = m :: ms → (r.isOver = false ∨ r.meas.isSome ∨ ms ≠ []) →
      let n := (r.stampEntries m).length
      let room := r.stampSize / 16 - r.sent
      ∃ t q, Sys2Proof.Machine.exec (.glintResult g spoiled crc damaged) s = .next t ∧ t.glint.runs = [q] ∧
        q = { r with ended := ms, seq := r.seq + 1, sent := r.sent + min n room } ∧
        t.rd F.GLINT_Gg_RES_HDR_NEW g = 1 ∧
        t.rd F.GLINT_Gg_RES_HDR_SEQ g =
          (if s.rd F.GLINT_Gg_RES_HDR_SEQ g = 0xFFFF then 1 else s.rd F.GLINT_Gg_RES_HDR_SEQ g + 1) ∧
        (t.glGroup g).live.length = 16 ∧ (t.glGroup g).latch = (s.glGroup g).latch ∧
        (m.wrap = true → t.rd F.GLINT_Gg_STAT_TIME_WRAP g = 1) ∧ t.devTime = s.devTime ∧ t.act = s.act ∧
        ∀ h, h ≠ g.val → t.glGroup h = s.glGroup h) ∧
    (∀ g : Fin 32,
      (∃ t, Sys2Proof.Machine.exec (.resHdrRead g) s = .next t ∧ t = { s with regs := t.regs, out := t.out, glint := t.glint } ∧
        t.out = s.out ++ [.readData (0x1880008 + 16 * g) (s.word (0x1880008 + 16 * g))] ∧
        t.glGroup g = { s.glGroup g with latch := (s.glGroup g).live, idx := 0 } ∧
        KeepsWords s t [0x1880008 + 16 * g] ∧ t.rd F.GLINT_Gg_RES_HDR_NEW g = 0 ∧
        t.rd F.GLINT_Gg_RES_HDR_SEQ g = s.rd F.GLINT_Gg_RES_HDR_SEQ g ∧ t.glint.runs = s.glint.runs) ∧
      (∃ t, Sys2Proof.Machine.exec (.resDataRead g) s = .next t ∧ t = { s with out := t.out, glint := t.glint } ∧
        t.out = s.out ++ [.readData (0x188000C + 16 * g) ((s.glGroup g).latch.getD (s.glGroup g).idx 0)] ∧
        t.glGroup g = { s.glGroup g with idx := min ((s.glGroup g).idx + 1) 16 } ∧ t.glint.runs = s.glint.runs)) ∧
    (∀ v : Word, v.getLsbD 0 = true → (s.shadow glLo glHi == lastPend s.glint.pend (s.active glLo glHi)) = false →
      (s.glOffender = none →
        ∃ t, Sys2Proof.Machine.exec (.glintCommit v) s = .next t ∧ t = { s with regs := t.regs, glint := t.glint } ∧
          t.glint = { s.glint with pend := addPend s.glint.pend (roundUp (s.devTime + 4194304) 32768) (s.shadow glLo glHi) } ∧
          KeepsWords s t [0x1881004] ∧ t.rd F.GLINT_COMMIT_STAT_PENDING = 1) ∧
      (∀ n : Nat, n < 260 → s.glOffender = some n →
        ∃ t, Sys2Proof.Machine.exec (.glintCommit v) s = .next t ∧ t = { s with regs := t.regs } ∧
          KeepsWords s t [0x1881004] ∧ t.rd F.GLINT_COMMIT_STAT_REJ_OWNED = 1 ∧ t.rd F.GLINT_COMMIT_STAT_REJ_WHERE = n)) ∧
    (∀ (high : List (Fin 256)) (p : PendCommit), s.glint.pend = some p →
      ∃ t, Sys2Proof.Machine.exec (.glintCommitApply high) s = .next t ∧
        t = { s.toDev p.due with regs := t.regs, act := t.act, lan := t.lan, glint := t.glint } ∧
        t.glint = { s.glint with pend := p.after } ∧ t.act = (s.applyShadow glLo glHi p.snap).act ∧
        t.rd F.GLINT_COMMIT_STAT_PENDING = b2n p.after.isSome ∧
        ∀ n : Fin 256, kget t.lan.levels n.val false =
          (let on := t.ract F.GLINT_INn_CTRL_ENABLE n = 1
           if on ↔ s.ract F.GLINT_INn_CTRL_ENABLE n = 1 then kget s.lan.levels n.val false
           else decide on && high.contains n))

/-! ### Lumen tiles and the pool (R279-R333) -/

/-- The operations that work in each tile of a unit (R283, R287, R290-R293, R298). When a unit issues such a bundle, then in
every tile of the unit, with `u` the tile as the bundle sees it and `v` the tile as the next bundle does, the operation has
its result: in FD at once, or under way to be seen two or three bundles later. The lead goes on to the next bundle, other
tiles and the rest of the device do not change, and a unit whose bundle is illegal stops with fault 1 instead (R284). -/
def Obligations.TileOperationsGiveTheirResults : Prop :=
  ∀ (op : (Fin 256 → Instr) × Nat × (RunSt → Nat → TileSt → TileSt → Prop)),
    op ∈ ([
      (Instr.nop, 0x00, fun _ w u v =>
        (movesOf w = [] → v.regs = u.regs ∧ v.x = u.x ∧ v.y = u.y ∧ v.c = u.c ∧ v.accM = u.accM ∧ v.aregs = u.aregs) ∧
        (∀ b m, movesOf w = [(b, m)] → mvStore m = false → (2 * (u.cyc + 3) + 1, TEff.reg (u.phys (mvReg m))
          (packLanes (fun i => sgn 16 (kget (u.dmem b) ((u.areg (mvA m)).at (i : Int)) 0).toNat))) ∈ v.pend) ∧
        (∀ b m, movesOf w = [(b, m)] → mvStore m = true → ((u.areg (mvA m)).len = 0 ∨ (4 ≤ (u.areg (mvA m)).len ∧ (u.areg (mvA m)).len ≤ 8192)) →
          ∀ i : Fin 4, sgn 16 (kget (v.dmem b) ((u.areg (mvA m)).at (i.val : Int)) 0).toNat = laneOf (u.get (mvReg m)) i)),
      (Instr.mac4, 0x01, fun _ w u v => kget v.accM (fd w) 0 =
        (let p := laneOf (u.get (fa w)) 0 * laneOf (u.get (fb w)) 0 + laneOf (u.get (fa w)) 1 * laneOf (u.get (fb w)) 1 +
            laneOf (u.get (fa w)) 2 * laneOf (u.get (fb w)) 2 + laneOf (u.get (fa w)) 3 * laneOf (u.get (fb w)) 3
         sgn 40 (unsg 40 ((if (fm w).testBit 0 then 0 else u.macAcc (fd w)) + (if (fm w).testBit 1 then -p else p))))),
      (Instr.macp, 0x02, fun _ w u v => ∀ i : Fin 4, kget v.accM (4 * (fd w / 4 % 2) + i.val) 0 =
        (let p := laneOf (u.get (fa w)) i * laneOf (u.get (fb w)) i
         sgn 40 (unsg 40 ((if (fm w).testBit 0 then 0 else u.macAcc (4 * (fd w / 4 % 2) + i.val)) +
           (if (fm w).testBit 1 then -p else p))))),
      (Instr.accld, 0x03, fun _ w u v => kget v.accM (fd w) 0 = sgn 40 (u.get (fa w)).toNat),
      (Instr.accst, 0x04, fun _ w u v =>
        (2 * (u.cyc + 2) + 1, TEff.reg (u.phys (fd w)) (BitVec.ofInt 64 (u.seenAcc (fa w)))) ∈ v.pend),
      (Instr.ext, 0x05, fun r w u v => (2 * (u.cyc + 2) + 1, TEff.lane (u.phys (fd w)) (fm w)
        (BitVec.ofInt 16 (to16 (satBit w) (roundShift (r.g = 16) (u.seenAcc (fa w)) (sh w - 16))).1)) ∈ v.pend),
      (Instr.movs, 0x06, fun r w u v => (2 * (u.cyc + 2) + 1, TEff.reg (u.phys (fd w))
        (packLanes (fun i => (to16 (satBit w) (roundShift (r.g = 16) (laneOf (u.get (fa w)) i) (sh w))).1))) ∈ v.pend),
      (Instr.sha, 0x07, fun _ w u v => kget v.regs (u.phys (fd w)) 0 = BitVec.ofInt 64 (
        if 0 ≤ sh w then sreg (u.get (fa w)) * 2 ^ (sh w).toNat else sreg (u.get (fa w)) / 2 ^ (-(sh w)).toNat)),
      (Instr.mov, 0x08, fun _ w u v => kget v.regs (u.phys (fd w)) 0 = u.get (fa w)),
      (Instr.add, 0x09, fun _ w u v => kget v.regs (u.phys (fd w)) 0 = u.get (fa w) + u.get (fb w)),
      (Instr.sub, 0x0A, fun _ w u v => kget v.regs (u.phys (fd w)) 0 = u.get (fa w) - u.get (fb w)),
      (Instr.and, 0x0B, fun _ w u v => kget v.regs (u.phys (fd w)) 0 = u.get (fa w) &&& u.get (fb w)),
      (Instr.or, 0x0C, fun _ w u v => kget v.regs (u.phys (fd w)) 0 = u.get (fa w) ||| u.get (fb w)),
      (Instr.xor, 0x0D, fun _ w u v => kget v.regs (u.phys (fd w)) 0 = u.get (fa w) ^^^ u.get (fb w)),
      (Instr.add4, 0x0E, fun _ w u v => kget v.regs (u.phys (fd w)) 0 =
        packLanes (fun i => (to16 ((fm w).testBit 0) (laneOf (u.get (fa w)) i + laneOf (u.get (fb w)) i)).1)),
      (Instr.sub4, 0x0F, fun _ w u v => kget v.regs (u.phys (fd w)) 0 =
        packLanes (fun i => (to16 ((fm w).testBit 0) (laneOf (u.get (fa w)) i - laneOf (u.get (fb w)) i)).1)),
      (Instr.cmp, 0x10, fun _ w u v => v.sr.testBit 1 = decide (u.get (fa w) = u.get (fb w)) ∧
        v.sr.testBit 2 = decide ((u.get (fa w)).toInt < (u.get (fb w)).toInt)),
      (Instr.fcvt, 0x11, fun _ w u v => (2 * (u.cyc + 2) + 1, TEff.reg (u.phys (fd w)) (packLanes (fun i =>
        if i < 2 then (fcvt1 ((u.get (fa w)).toNat / 2 ^ (32 * i) % 2 ^ 32) (sh w) (satBit w)).1 else 0))) ∈ v.pend),
      (Instr.icvt, 0x12, fun _ w u v => (2 * (u.cyc + 2) + 1, TEff.reg (u.phys (fd w)) (BitVec.ofNat 64
        (toF32 (laneOf (u.get (fa w)) 0) (sh w) + 2 ^ 32 * toF32 (laneOf (u.get (fa w)) 1) (sh w)))) ∈ v.pend),
      (Instr.geta, 0x13, fun _ w u v => kget v.regs (u.phys (fd w)) 0 = BitVec.ofInt 64
        (match fm w with
          | 0 => ((u.areg (fa w)).addr : Int) | 1 => ((u.areg (fa w)).base : Int) | 2 => ((u.areg (fa w)).len : Int)
          | _ => (u.areg (fa w)).step)),
      (Instr.gets, 0x14, fun r w u v =>
        (fa w = 0 → kget v.regs (u.phys (fd w)) 0 = BitVec.ofNat 64 u.sr) ∧
        (fa w = 3 → kget v.regs (u.phys (fd w)) 0 = BitVec.ofNat 64 u.roff) ∧
        (fa w = 4 → kget v.regs (u.phys (fd w)) 0 = BitVec.ofNat 64 u.cyc) ∧
        (fa w = 7 → kget v.regs (u.phys (fd w)) 0 = BitVec.ofNat 64 u.avail) ∧
        (fa w = 14 → kget v.regs (u.phys (fd w)) 0 = BitVec.ofNat 64 r.poolSize)),
      (Instr.puts, 0x15, fun _ w u v =>
        (fd w = 0 → v.sr = (u.get (fa w)).toNat % 64) ∧ (fd w = 2 → v.imask = (u.get (fa w)).toNat % 16) ∧
        (fd w = 3 → v.roff = (u.get (fa w)).toNat % 32) ∧ (fd w = 5 → v.tcmp = (u.get (fa w)).toNat % 2 ^ 32) ∧
        (fd w = 10 → v.spc = (u.get (fa w)).toNat % 2048) ∧ (fd w = 4 → v.cyc = u.cyc + 1)),
      (Instr.lde, 0x16, fun _ w u v => (2 * (u.cyc + 3) + 1, TEff.reg (u.phys (fd w))
        (BitVec.ofInt 64 (sgn 16 (kget (u.dmem (fm w)) ((u.areg (fb w % 8)).at 0) 0).toNat))) ∈ v.pend),
      (Instr.ste, 0x17, fun _ w u v =>
        kget (v.dmem (fm w)) ((u.areg (fb w % 8)).at 0) 0 = BitVec.ofNat 16 (u.get (fa w)).toNat),
      (Instr.movi, 0x20, fun _ w u v => kget v.regs (u.phys (fd w)) 0 = BitVec.ofInt 64 (sgn 32 (imm w))),
      (Instr.movih, 0x21, fun _ w u v =>
        kget v.regs (u.phys (fd w)) 0 = BitVec.ofNat 64 ((u.get (fd w)).toNat % 2 ^ 32 + imm w * 2 ^ 32)),
      (Instr.seta, 0x22, fun _ w u v =>
        (2 * (u.cyc + 2) + 1, TEff.adr (fd w % 8) (fd w / 16 % 4) (sgn 32 (imm w))) ∈ v.pend),
      (Instr.adda, 0x23, fun _ w u v => (2 * (u.cyc + 2) + 1,
        TEff.adr (fd w % 8) 0 (((u.areg (fd w % 8)).at (sgn 14 (imm w)) : Nat) : Int)) ∈ v.pend),
      (Instr.ei, 0x37, fun _ _ _ v => v.sr.testBit 0 = true),
      (Instr.di, 0x38, fun _ _ _ v => v.sr.testBit 0 = false)] :
        List ((Fin 256 → Instr) × Nat × (RunSt → Nat → TileSt → TileSt → Prop))) →
    ∀ (s : State) (l : Fin 256) (r : RunSt),
      (UnitIssues s l r op.2.1 → UnitQuiet s l r 1 →
        ∃ t, Sys2Proof.Machine.exec (op.1 l) s = .next t ∧
          (∀ n ∈ r.unit l, op.2.2 r (s.tile l).bundle (s.tile n).now (t.tile n)) ∧
          (∀ n, n ∉ r.unit l → t.tile n = s.tile n) ∧ (t.tile l).pc = ((s.tile l).pc + 1) % 2048 ∧
          t = { s with regs := t.regs, lumen := t.lumen } ∧ t.lumen = { s.lumen with tiles := t.lumen.tiles }) ∧
      (s.dead = false → s.run? (s.tile l).run = some r → s.canIssue r l = true → 0 < r.g →
        ((opRow (opc (s.tile l).bundle)).isSome = true → opc (s.tile l).bundle = op.2.1) →
        illegal (s.tile l).bundle = true → r.unit l ⊆ List.range 256 →
        ∃ t, Sys2Proof.Machine.exec (op.1 l) s = .next t ∧
          (∀ n ∈ r.unit l, (t.tile n).live = false ∧ t.rd F.LUMEN_Tt_STAT_FAULT n = 1 ∧ t.rd F.LUMEN_Tt_FAULT_CODE n = 1 ∧
            t.rd F.LUMEN_Tt_FAULT_PC n = (s.tile l).pc % 2048))

/-- Control, items and pool accesses of a unit. Branches take effect after two delay slots, CALL leaves the bundle after them in
S31, RETI restores the saved status (R288, R301); loops and repetitions count (R294, R295); WAITIN takes the oldest item of
every tile or waits, NEXTIN releases, PUTOUT commits an output, WAITOUT waits for a slot (R306, R308); PLD and PST join a
tile's accesses and PWAIT lands what PLD read (R309); HALT delivers what is committed and ends the unit (R317). -/
def Obligations.TileControlItemsAndPool : Prop :=
  ∀ (s : State) (l : Fin 256) (r : RunSt) (code : Nat), UnitIssues s l r code → UnitQuiet s l r 1 → l.val ∈ r.leads →
    let w := (s.tile l).bundle
    let u := (s.tile l).now
    let next := ((s.tile l).pc + 1) % 2048
    (∀ c ∈ [Instr.b l, .call l, .ret l, .reti l, .brk l, .loop l, .rep l],
      (code = match c with
        | .b _ => 0x24 | .call _ => 0x25 | .ret _ => 0x26 | .reti _ => 0x27 | .brk _ => 0x2A | .loop _ => 0x28 | _ => 0x29) →
      ∃ t, Sys2Proof.Machine.exec c s = .next t ∧ t = { s with regs := t.regs, lumen := t.lumen } ∧
        (∀ n, n ∉ r.unit l → t.tile n = s.tile n) ∧ (t.tile l).pc = next ∧ (t.tile l).cyc = u.cyc + 1 ∧
        (match c with
          | .b _ => (t.tile l).delay = some (2, if condHolds u (fd w % 8) then .to (fx w) else .seq)
          | .call _ => (t.tile l).delay = some (2, .to (fx w)) ∧
              ∀ n ∈ r.unit l, kget (t.tile n).regs 31 0 = BitVec.ofNat 64 (((s.tile l).pc + 3) % 2048)
          | .ret _ => (t.tile l).delay = some (2, .to ((u.get 31).toNat % 2048))
          | .reti _ => (t.tile l).delay = some (2, .reti)
          | .brk _ => (t.tile l).delay = some (2, .brk)
          | .loop _ => (t.tile l).delay = none ∧ (t.tile l).loops = [⟨next, fx w,
              (let k := if (fd w).testBit 1 then (kget u.regs (imm w % 32) 0).toNat % 65536 else imm w % 65536
               if k = 0 then 65536 else k), if (fd w).testBit 0 then 2 ^ (fd w / 4 % 4) else 0⟩]
          | _ => (t.tile l).delay = none ∧ (t.tile l).rep = some (imm w % 256 + 1,
              if (fd w).testBit 0 then 2 ^ (fd w / 4 % 4) else 0))) ∧
    (code = 0x30 → (∀ n ∈ r.unit l, (s.tile n).commits = []) →
      (s.unitHasItem r l = true →
        ∃ t, Sys2Proof.Machine.exec (.waitin l) s = .next t ∧ (t.tile l).pc = next ∧ (t.tile l).stall = .none ∧
          t = { s with regs := t.regs, lumen := t.lumen } ∧
          ∀ n ∈ r.unit l, (t.tile n).held = takeFirst (s.tile n).delivered (s.tile n).held ∧ (t.tile n).since = 1 ∧
            (t.tile n).timed = true ∧ kget (t.tile n).regs ((s.tile n).phys (fd w)) 0 = BitVec.ofNat 64 (nextSlot (s.tile n).held)) ∧
      (s.unitHasItem r l = false →
        ∃ t, Sys2Proof.Machine.exec (.waitin l) s = .next t ∧ (t.tile l).pc = (s.tile l).pc ∧
          (t.run? r.jid = none ∨ ((t.tile l).stall = .waitin ∧ ∀ n ∈ r.unit l, n < 256 → t.rd F.LUMEN_Tt_STAT_WAITING n = 1)))) ∧
    (code = 0x31 → (∀ n ∈ r.unit l, (s.tile n).held.any (·.taken) = true) →
      ∃ t, Sys2Proof.Machine.exec (.nextin l) s = .next t ∧ (t.tile l).pc = next ∧
        (∀ n ∈ r.unit l, (t.tile n).held = releaseFirst (s.tile n).held)) ∧
    (code = 0x32 → (∀ n ∈ r.unit l, (s.tile n).outBusy < r.outSlots ∧ (s.tile n).outs < r.outPerIn) →
      ∃ t, Sys2Proof.Machine.exec (.putout l) s = .next t ∧ (t.tile l).pc = next ∧
        t = { s with regs := t.regs, lumen := t.lumen } ∧
        ∀ n ∈ r.unit l, (t.tile n).outCount = (s.tile n).outCount + 1 ∧ (t.tile n).outBusy = (s.tile n).outBusy + 1 ∧
          (t.tile n).outs = (s.tile n).outs + 1 ∧
          ∃ c, (t.tile n).commits = (s.tile n).commits ++ [c] ∧ c.slot = (s.tile n).outCount % r.outSlots) ∧
    (code = 0x33 →
      ∃ t, Sys2Proof.Machine.exec (.waitout l) s = .next t ∧ t = { s with regs := t.regs, lumen := t.lumen } ∧
        (s.unitHasSlot r l = true → (t.tile l).pc = next ∧ (t.tile l).stall = .none) ∧
        (s.unitHasSlot r l = false → (t.tile l).pc = (s.tile l).pc ∧ (t.tile l).stall = .waitout ∧
          t.rd F.LUMEN_Tt_STAT_WAITING l = 1)) ∧
    (code = 0x34 → (∀ n ∈ r.unit l, (s.tile n).reqs.length < 4 ∧
        let a := ((s.tile n).get (fa w)).toNat
        a < 2 ^ 27 ∧ a / 2 ^ 25 ≠ 3 ∧ a % 8 = 0 ∧ a % 2 ^ 25 < r.poolSize) →
      ∃ t, Sys2Proof.Machine.exec (.pld l) s = .next t ∧ (t.tile l).pc = next ∧
        t = { s with regs := t.regs, lumen := t.lumen, freeCtr := s.freeCtr + r.g } ∧
        ∀ n ∈ r.unit l, (t.tile n).reqs = (s.tile n).reqs ++ [(let a := ((s.tile n).get (fa w)).toNat
          ⟨some ((s.tile n).phys (fd w)), r.poolBase + a % 2 ^ 25, a / 2 ^ 25, 0⟩)]) ∧
    (code = 0x35 → (∀ n ∈ r.unit l, (s.tile n).reqs.length < 4 ∧
        let a := ((s.tile n).get (fa w)).toNat
        a < 2 ^ 27 ∧ a / 2 ^ 25 ≠ 3 ∧ a % 8 = 0 ∧ a % 2 ^ 25 < r.poolSize) →
      ∃ t, Sys2Proof.Machine.exec (.pst l) s = .next t ∧ (t.tile l).pc = next ∧
        t = { s with regs := t.regs, lumen := t.lumen } ∧
        ∀ n ∈ r.unit l, (t.tile n).reqs = (s.tile n).reqs ++ [(let a := ((s.tile n).get (fa w)).toNat
          ⟨none, r.poolBase + a % 2 ^ 25, a / 2 ^ 25, (s.tile n).get (fb w)⟩)]) ∧
    (code = 0x36 →
      (s.unitPoolDone r l = true → (∀ n ∈ r.unit l, (s.tile n).poolBad = false) →
        ∃ t, Sys2Proof.Machine.exec (.pwait l) s = .next t ∧ (t.tile l).pc = next ∧
          t = { s with regs := t.regs, lumen := t.lumen } ∧
          ∀ n ∈ r.unit l, (t.tile n).got = [] ∧ ∀ p v, (s.tile n).got = [(p, v)] → kget (t.tile n).regs p 0 = v) ∧
      (s.unitPoolDone r l = false →
        ∃ t, Sys2Proof.Machine.exec (.pwait l) s = .next t ∧ (t.tile l).pc = (s.tile l).pc ∧ (t.tile l).stall = .pwait ∧
          t.rd F.LUMEN_Tt_STAT_WAITING l = 1)) ∧
    (code = 0x3F → s.job? r.jid ≠ none → (∀ n ∈ r.unit l, (s.tile n).skip = 0) →
      ∃ t, Sys2Proof.Machine.exec (.halt l) s = .next t ∧
        ∀ n ∈ r.unit l, (t.tile n).live = false ∧ (t.tile n).commits = [] ∧
          (t.tile n).delivered = (s.tile n).delivered + (s.tile n).commits.length ∧
          (n < 256 → t.rd F.LUMEN_Tt_STAT_HALTED n = 1)) ∧
    (code = 0x00 → ∀ u' : State, (∀ p, u' = s.setTile l { s.tile l with delay := some (1, .to p) } →
        ∃ t, Sys2Proof.Machine.exec (.nop l) u' = .next t ∧ (t.tile l).pc = p ∧ (t.tile l).delay = none) ∧
      (u' = s.setTile l { s.tile l with delay := some (1, .reti) } →
        ∃ t, Sys2Proof.Machine.exec (.nop l) u' = .next t ∧ (t.tile l).pc = (s.tile l).spc ∧
          ∀ n ∈ r.unit l, (t.tile n).sr = (s.tile n).ssr ∧ (t.tile n).roff = (s.tile n).sroff) ∧
      (∀ k, u' = s.setTile l { s.tile l with rep := some (k + 2, 0) } →
        ∃ t, Sys2Proof.Machine.exec (.nop l) u' = .next t ∧ (t.tile l).pc = (s.tile l).pc ∧
          (t.tile l).rep = some (k + 1, 0)))

/-- Events of running units. A unit that can go on does so after `n` cycles (R306, R308, R325); an interrupt saves the pc, SR and
ROFF, clears IE and enters at VEC five cycles on (R299, R300); TIMER and MAIL enter the synchroniser (R298); MAX_CYCLES passed is
fault 8 (R303); an item is written or lost (R305, R306); a tile that fails its parity is run again from its image or stops
(R310). -/
def Obligations.TileEventsTakeEffect : Prop :=
  ∀ (s : State) (l : Fin 256) (r : RunSt) (n : Nat), s.dead = false → s.run? (s.tile l).run = some r →
    (s.tile l).live = true → (s.tile l).lead = l.val → l.val ∈ r.unit l →
    ((s.tile l).stall = .hold → (∀ m ∈ r.unit l, (s.tile m).reqs.length < 4) → (s.tile l).since + n ≤ r.maxCycles →
      ∃ t, Sys2Proof.Machine.exec (.tileStallRelease l n) s = .next t ∧ t = { s with regs := t.regs, lumen := t.lumen } ∧
        (((t.tile l).stall = .none ∧ t.rd F.LUMEN_Tt_STAT_WAITING l = 0) ∨ t.irqDue r l = true) ∧
        (t.tile l).cyc = (s.tile l).cyc + n ∧ (t.tile l).pc = (s.tile l).pc) ∧
    ((s.tile l).stall = .waitin ∧ s.unitHasItem r l = true ∨ (s.tile l).stall = .waitout ∧ s.unitHasSlot r l = true →
        UnitQuiet s l r (n + 1) →
      ∃ t, Sys2Proof.Machine.exec (.tileStallRelease l n) s = .next t ∧ t = { s with regs := t.regs, lumen := t.lumen } ∧
        (((t.tile l).pc = ((s.tile l).pc + 1) % 2048 ∧ (t.tile l).stall = .none ∧ (t.tile l).cyc = (s.tile l).cyc + n + 1) ∨
          ((t.tile l).pc = (s.tile l).pc ∧ t.irqDue r l = true))) ∧
    ((s.tile l).stall = .none → s.irqDue r l = true → (s.tile l).since + 5 ≤ r.maxCycles →
      ∃ t, Sys2Proof.Machine.exec (.tileInterrupt l) s = .next t ∧ t = { s with regs := t.regs, lumen := t.lumen } ∧
        (t.tile l).pc = (s.tile l).vec ∧ t.rd F.LUMEN_Tt_IRQ_CNT_COUNT l = min (s.rd F.LUMEN_Tt_IRQ_CNT_COUNT l + 1) 0xFFFFFFFF ∧
        ∀ m ∈ r.unit l, (t.tile m).spc = (s.tile l).pc ∧ (t.tile m).sr.testBit 0 = false ∧
          (t.tile m).cyc = (s.tile m).cyc + 5 ∧ (t.tile m).sroff = (t.tile m).roff ∧
          ((s.tile m).pend = [] → (t.tile m).ssr = (s.tile m).sr ∧ (t.tile m).sroff = (s.tile m).roff)) ∧
    ((s.tile l).stall = .waitin → (s.tile l).since ≤ r.maxCycles →
      ∃ t, Sys2Proof.Machine.exec (.tileTimer l) s = .next t ∧
        t = { s with regs := t.regs, lumen := t.lumen } ∧ (t.tile l).cyc % 2 ^ 32 = (s.tile l).tcmp % 2 ^ 32 ∧
        (s.tile l).cyc < (t.tile l).cyc ∧ (t.tile l).cyc ≤ (s.tile l).cyc + 2 ^ 32 ∧ (t.tile l).pc = (s.tile l).pc ∧
        ((t.tile l).cyc + 2, 2, true) ∈ (t.tile l).sync) ∧
    ((s.tile l).stall = .waitout → (s.tile l).timed = true → (s.tile l).since ≤ r.maxCycles →
      ∃ t, Sys2Proof.Machine.exec (.tileOverrun l) s = .next t ∧
        ∀ m ∈ r.unit l, (t.tile m).live = false ∧ (m < 256 → t.rd F.LUMEN_Tt_FAULT_CODE m = 8 ∧
          t.rd F.LUMEN_Tt_STAT_FAULT m = 1 ∧ t.rd F.LUMEN_Tt_STAT_WAITING m = 0)) ∧
    (r.src = 2 → (s.tile l).dry = true → ∀ x rest, (s.tile l).arrived = x :: rest →
      ∃ t, Sys2Proof.Machine.exec (.itemDelivery l) s = .next t ∧ t = { s with regs := t.regs, lumen := t.lumen } ∧
        (t.tile l).arrived = rest ∧
        ((s.tile l).held.length < r.inSlots → (t.tile l).seq = (s.tile l).seq + 1 ∧ (t.tile l).lostNext = false ∧
          ∃ i, (t.tile l).held = (s.tile l).held ++ [i] ∧ i.slot = (s.tile l).seq % r.inSlots ∧ i.taken = false ∧
            i.data.length = r.itemElems ∧ i.data.take x.data.length = x.data.take r.itemElems) ∧
        (r.inSlots ≤ (s.tile l).held.length → (t.tile l).held = (s.tile l).held ∧ (t.tile l).lostNext = true ∧
          t.rd F.LUMEN_Tt_LOST_CNT_COUNT l = min (s.rd F.LUMEN_Tt_LOST_CNT_COUNT l + 1) 0xFFFFFFFF)) ∧
    (∀ i, s.lumen.images.find? (fun (i : ImageSt) => i.id = (s.tile l).image) = some i → (s.tile l).stall = .parity → r.recomp = true →
      ∃ t, Sys2Proof.Machine.exec (.tileParityRecovery l true) s = .next t ∧ t = { s with regs := t.regs, lumen := t.lumen } ∧
        t.rd F.LUMEN_Tt_RECOMP_CNT_COUNT l = min (s.rd F.LUMEN_Tt_RECOMP_CNT_COUNT l + 1) 0xFFFFFFFF ∧
        ∀ m ∈ r.unit l, (t.tile m).live = true ∧ (t.tile m).pc = (t.tile m).entry ∧ (t.tile m).cyc = (s.tile m).cyc ∧
          (t.tile m).stall = .none ∧ (t.tile m).held.map (·.data) = (s.tile m).held.map (·.data) ∧
          (t.tile m).avail = (s.tile m).held.length) ∧
    ((s.tile l).stall = .parity → r.recomp = false →
      ∃ t, Sys2Proof.Machine.exec (.tileParityRecovery l true) s = .next t ∧
        ∀ m ∈ r.unit l, (t.tile m).live = false ∧ (m < 256 → t.rd F.LUMEN_Tt_STAT_FAULT m = 1))

/-- The mailbox, pool accesses and march tests. A MAIL write is seen by its tile two cycles later (R298); a pool access completes in
order, reading or writing eight bytes through its view (R326, R327); a march test on request takes no held page and, at its end,
leaves its results, with the pages it tested destructively at zero (R330, R331, R333). -/
def Obligations.MailPoolAndMarch : Prop :=
  (∀ (s : State) (l : Fin 256) (v : Word), s.dead = false →
    ∃ t, Sys2Proof.Machine.exec (.tileMailWrite l v) s = .next t ∧ t = { s with regs := t.regs, lumen := t.lumen } ∧
      t.rd F.LUMEN_Tt_MAIL_VALUE l = v.toNat ∧ t.tile l = { s.tile l with sync := (s.tile l).sync ++ [((s.tile l).cyc + 2, 3, true)] } ∧
      ∀ m, m ≠ l.val → t.tile m = s.tile m) ∧
  (∀ (s : State) (l : Fin 256) (q : PoolReq) (rest : List PoolReq) (k : Nat), s.dead = false → (s.tile l).reqs = q :: rest →
    k < 4096 →
    (q.target ≠ none → ∃ t, Sys2Proof.Machine.exec (.poolAccessComplete l k true) s = .next t ∧ (t.tile l).poolBad = true ∧
      (t.tile l).reqs = rest ∧ t.rd F.POOL_PAR_CNT_COUNT = min (s.rd F.POOL_PAR_CNT_COUNT + 1) 0xFFFFFFFF ∧
      t.rd F.POOL_PAR_ADDR_ADDR = q.addr % 2 ^ 25) ∧
    ∃ t, Sys2Proof.Machine.exec (.poolAccessComplete l k false) s = .next t ∧ (t.tile l).reqs = rest ∧
      t = { s with regs := t.regs, lumen := t.lumen, pool := t.pool } ∧
      t.rd F.POOL_WAIT_MAX_CYCLES = max (s.rd F.POOL_WAIT_MAX_CYCLES) k ∧
      (∀ p, q.target = some p → t.pool = s.pool ∧
        (t.tile l).got = (s.tile l).got ++ [(p, BitVec.ofNat 64 (leNat (s.poolRead q.addr 8)))]) ∧
      (q.target = none → q.view = 0 → (t.tile l).got = (s.tile l).got ∧ t.poolRead q.addr 8 = leBytes 8 q.data.toNat ∧
        ∀ a, a < q.addr ∨ q.addr + 8 ≤ a → t.poolRead a 1 = s.poolRead a 1)) ∧
  (∀ (s : State) (v : Word), s.dead = false → v.toNat.testBit 0 = true →
    let started : MarchRun := ⟨v.toNat / 4 % 4, v.toNat.testBit 1, false, s.phys⟩
    (s.poolJobs = 0 → s.pool.march = none → (v.toNat.testBit 1 = true ∨ s.heldPages = 0) →
      ∃ t, Sys2Proof.Machine.exec (.poolMarchGo v) s = .next t ∧ t.pool.march = some started ∧
        t = { s with regs := t.regs, pool := { s.pool with march := some started } } ∧
        t.flag F.POOL_MARCH_STAT_BUSY = true ∧ t.flag F.POOL_STAT_MARCH_HOLD = true) ∧
    (s.poolJobs ≠ 0 ∨ s.pool.march ≠ none ∨ (v.toNat.testBit 1 = false ∧ s.heldPages ≠ 0) →
      ∃ t, Sys2Proof.Machine.exec (.poolMarchGo v) s = .next t ∧ t.flag F.POOL_MARCH_STAT_REJ_BUSY = true ∧
      t = { s with regs := t.regs })) ∧
  (∀ (s : State) (m : MarchRun), s.dead = false → s.pool.march = some m → m.startup = false →
    s.phys ≤ m.began + s.marchTicks m →
    (∀ a bg, a < 2 ^ 25 → s.marchCovers m (a / 4096) = true → a / 4096 ∉ s.pool.retired →
      ∃ t, Sys2Proof.Machine.exec (.marchTestDone [(a, bg)]) s = .next t ∧ t.pool.retired = s.pool.retired ++ [a / 4096] ∧
        t.flag F.POOL_MARCH_STAT_FAIL = true ∧ t.rd F.POOL_MARCH_FIRST_ADDR = a / 64 * 64 ∧ t.pool.march = none) ∧
    ∃ t, Sys2Proof.Machine.exec (.marchTestDone []) s = .next t ∧ t.pool.march = none ∧
      t.rd F.POOL_MARCH_TIME_US = s.marchTicks m / 65536000 ∧
      t.phys = m.began + s.marchTicks m ∧ t.flag F.POOL_MARCH_STAT_DONE = true ∧ t.flag F.POOL_MARCH_STAT_BUSY = false ∧
      t.flag F.POOL_STAT_MARCH_HOLD = false ∧ t.flag F.POOL_MARCH_STAT_FAIL = false ∧ t.pool.retired = s.pool.retired ∧
      (m.preserving = false → ∀ p, p < 8192 → s.marchCovers m p = true → ∀ o, o < 4096 → t.poolRead (4096 * p + o) 1 = [0]) ∧
      (m.preserving = true → t.pool.mem = s.pool.mem ∧ t.pool.fill = s.pool.fill))

/-! ### Data movers (R335-R357) -/

/-- Channels, grants and elements. A held channel becomes READY when its credit covers its element (R337, R339), or when its
producer has been silent for MOVER_CTRL.FLUSH (R346); an idle mover starts its next READY channel and reads the host where the
element does (R338, R343); an element's end writes its bytes, takes them from the credit and counts (R337, R339, R340); a read
request that fails ends the job ADDRESS_ERROR (R50, R349). -/
def Obligations.MoversMoveElements : Prop :=
  (∀ (s : State) (c : Fin 64) (j : Job) (e : Elem), s.dead = false → (s.chan c).st = .held → s.nextElem c = some (j, e) →
    j.elemProduced e = false → e.len ≤ 262144 → 0 < (s.chan c).rate → (s.chan c).creditAt ≤ s.phys →
    ∃ t, Sys2Proof.Machine.exec (.moverElementReady c) s = .next t ∧
      t.phys = s.phys + ceilDiv ((((e.len * 6553600 : Nat) : Int) - s.creditOf c).toNat) (s.chan c).rate ∧
      t.chan c = { s.chan c with st := .ready, count := e.len, readyAt := t.phys, cur := some e } ∧
      (t.job? j.jid).map (·.elems) = some (dropFirst c j.elems) ∧ ∀ x, x ≠ c.val → t.chan x = s.chan x) ∧
  (∀ (s : State) (c : Fin 64) (j : Job) (e : Elem), s.dead = false → (s.chan c).st = .held → s.nextElem c = some (j, e) →
    j.elemProduced e = true → j.produced ≠ [] → j.prodClosed = false →
    j.produced.length ≤ 262144 → ((j.produced.length * 6553600 : Nat) : Int) ≤ s.creditOf c → (s.chan c).creditAt ≤ s.phys →
    ∃ t, Sys2Proof.Machine.exec (.producerFlushTimeout c) s = .next t ∧
      t.phys = max s.phys (j.prodAt + max (s.rd F.MOVER_CTRL_FLUSH) 1 * 65536000) ∧
      t.chan c = { s.chan c with st := .ready, count := min e.len j.produced.length, readyAt := t.phys, cur := some e }) ∧
  (∀ (s : State) (m : Fin 8) (c : Nat), s.dead = false → s.activeChan m = none → s.nextReady m = some c →
    ∃ t, Sys2Proof.Machine.exec (.moverGrant m) s = .next t ∧ t = { s with regs := t.regs, out := t.out, host := t.host } ∧
      t.chan c = { s.chan c with st := .active } ∧ t.activeChan m = some c ∧ t.rd F.MOVER_Mm_STAT_CUR m = c % 8 ∧
      t.rd F.MOVER_Mm_WAIT_MAX_WAIT m =
        min (max (s.rd F.MOVER_Mm_WAIT_MAX_WAIT m) ((s.phys - (s.chan c).readyAt) / 655360)) 0xFFFFFFFF ∧
      (∀ j a n, s.job? (s.chan c).jid = some j → (s.chan c).cur = some (.fromHost a n) → t.out = s.out ++ [.hostRead a n]) ∧
      (∀ j a d, s.job? (s.chan c).jid = some j → (s.chan c).cur = some (.toHost a d) → t.out = s.out)) ∧
  (∀ (s : State) (m : Fin 8) (c : Nat) (j : Job) (a : Nat) (d data : Bytes), s.dead = false → s.activeChan m = some c →
    s.job? (s.chan c).jid = some j → (s.chan c).cur = some (.toHost a d) → (s.chan c).count = d.length → j.cut = 0 →
    j.elems = [] → j.autoEnd = false → j.ending = false → j.kind ≠ 0x31 →
    ∃ t k, Sys2Proof.Machine.exec (.moverElementEnd m 0 data 0 []) s = .next t ∧
      t = { s with regs := t.regs, out := s.out ++ [.hostWrite a d], host := t.host } ∧
      t.chan c = { s.chan c with
        st := .held, cur := none, credit := s.creditOf c - ((d.length * 6553600 : Nat) : Int), creditAt := s.phys } ∧
      t.rd F.MOVER_Mm_ELEM_CNT_COUNT m = min (s.rd F.MOVER_Mm_ELEM_CNT_COUNT m + 1) 0xFFFFFFFF ∧
      KeepsWords s t [0x201008 + 0x100 * m.val] ∧
      t.job? j.jid = some k ∧ k.delivered = j.delivered + d.length ∧ k.elems = []) ∧
  (∀ (s : State) (m : Fin 8) (c : Nat) (j : Job) (i src dst len : Nat) (data : Bytes), s.dead = false →
    s.activeChan m = some c → s.job? (s.chan c).jid = some j → (s.chan c).cur = some (.move i src dst len) →
    (s.chan c).count = len → j.cut = 0 → j.kind = 0x40 → j.srcSpace = 0 → j.dstSpace = 1 → dst + len ≤ 2 ^ 25 →
    data.length = len →
    ∃ t, Sys2Proof.Machine.exec (.moverElementEnd m 0 data 0 []) s = .next t ∧ t.poolRead dst len = data ∧
      (∀ b, b < dst ∨ dst + len ≤ b → t.poolRead b 1 = s.poolRead b 1) ∧
      t.rd F.MOVER_Mm_ELEM_CNT_COUNT m = min (s.rd F.MOVER_Mm_ELEM_CNT_COUNT m + 1) 0xFFFFFFFF) ∧
  (∀ (s : State) (c : Fin 64) (j : Job) (i src dst len : Nat) (data : Bytes), s.dead = false → (s.chan c).st = .active →
    s.job? (s.chan c).jid = some j → (s.chan c).cur = some (.move i src dst len) → j.kind = 0x40 → j.srcSpace = 0 →
    j.ending = false → s.cqOpen j.cq = false →
    ∃ t k, Sys2Proof.Machine.exec (.hostReadError c data) s = .next t ∧ (t.chan c).st = .held ∧ (t.chan c).cur = none ∧
      t.job? j.jid = some k ∧ k.ending = true ∧ k.fAddress = true ∧ k.elems = [] ∧
      (j.fStopped = false → k.finalStatus false = 0x20))

/-! ### The record-store memory controllers (R359-R378) -/

/-- Training, tracking, requests, command slots, refreshes, reads, commits and the relock. Training sets the centres and takes a
stack offline where a pseudo-channel fails (R363, R365); tracking moves a centre one tap (R364); a request joins its queue, merges
or is forwarded (R369, R372); a slot refreshes, opens, closes or serves (R366, R367, R369); a read reaches its port as read, with
its damage (R375); a commit is refused or applies 64 ns later (R377); after MPLL's relock self-refresh ends (R376). -/
def Obligations.HbmControllersServe : Prop :=
  (∀ (s : State) (k : Fin 2) (us : Nat) (lanes : List (Nat × BitVec 128 × BitVec 128)), s.dead = false →
    s.flag F.HBMC_Ss_STAT_TRAINED k = false → s.flag F.CLOCK_MPLL_STAT_LOCKED = true → lanes.length = 128 →
    ∃ t, Sys2Proof.Machine.exec (.hbmTrainingDone k us lanes) s = .next t ∧ t.flag F.HBMC_Ss_STAT_TRAINED k = true ∧
      t.rd F.HBMC_Ss_PC_FAIL_PC k = failedPcs lanes ∧
      (∀ i l, lanes[i]? = some l → 24 ≤ (longestTaps l.2.1).2 →
        kget t.hbm.centres (256 * k.val + 2 * i) 0 = (longestTaps l.2.1).1 + ((longestTaps l.2.1).2 - 1) / 2) ∧
      (failedPcs lanes = 0 → t = { s with regs := t.regs, hbm := t.hbm }) ∧
      (failedPcs lanes ≠ 0 → t.flag F.HBMC_Ss_STAT_OFFLINE k = true ∧ t.flag F.GLOBAL_STATUS_DEGRADED = true)) ∧
  (∀ (s : State) (k : Fin 2) (lane : Fin 128) (write : Bool), s.dead = false → s.hbmPaused = false →
    s.flag F.HBMC_Ss_STAT_TRAINED k = true →
    let i := 256 * k.val + 2 * lane.val + b2n write
    (∀ above, ∃ t, Sys2Proof.Machine.exec (.hbmTracking k lane write (!above) above) s = .next t ∧
      t = { s with regs := t.regs, hbm := { s.hbm with centres := t.hbm.centres } } ∧
      kget t.hbm.centres i 0 = (if above then min (kget s.hbm.centres i 0 + 1) 127 else kget s.hbm.centres i 0 - 1) ∧
      t.rd F.HBMC_Ss_TRACK_CNT_COUNT k = min (s.rd F.HBMC_Ss_TRACK_CNT_COUNT k + 1) 0xFFFFFFFF) ∧
    ∀ both, Sys2Proof.Machine.exec (.hbmTracking k lane write both both) s = .next s) ∧
  (∀ (s : State) (p : Fin 64) (bank : Fin 48) (must : Bool), s.dead = false → s.hbmPaused = false →
    (∃ t, Sys2Proof.Machine.exec (.hbmRefresh p bank must) s = .next t ∧ t = { s with regs := t.regs, hbm := t.hbm } ∧
      t.pc p = { s.pc p with due := (s.pc p).due.filter (fun d => d.1 ≠ bank.val) ++ [(bank.val, must)] }) ∧
    (∀ draw, (s.pc p).due = [(bank.val, true)] →
      ∃ t, Sys2Proof.Machine.exec (.commandSlot p [] draw) s = .next t ∧ t = { s with regs := t.regs, hbm := t.hbm } ∧
        t.pc p = { s.pc p with due := [], rows := kset (s.pc p).rows bank.val 0 0 })) ∧
  (∀ (s : State) (p : Fin 64) (q : HbmReq) (draw : Fin 65536), s.dead = false → s.hbmPaused = false →
    (s.pc p).due = [] → (s.pc p).nr = [] → (s.pc p).priv = [] → (s.pc p).held = [] → q.addr / stackBytes = p.val / 32 →
    (s.place q.addr).pc = p.val % 32 →
    let bank := (s.place q.addr).bank
    let row := kget (s.pc p).rows bank 0
    ((s.pc p).rd = [q] ∧ (s.pc p).wr = [] ∧ q.write = false ∨ (s.pc p).rd = [] ∧ (s.pc p).wr = [q] ∧ q.write = true) →
    ∃ t, Sys2Proof.Machine.exec (.commandSlot p [] draw) s = .next t ∧
      (row = 0 → kget (t.pc p).rows bank 0 = (s.place q.addr).row + 1 ∧ (t.pc p).rd = (s.pc p).rd ∧ (t.pc p).wr = (s.pc p).wr ∧
        (t.pc p).nr = if draw.val < s.nrProb (p.val / 32) then [(bank, (s.place q.addr).row)] else []) ∧
      (row ≠ 0 → row ≠ (s.place q.addr).row + 1 → kget (t.pc p).rows bank 0 = 0 ∧ (t.pc p).rd = (s.pc p).rd ∧ t.hbm.mem = s.hbm.mem) ∧
      (row = (s.place q.addr).row + 1 → (t.pc p).rd = [] ∧ (t.pc p).wr = [] ∧
        (q.write = false → t.hbm.mem = s.hbm.mem ∧
          (t.pc p).flight = (s.pc p).flight ++ [(q, s.hbmBytes q.addr 64, s.spareOf q.addr)]) ∧
        (q.write = true → q.mask = BitVec.allOnes 64 → q.data.length = 64 → t.hbmBytes q.addr 64 = q.data ∧
          (q.crc = true → t.spareOf q.addr = crc16 q.data q.addr)))) ∧
  (∀ (s : State) (k : Fin 2) (port : Fin 8) (addr : Nat) (mask : BitVec 64) (data : Bytes) (write crc : Bool), s.dead = false →
    let a := addr / 64 * 64
    let p := 32 * k.val + (s.place a).pc
    a / stackBytes = k.val → (2 ≤ port.val ∨ write = true) → s.flag F.HBMC_Ss_STAT_OFFLINE k = false →
    s.flag F.HBMC_Ss_STAT_TRAINED k = true → s.hbmPaused = false → (s.pc p).held = [] →
    (∀ q : HbmReq, q = ⟨port, write, a, mask, data, crc, s.phys, s.phys + s.latency k port, s.hbm.seq⟩ →
      (s.pc p).pendingWrite a = none → (s.pc p).rd.length < 32 → (s.pc p).wr.length < 64 → (s.pc p).priv.length < 32 →
      ∃ t, Sys2Proof.Machine.exec (.hbmRequest k port write addr mask data crc) s = .next t ∧
        t = { s with regs := t.regs, hbm := { s.hbm with pcs := t.hbm.pcs, seq := s.hbm.seq + 1 } } ∧
        (t.pc p).priv = (s.pc p).priv ++ (if port.val < 2 then [q] else []) ∧
        (t.pc p).wr = (s.pc p).wr ++ (if 2 ≤ port.val ∧ write = true then [q] else []) ∧
        (t.pc p).rd = (s.pc p).rd ++ (if write = false then [q] else [])) ∧
    (∀ e, (s.pc p).pendingWrite a = some e → (s.pc p).wr = [e] → (s.pc p).priv = [] → write = true →
      ∃ t, Sys2Proof.Machine.exec (.hbmRequest k port write addr mask data crc) s = .next t ∧
        (t.pc p).wr = [{ e with mask := e.mask ||| mask, data := mergeBytes mask data e.data }]) ∧
    (∀ e, (s.pc p).pendingWrite a = some e → write = false → crc = true → e.mask = BitVec.allOnes 64 → e.data.length = 64 →
      ∃ t, Sys2Proof.Machine.exec (.hbmRequest k port write addr mask data crc) s = .next t ∧
        t.hbm.last = some ⟨port, a, e.data, 0⟩ ∧
        t.rd F.HBMC_Ss_FWD_CNT_COUNT k = min (s.rd F.HBMC_Ss_FWD_CNT_COUNT k + 1) 0xFFFFFFFF)) ∧
  (∀ (s : State) (p : Fin 64) (q : HbmReq) (data : Bytes) (spare : Nat) (rest : List (HbmReq × Bytes × Nat)), s.dead = false →
    s.hbmPaused = false → (s.pc p).flight = (q, data, spare) :: rest → q.port < 8 → q.addr / stackBytes = p.val / 32 →
    ∃ t, Sys2Proof.Machine.exec (.hbmReadComplete p []) s = .next t ∧ (t.pc p).flight = rest ∧
      t.hbm.last = some ⟨q.port, q.addr, data, damage q.crc data spare q.addr⟩ ∧
      (q.crc = true → damage true data spare q.addr ≠ 0 → t.rd F.HBMC_Ss_CRC_CNT_COUNT (q.addr / stackBytes) =
        min (s.rd F.HBMC_Ss_CRC_CNT_COUNT (q.addr / stackBytes) + 1) 0xFFFFFFFF)) ∧
  (∀ (s : State) (k : Fin 2) (v : Word), s.dead = false → v.toNat.testBit 0 = true →
    let snap := s.shadow (hbmcLo k) (hbmcHi k)
    snap ≠ lastPend (kget s.hbm.pend k none) (s.active (hbmcLo k) (hbmcHi k)) →
    (s.hbmReserved k = false → s.hbmOccupied k = false → hbmcBad snap k = false →
      ∃ t, Sys2Proof.Machine.exec (.hbmcCommit k v) s = .next t ∧ t.flag F.HBMC_Ss_COMMIT_STAT_PENDING k = true ∧
        t = { s with regs := t.regs, hbm := { s.hbm with pend := kset s.hbm.pend k (addPend (kget s.hbm.pend k none) (s.phys + 4194304) snap) none } }) ∧
    (s.hbmReserved k = true → ∃ t, Sys2Proof.Machine.exec (.hbmcCommit k v) s = .next t ∧
      t = { s with regs := t.regs } ∧ t.flag F.HBMC_Ss_COMMIT_STAT_REJ_BUSY k = true) ∧
    (s.hbmReserved k = false → s.hbmOccupied k = false → hbmcBad snap k = true →
      ∃ t, Sys2Proof.Machine.exec (.hbmcCommit k v) s = .next t ∧
        t = { s with regs := t.regs } ∧ t.flag F.HBMC_Ss_COMMIT_STAT_REJ_INVALID k = true)) ∧
  (∀ (s : State) (k : Fin 2) (p : PendCommit), s.dead = false → kget s.hbm.pend k none = some p →
    ∃ t, Sys2Proof.Machine.exec (.hbmcCommitApply k) s = .next t ∧ t.phys = max s.phys p.due ∧
      t.act = (s.applyShadow (hbmcLo k) (hbmcHi k) p.snap).act ∧ kget t.hbm.pend k none = p.after ∧
      t.flag F.HBMC_Ss_COMMIT_STAT_PENDING k = p.after.isSome ∧ (t.grain k = s.grain k → t.hbm.mem = s.hbm.mem)) ∧
  (∀ (s : State) (found : List (Fin 2 × Fin 128 × Bool × Bool × Bool)), s.dead = false → s.hbm.mpllHold = true →
    s.hbm.stopHold = false → s.flag F.CLOCK_MPLL_STAT_LOCKED = true → (found.map (fun f => (f.1, f.2.1, f.2.2.1))).Nodup →
    let moves (k : Nat) : Nat := (found.filter (fun f => f.1.val = k && (f.2.2.2.1 != f.2.2.2.2))).length
    ∃ t, Sys2Proof.Machine.exec (.mpllRelockResume found) s = .next t ∧ t.hbm.mpllHold = false ∧ t.hbmPaused = false ∧
      t.flag F.HBMC_Ss_STAT_SREF 0 = false ∧ t.flag F.HBMC_Ss_STAT_SREF 1 = false ∧
      t.rd F.HBMC_Ss_TRACK_CNT_COUNT 0 = min (s.rd F.HBMC_Ss_TRACK_CNT_COUNT 0 + moves 0) 0xFFFFFFFF ∧
      t.rd F.HBMC_Ss_TRACK_CNT_COUNT 1 = min (s.rd F.HBMC_Ss_TRACK_CNT_COUNT 1 + moves 1) 0xFFFFFFFF)

/-! ### Clocks, device time and the Ernos array (R379-R398) -/

/-- The loops and their references. A loop locks at the eighth equal window and loses lock by a difference of 2 (R383); SSYN also
by two phase errors beyond tolerance (R383); CPLL falls back on XIN and returns 1 ms after its relock, MPLL's loss puts the
stacks in self-refresh, and without XIN the device stops (R376, R387); a reference that is lost makes SSYN coast (R382, R384), and
one that returns is built out or waits (R385); a coast that lasts too long moves SSYN to XIN (R386); commits are refused or
applied (R380). -/
def Obligations.ClocksFollowTheirReferences : Prop :=
  ∀ s : State, s.dead = false →
    (∀ (l : Fin 3) (diff : Nat), s.comparing l = true → let x := kget s.clk.loops l {}
      let set (y : LoopSt) : State := { s with clk := { s.clk with loops := kset s.clk.loops l y {} } }
      (s.flag (lockedFld l) = false → diff = 0 → x.eq < 7 →
        Sys2Proof.Machine.exec (.lockWindow l diff) s = .next (set { eq := x.eq + 1 })) ∧
      (s.flag (lockedFld l) = false → diff ≠ 0 → Sys2Proof.Machine.exec (.lockWindow l diff) s = .next (set {})) ∧
      (s.flag (lockedFld l) = false → diff = 0 → 7 ≤ x.eq →
        ∃ t, Sys2Proof.Machine.exec (.lockWindow l diff) s = .next t ∧ t.flag (lockedFld l) = true) ∧
      (s.flag (lockedFld l) = true → s.running = true → (2 ≤ diff ∨ diff = 1 ∧ x.one = true) →
        ∃ t, Sys2Proof.Machine.exec (.lockWindow l diff) s = .next t ∧ (NothingRuns s → t.flag (lockedFld l) = false)) ∧
      (s.flag (lockedFld l) = true → (diff = 0 ∨ diff = 1 ∧ x.one = false) →
        Sys2Proof.Machine.exec (.lockWindow l diff) s = .next (set { eq := 0, one := decide (diff = 1) }))) ∧
    (∀ e1 e2 : Nat, s.comparing 0 = true → s.flag F.CLOCK_SSYN_STAT_LOCKED = true → s.running = true →
      let tol := s.rd F.CLOCK_PHASE_TOL_PS
      (tol < e1 ∧ tol < e2 → ∃ (t u : State), Sys2Proof.Machine.exec (.ssynPhaseError e1 e2) s = .next t ∧ t = u.blocksLoss s.boundary ∧
        u.flag F.CLOCK_SSYN_STAT_LOCKED = false ∧ u.flag F.CLOCK_SSYN_STAT_LOCK_LOST = true ∧ u.clk.lossT = some s.boundary ∧
        u.rd F.CLOCK_SSYN_LOSS_CNT_COUNT = min (s.rd F.CLOCK_SSYN_LOSS_CNT_COUNT + 1) 0xFFFFFFFF ∧
        (NothingRuns s → t.flag F.CLOCK_SSYN_STAT_LOCKED = false ∧ t.flag F.RECORD_CHn_STAT_CLOCK_HOLD 0 = true)) ∧
      (e1 ≤ tol ∨ e2 ≤ tol → Sys2Proof.Machine.exec (.ssynPhaseError e1 e2) s = .next s)) ∧
    (s.present 0 = true → s.flag F.CLOCK_CPLL_STAT_LOCKED = true →
      ∃ t, Sys2Proof.Machine.exec .cpllFallback s = .next t ∧ t.flag F.CLOCK_CPLL_STAT_FALLBACK = true ∧
        t.flag F.CLOCK_CPLL_STAT_LOCKED = false ∧ t.flag F.CLOCK_CPLL_STAT_LOCK_LOST = true ∧ t.dead = false ∧
        t.rd F.CLOCK_CPLL_LOSS_CNT_COUNT = min (s.rd F.CLOCK_CPLL_LOSS_CNT_COUNT + 1) 0xFFFFFFFF) ∧
    (s.flag F.CLOCK_CPLL_STAT_FALLBACK = true → s.flag F.CLOCK_CPLL_STAT_LOCKED = true →
      ∃ t, Sys2Proof.Machine.exec .cpllFallbackReturn s = .next t ∧ t.phys = max s.phys (s.clk.cpllAt + 65536000000) ∧
        t.flag F.CLOCK_CPLL_STAT_FALLBACK = false ∧ t = { s.toPhys (s.clk.cpllAt + 65536000000) with regs := t.regs }) ∧
    (s.flag F.CLOCK_MPLL_STAT_LOCKED = true →
      ∃ t, Sys2Proof.Machine.exec .mpllLockLost s = .next t ∧ t.flag F.CLOCK_MPLL_STAT_LOCKED = false ∧ t.hbm.mpllHold = true ∧
        t.rd F.CLOCK_MPLL_LOSS_CNT_COUNT = min (s.rd F.CLOCK_MPLL_LOSS_CNT_COUNT + 1) 0xFFFFFFFF ∧
        t.hbm.mem = s.hbm.mem ∧ (s.hbmPaused = false → t.flag F.HBMC_Ss_STAT_SREF 0 = true ∧ t.flag F.HBMC_Ss_STAT_SREF 1 = true)) ∧
    (s.present 0 = false → Sys2Proof.Machine.exec .coreClockLoss s = .next { s with dead := true }) ∧
    (∀ xin refin ern : Nat, s.present 0 = true → s.present 1 = true → s.present 2 = true →
      let mhz := refinMhz.getD (s.ract F.CLOCK_SSYN_CTRL_REFIN_FREQ) 100
      2812500 ≤ xin ∧ xin ≤ 3437500 → 2812500 ≤ ern ∧ ern ≤ 3437500 →
      9 * (mhz * 31250) ≤ 10 * refin ∧ 10 * refin ≤ 11 * (mhz * 31250) →
      ∃ t, Sys2Proof.Machine.exec (.presenceWindow xin refin ern) s = .next t ∧ t = { s with regs := t.regs, clk := t.clk } ∧
        t.rd F.CLOCK_REFIN_MEAS_KHZ = min (refin * 4 / 125) 0x3FFFF ∧ KeepsWords s t [F.CLOCK_REFIN_MEAS_KHZ.base] ∧
        ∀ r ∈ [0, 1, 2], kget t.clk.good r 0 = min (kget s.clk.good r 0 + 1) 2) ∧
    (∀ r : Fin 3, r.val ≠ 0 → r.val ≠ s.selRef → Sys2Proof.Machine.exec (.missingEdge r) s = .next s) ∧
    (∀ r : Fin 3, r.val = 0 ∨ r.val = s.selRef → s.present r = true → (r.val = 0 → s.flag F.CLOCK_CPLL_STAT_FALLBACK = false ∧ s.amu.seq = none ∧ s.amu.slot = none) →
      ∃ t, Sys2Proof.Machine.exec (.missingEdge r) s = .next t ∧ t.present r = false ∧ kget t.clk.good r 0 = 0 ∧
        (r.val = 0 → t.flag F.POWER_ALERT_XIN = true) ∧
        (r.val = s.effRef → s.flag F.CLOCK_SSYN_STAT_LOCKED = true → s.flag F.CLOCK_SSYN_STAT_COASTING = false →
          t.flag F.CLOCK_SSYN_STAT_COASTING = true ∧ t.flag F.CLOCK_SSYN_STAT_REF_LOST = true ∧ t.clk.coastAt = some s.phys ∧
          t.rd F.CLOCK_COAST_CNT_COUNT = min (s.rd F.CLOCK_COAST_CNT_COUNT + 1) 0xFFFFFFFF)) ∧
    (∀ step : Int, s.clk.unmeasured = true → s.inLoss = false →
      ∃ t, Sys2Proof.Machine.exec (.referenceReturn step) s = .next t ∧ t.rd F.CLOCK_REFRET_STEP_STEP = unsg 32 step ∧
        t.rd F.CLOCK_REFRET_CNT_COUNT = min (s.rd F.CLOCK_REFRET_CNT_COUNT + 1) 0xFFFFFFFF ∧ t.clk.unmeasured = false ∧
        (step.natAbs ≤ 256 * s.rd F.CLOCK_REFRET_WINDOW_WINDOW → t.flag F.CLOCK_SSYN_STAT_RETURN_WAIT = false ∧
          t.flag F.CLOCK_SSYN_STAT_COASTING = false ∧ t.clk.coastAt = none) ∧
        (256 * s.rd F.CLOCK_REFRET_WINDOW_WINDOW < step.natAbs → t.flag F.CLOCK_SSYN_STAT_RETURN_WAIT = true)) ∧
    (∀ v : Word, v.toNat.testBit 0 = true →
      (s.flag F.CLOCK_SSYN_STAT_RETURN_WAIT = true → ∃ t, Sys2Proof.Machine.exec (.buildOut v) s = .next t ∧
        t = { s with regs := t.regs, clk := t.clk } ∧ t.flag F.CLOCK_SSYN_STAT_RETURN_WAIT = false ∧
        t.flag F.CLOCK_SSYN_STAT_COASTING = false ∧ t.clk.coastAt = none) ∧
      (s.flag F.CLOCK_SSYN_STAT_RETURN_WAIT = false → Sys2Proof.Machine.exec (.buildOut v) s = .next s)) ∧
    (∀ a : Nat, s.coastLimited = true → s.present 0 = true → s.inLoss = false → s.clk.coastAt = some a →
      ∃ t, Sys2Proof.Machine.exec .coastLimitExpiry s = .next t ∧
        t.phys = max s.phys (a + s.rd F.CLOCK_COAST_LIMIT_S * 65536000000000) ∧ t.flag F.CLOCK_SSYN_STAT_COASTING = false ∧
        t.flag F.CLOCK_SSYN_STAT_ON_XIN = true ∧ t.clk.coastAt = none) ∧
    (∀ v : Word, v.toNat.testBit 0 = true → let snap := s.shadow clkLo clkHi
      snap ≠ lastPend s.clk.pend (s.active clkLo clkHi) →
      (s.host.jobs = [] → s.flag F.CLOCK_SSYN_STAT_STEPPING = false → clkBad snap = false →
        ∃ t, Sys2Proof.Machine.exec (.clockCommit v) s = .next t ∧ t.flag F.CLOCK_COMMIT_STAT_PENDING = true ∧
          t = { s with regs := t.regs, clk := { s.clk with pend := addPend s.clk.pend (s.phys + 4194304) snap } }) ∧
      (s.host.jobs ≠ [] ∨ s.flag F.CLOCK_SSYN_STAT_STEPPING = true → ∃ t, Sys2Proof.Machine.exec (.clockCommit v) s = .next t ∧
        t = { s with regs := t.regs } ∧ t.flag F.CLOCK_COMMIT_STAT_REJ_BUSY = true) ∧
      (s.host.jobs = [] → s.flag F.CLOCK_SSYN_STAT_STEPPING = false → clkBad snap = true →
        ∃ t, Sys2Proof.Machine.exec (.clockCommit v) s = .next t ∧ t = { s with regs := t.regs } ∧
          t.flag F.CLOCK_COMMIT_STAT_REJ_INVALID = true)) ∧
    (∀ p : PendCommit, s.clk.pend = some p → let a := (s.applyShadow clkLo clkHi p.snap).act
      ∃ t, Sys2Proof.Machine.exec .clockCommitApply s = .next t ∧ t.phys = max s.phys p.due ∧ t.clk.pend = p.after ∧
        t.flag F.CLOCK_COMMIT_STAT_PENDING = p.after.isSome ∧ (ssynCfg a = ssynCfg s.act → t.act = a) ∧
        (ssynCfg a ≠ ssynCfg s.act → s.running = true → NothingRuns s → t.flag F.CLOCK_SSYN_STAT_LOCKED = false))

/-- Device time is read as one untorn value (R388): a read of CLOCK_TIME_LO, by its own command or as any register, returns the
low word of the device time of the SCLK cycle in progress and latches CLOCK_TIME_HI and CLOCK_EPOCH from the same cycle; a
read of either returns its latch, whether LO was read before or not, and changes nothing else. -/
def Obligations.DeviceTimeIsReadUntorn : Prop :=
  ∀ s : State, s.dead = false →
    (∃ t, Sys2Proof.Machine.exec .clockTimeRead s = .next t ∧ Sys2Proof.Machine.exec (.pairLoRead 0x3400030) s = .next t ∧
      t = { s with regs := t.regs, out := s.out ++ [.readData 0x3400030 (BitVec.ofNat 32 s.boundary)] } ∧
      KeepsWords s t [0x3400034, 0x3400038] ∧ t.rd F.CLOCK_TIME_HI_TIME = s.boundary / 2 ^ 32 % 2 ^ 32 ∧
      t.rd F.CLOCK_EPOCH_EPOCH = s.boundary / 2 ^ 64 % 2 ^ 32) ∧
    Sys2Proof.Machine.exec (.pairLoRead 0x3400034) s =
      .next { s with out := s.out ++ [.readData 0x3400034 (BitVec.ofNat 32 (s.rd F.CLOCK_TIME_HI_TIME))] } ∧
    Sys2Proof.Machine.exec (.pairLoRead 0x3400038) s =
      .next { s with out := s.out ++ [.readData 0x3400038 (BitVec.ofNat 32 (s.rd F.CLOCK_EPOCH_EPOCH))] }

/-- Device time and the array. The clock runs to the wrap of the stamp (R7);
the instant of an alignment steps the device by whole cycles of its offset, or finds it within tolerance, or past (R389, R396);
links come and go (R390); a probe records its link's delay (R392, R394); the end of an alignment counts its devices (R396, R398);
a member takes what the head sends (R396). -/
def Obligations.DeviceTimeAndErnos : Prop :=
  ∀ s : State, s.dead = false →
    (s.running = true → ∃ t, Sys2Proof.Machine.exec .epochWrap s = .next t ∧
      t.devTime = s.devTime + roundUp ((s.devTime / 2 ^ 64 + 1) * 2 ^ 64 - s.devTime) 32768 ∧
      t.devTime / 2 ^ 64 = s.devTime / 2 ^ 64 + 1 ∧ t.act = s.act) ∧
    (∀ r : AlignRun, s.isMember = false → s.clk.align = some r → r.passed = false →
      (s.devTime ≤ r.t → ∃ t, Sys2Proof.Machine.exec .timeStep s = .next t ∧
        let far := decide (s.rd F.ERNOS_ALIGN_TOL_TICKS < s.ownOffset.natAbs)
        t.clk.align = some { r with passed := true, own := s.ownOffset, stepped := far } ∧
        (far = false → t.devTime = (s.toDev r.t).devTime) ∧
        (far = true → NothingRuns s → t.devTime =
          ((((s.toDev r.t).boundary : Int) + Int.tdiv s.ownOffset 32768 * 32768) % (2 ^ 96 : Nat)).toNat)) ∧
      (r.t < s.devTime → ∃ t, Sys2Proof.Machine.exec .timeStep s = .next t ∧ t.clk.align = none ∧ t.devTime = s.devTime)) ∧
    (∀ (port : Fin 2) (toHead : Bool), (s.ract F.ERNOS_CTRL_PORT_EN).testBit port = true →
      ∃ t, Sys2Proof.Machine.exec (.ernLinkUp port toHead) s = .next t ∧ t = { s with regs := t.regs, clk := t.clk } ∧
        t.flag (if port.val = 0 then F.ERNOS_STAT_UP_UP else F.ERNOS_STAT_DN_UP) = true ∧
        (s.isMember = true → toHead = true → t.flag F.ERNOS_STAT_HEAD_SEEN = true ∧ t.clk.upstream = true ∧
          (s.clk.upstream = false → t.rd F.ERNOS_STAT_UPSTREAM = port.val))) ∧
    (∀ port : Fin 2, let f := if port.val = 0 then F.ERNOS_STAT_UP_UP else F.ERNOS_STAT_DN_UP
      (s.flag f = true → ∃ t, Sys2Proof.Machine.exec (.ernLinkDown port) s = .next t ∧ t.flag f = false ∧
        t.flag F.ERNOS_STAT_LINK_DOWN = true ∧
        t.rd F.ERNOS_LINK_DOWN_CNT_COUNT = min (s.rd F.ERNOS_LINK_DOWN_CNT_COUNT + 1) 0xFFFFFFFF) ∧
      (s.flag f = false → Sys2Proof.Machine.exec (.ernLinkDown port) s = .next s)) ∧
    (∀ (port : Fin 2) (delay head reach errors : Nat) (off : Int),
      s.flag (if port.val = 0 then F.ERNOS_STAT_UP_UP else F.ERNOS_STAT_DN_UP) = true →
      ∃ t, Sys2Proof.Machine.exec (.ernosProbe port delay head off reach errors) s = .next t ∧
        t.rd (if port.val = 0 then F.ERNOS_UP_DELAY_TICKS else F.ERNOS_DN_DELAY_TICKS) = min delay 0xFFFFFFFF ∧
        t.rd F.ERNOS_REACH_TICKS = min reach 0xFFFFFFFF ∧ t.flag F.ERNOS_STAT_TRIG_OK = decide (reach ≤ 2359296) ∧
        t.rd F.ERNOS_LINK_ERR_CNT_COUNT = min (s.rd F.ERNOS_LINK_ERR_CNT_COUNT + errors) 0xFFFFFFFF ∧
        (s.isMember = true → s.clk.upstream = true → s.rd F.ERNOS_STAT_UPSTREAM = port.val → off.natAbs < 2 ^ 31 →
          t.rd F.ERNOS_HEAD_DELAY_TICKS = min head 0xFFFFFFFF ∧ t.rd F.ERNOS_OFFSET_OFFSET = unsg 32 off)) ∧
    (∀ (r : AlignRun) (j : Job) (others : List AlignEntry) (reach : Nat), s.clk.align = some r → r.passed = true → s.inLoss = false →
      s.clk.holdEnd = none → s.ract F.ERNOS_CTRL_ROLE = 1 → others.length < 32 → s.job? r.jid = some j → j.fld 24 8 = 0 →
      j.ending = false → s.cqOpen j.cq = false →
      let far := if others.isEmpty then 0 else reach
      ∃ t k, Sys2Proof.Machine.exec (.arrayAlignDone others reach) s = .next t ∧ t.clk.align = none ∧ t.clk.alignedOnce = true ∧
        t.rd F.ERNOS_INDEX_SIZE = others.length + 1 ∧ t.job? j.jid = some k ∧ k.ending = true ∧
        k.fPartial = (decide (0 < countP (·.failed) others) || !decide (far ≤ 2359296)) ∧
        k.detail = b2n (!decide (far ≤ 2359296)) * 2 ^ 31 + (others.length + 1) * 2 ^ 16 +
          (countP (fun e => !e.failed && decide (e.tol < (e.offset + r.own).natAbs)) others + b2n r.stepped) * 2 ^ 8 +
          countP (·.failed) others) ∧
    (∀ (index hops : Fin 32) (head i : Nat) (delta : Int), s.isMember = true →
      (∃ t, Sys2Proof.Machine.exec (.sidebandMessage 0 index hops head i delta) s = .next t ∧ t = { s with regs := t.regs } ∧
        t.flag F.ERNOS_STAT_HEAD_SEEN = true ∧ t.rd F.ERNOS_INDEX_INDEX = index.val ∧ t.rd F.ERNOS_INDEX_HOPS = hops.val) ∧
      (delta.natAbs < 2 ^ 31 → ∃ t, Sys2Proof.Machine.exec (.sidebandMessage 1 index hops head i delta) s = .next t ∧
        t = { s with regs := t.regs } ∧ t.rd F.ERNOS_HEAD_DELAY_TICKS = min head 0xFFFFFFFF ∧
        t.rd F.ERNOS_OFFSET_OFFSET = unsg 32 delta) ∧
      Sys2Proof.Machine.exec (.sidebandMessage 2 index hops head i delta) s =
        .next { s with clk := { s.clk with order := some (roundUp i 32768, delta) } })

/-! ### The auxiliary measurement unit and the process loops (R401-R425) -/

/-- Commits, passes, outputs, swaps, injected conversions, result reads, the cold junction and the loops. A commit is refused or
applies 64 ns later (R425); a pass starts at its time (R411, R418); an output of the filter is not a result until its visit has
settled, and then is posted to its block (R403, R404, R411, R413); a swap restarts the settle count (R412); a conversion takes over
from the sequence and ends with its result (R412, R415, R417); a HDR read latches the block (R413); a loop's SET is clamped, and
its fault and watchdog are kept (R423, R424). -/
def Obligations.AmuMeasuresAndLoopsDrive : Prop :=
  ∀ s : State, s.dead = false →
    (∀ v : Word, v.toNat.testBit 0 = true → let snap := s.shadow 0x360000C 0x3600010
      snap ≠ lastPend s.amu.pend (s.active 0x360000C 0x3600010) →
      let bad : Prop := snap.rd F.AMU_INJ_CFG_ORDER 0 0 = 3 ∨ snap.rd F.AMU_INJ_CFG_OSR 0 0 < 32 ∨ 204800 < snap.rd F.AMU_INJ_CFG_OSR 0 0
      (s.host.jobs.any (fun j => j.kind = 0x51) = false → ¬bad →
        ∃ t, Sys2Proof.Machine.exec (.amuCommit v) s = .next t ∧ t.flag F.AMU_COMMIT_STAT_PENDING = true ∧
          t = { s with regs := t.regs, amu := { s.amu with pend := addPend s.amu.pend (s.phys + 4194304) snap } }) ∧
      (s.host.jobs.any (fun j => j.kind = 0x51) = true → ∃ t, Sys2Proof.Machine.exec (.amuCommit v) s = .next t ∧
        t = { s with regs := t.regs } ∧ t.flag F.AMU_COMMIT_STAT_REJ_BUSY = true) ∧
      (s.host.jobs.any (fun j => j.kind = 0x51) = false → bad → ∃ t, Sys2Proof.Machine.exec (.amuCommit v) s = .next t ∧
        t = { s with regs := t.regs } ∧ t.flag F.AMU_COMMIT_STAT_REJ_INVALID = true)) ∧
    (∀ p : PendCommit, s.amu.pend = some p →
      ∃ t, Sys2Proof.Machine.exec .amuCommitApply s = .next t ∧ t.phys = max s.phys p.due ∧ t.amu = { s.amu with pend := p.after } ∧
        t.act = (s.applyShadow 0x360000C 0x3600010 p.snap).act ∧ t.flag F.AMU_COMMIT_STAT_PENDING = p.after.isSome) ∧
    (∀ q : AmuSeq, s.amu.seq = some q → q.visit = none → s.flag F.AMU_STAT_XIN_HOLD = false → (q.passes = 0 ∨ q.pass < q.passes) →
      s.amu.slot = none →
      ∃ t, Sys2Proof.Machine.exec .amuPassStart s = .next t ∧
        t.phys = max s.phys (max (q.start + q.pass * q.interval) q.passEnd) ∧ t = { s.toPhys t.phys with amu := t.amu } ∧
        t.amu = { s.amu with seq := some { q.discard with visit := some 0, broken := false, clearAt := t.phys } }) ∧
    (∀ (q : AmuSeq) (n : Nat) (e : AmuEntry) (v : Int) (vref : Nat), s.amu.seq = some q → q.visit = some n → n < 16 →
      q.entries[n]? = some e → q.broken = false → s.flag F.AMU_STAT_XIN_HOLD = false →
      let at' := q.clearAt + (q.outs + 1) * e.tOut
      let x := ratioOf e v vref
      let y := if e.fir then (match q.prev with | some p => p.mean x | none => x) else x
      let r := amuConvert e y (decide (e.mode ≠ 0 ∧ vref < 500000000)) (s.rd F.AMU_CJC_T)
      (q.outs + 1 < e.settle → q.unsettled = 0 →
        ∃ t, Sys2Proof.Machine.exec (.amuOutput v vref) s = .next t ∧ t = { s.toPhys at' with amu := t.amu } ∧
          t.amu = { s.amu with seq := some { q with outs := q.outs + 1, prev := some x } }) ∧
      (e.settle ≤ q.outs + 1 → e.isrcMode ≠ 3 → q.resAddr = 0 → q.passes = 0 →
        ∃ t p, Sys2Proof.Machine.exec (.amuOutput v vref) s = .next t ∧ t.phys = max s.phys at' ∧
          t.rd F.AMU_RESULTn_HDR_NEW n = 1 ∧ t.rd F.AMU_RESULTn_HDR_SETTLED n = 1 ∧ t.rd F.AMU_RESULTn_HDR_OVR n = b2n r.ovr ∧
          t.rd F.AMU_RESULTn_HDR_SEQ n = (if s.rd F.AMU_RESULTn_HDR_SEQ n = 0xFFFF then 1 else s.rd F.AMU_RESULTn_HDR_SEQ n + 1) ∧
          kget t.amu.live n {} = ⟨r.value, (s.toPhys at').stamp, e.curve⟩ ∧ t.amu.seq = some p ∧ p.settled = q.settled + 1 ∧
          (q.posted + 1 < e.dwell → p.visit = some n ∧ p.posted = q.posted + 1) ∧
          (e.dwell ≤ q.posted + 1 → n + 1 < q.entries.length → p.visit = some (n + 1) ∧ p.posted = 0 ∧ p.outs = 0) ∧
          (e.dwell ≤ q.posted + 1 → n + 1 = q.entries.length → p.visit = none ∧ p.pass = q.pass + 1 ∧
            t.rd F.AMU_PASS_CNT_COUNT = min (s.rd F.AMU_PASS_CNT_COUNT + 1) 0xFFFFFFFF)) ∧
      (∀ w : Word, w.toNat.testBit 0 = true →
        (e.isrcMode = 2 → Sys2Proof.Machine.exec (.amuSwap w) s = .next { s with amu := { s.amu with seq := some { q with
          swapped := !q.swapped, outs := 0, prev := none, unsettled := e.settle - 1, clearAt := s.phys } } }) ∧
        (e.isrcMode ≠ 2 → Sys2Proof.Machine.exec (.amuSwap w) s = .next s))) ∧
    (∀ i : AmuInj, s.amu.slot = some i → i.started = none → s.flag F.AMU_STAT_XIN_HOLD = false →
      let slot := some { i with started := some s.phys }
      (s.amu.seq = none → Sys2Proof.Machine.exec .injectStart s = .next { s with amu := { s.amu with slot := slot } }) ∧
      (∀ q n, s.amu.seq = some q → q.visit = some n → q.broken = false → ∃ t, Sys2Proof.Machine.exec .injectStart s = .next t ∧
        t = { s with regs := t.regs, amu := { s.amu with slot := slot, seq := some q.discard } } ∧
        t.rd F.AMU_PREEMPT_CNT_COUNT = min (s.rd F.AMU_PREEMPT_CNT_COUNT + 1) 0xFFFFFFFF)) ∧
    (∀ (i : AmuInj) (j : Job) (t0 : Nat) (v : Int) (vref : Nat), s.amu.slot = some i → i.started = some t0 → i.cal = false →
      s.flag F.AMU_STAT_XIN_HOLD = false → s.amu.waitCal = [] → s.amu.waitHost = none → s.job? i.jid = some j → j.fld 40 8 = 0 →
      j.ending = false → s.cqOpen j.cq = false →
      let r := amuConvert i.entry (ratioOf i.entry v vref) (decide (i.entry.mode ≠ 0 ∧ vref < 500000000)) (s.rd F.AMU_CJC_T)
      ∃ t k, Sys2Proof.Machine.exec (.injectDone v vref) s = .next t ∧ t.phys = max s.phys (t0 + i.time) ∧ t.amu.slot = none ∧
        t.rd F.AMU_INJ_RES_HDR_NEW = 1 ∧ (kget t.amu.live 16 {}).value = r.value ∧ t.job? i.jid = some k ∧ k.ending = true ∧
        k.detail = b2n r.range * 2 ^ 27 + b2n r.refLow * 2 ^ 26 + b2n r.ow * 2 ^ 25 + b2n r.ovr * 2 ^ 24 + unsg 24 r.code) ∧
    (∀ n : Fin 17, ∃ t, Sys2Proof.Machine.exec (.amuResultHdrRead n) s = .next t ∧
      t = { s with regs := t.regs, out := s.out ++ [.readData (hdrAddr n) (s.word (hdrAddr n))] } ∧
      t.rd (if n.val < 16 then F.AMU_RESULTn_VALUE_VALUE else F.AMU_INJ_RES_VALUE_VALUE) n = (kget s.amu.live n {}).value % 2 ^ 32 ∧
      t.rd (if n.val < 16 then F.AMU_RESULTn_TIME_LO_TIME else F.AMU_INJ_RES_TIME_LO_TIME) n = (kget s.amu.live n {}).time % 2 ^ 32 ∧
      t.rd (if n.val < 16 then F.AMU_RESULTn_HDR_NEW else F.AMU_INJ_RES_HDR_NEW) n = 0) ∧
    (∀ c : Int, -32768 ≤ c → c ≤ 32767 → ∃ t, Sys2Proof.Machine.exec (.amuCjcRead c) s = .next t ∧ t = { s with regs := t.regs } ∧
      t.rd F.AMU_CJC_T = unsg 16 c) ∧
    (∀ (k : Fin 2) (v : Word), let ua := v.toNat % 2 ^ 15
      ∃ t, Sys2Proof.Machine.exec (.loopSet k v) s = .next t ∧ t = { s with regs := t.regs, out := t.out, amu := t.amu } ∧
        t.rd F.LOOPk_SET_UA k = min (max ua 3800) 20500 ∧ (ua < 3800 ∨ 20500 < ua → t.flag F.LOOPk_STAT_CLAMP k = true) ∧
        t.flag F.LOOPk_STAT_WDOG k = false ∧ (t.loopDrv k).setAt = s.phys ∧
        t.out = s.out ++ [.pin (loopPin k) (if s.flag F.LOOPk_CTRL_ENABLE k then (t.loopUa k : Int) else 0)]) ∧
    (∀ (k : Fin 2) (ua : Nat), s.flag F.LOOPk_CTRL_ENABLE k = true → ua < 2 ^ 15 →
      (ua ≤ s.loopUa k + 200 ∧ s.loopUa k ≤ ua + 200 → ∃ t, Sys2Proof.Machine.exec (.loopReadback k ua) s = .next t ∧
        t = { s with regs := t.regs, amu := t.amu } ∧ t.rd F.LOOPk_READ_UA k = ua ∧ (t.loopDrv k).miss = 0) ∧
      (s.loopUa k + 200 < ua → (s.loopDrv k).miss = 19 → ∃ t, Sys2Proof.Machine.exec (.loopReadback k ua) s = .next t ∧
        t.rd F.LOOPk_READ_UA k = ua ∧ t.flag F.LOOPk_STAT_FAULT k = true ∧
        t.rd F.LOOPk_FAULT_CNT_COUNT k = min (s.rd F.LOOPk_FAULT_CNT_COUNT k + 1) 0xFFFFFFFF)) ∧
    (∀ k : Fin 2, s.rd F.LOOPk_CTRL_WDOG_MS k ≠ 0 → s.flag F.LOOPk_STAT_WDOG k = false →
      ∃ t, Sys2Proof.Machine.exec (.loopWdog k) s = .next t ∧ t.flag F.LOOPk_STAT_WDOG k = true ∧
        t.phys = max s.phys ((s.loopDrv k).setAt + s.rd F.LOOPk_CTRL_WDOG_MS k * 65536000000) ∧
        t.flag F.LOOPk_STAT_AT_FAULT k = s.flag F.LOOPk_CTRL_ENABLE k)

/-! ### The management core and image offers (R426-R449) -/

/-- Boot, offers and handovers. IMAGE_OFFER, admitted with no offer open, stands and downloads (R430); the boot ROM verifies what
arrives, names why an image fails, or runs it and begins start-up (R427, R429, R470); an offer from a neighbour is refused or
stands, and one that is staged is checked against its digest (R431-R433); a handover freezes admission, and its end resumes it in
probation (R435, R436); a probation that expires, or an exception in it, hands back (R438); a confirmed image's offer ends with
outcome 0 (R438, R442); COMPAT takes its one level, and the owner lock sets (R431, R449). -/
def Obligations.BootOffersAndHandovers : Prop :=
  ∀ s : State, s.dead = false →
    (∀ (j : Job) (d : Demand) (rd rh b : Nat) (dur : Option Nat) (chans : List (Nat × Nat)) (header : Option Bytes),
      Decides s j 0x70 → s.judge j (s.offerPlan header j) = .granted d rd rh b dur chans → s.mgmt.offers = [] →
      ∃ t o, Sys2Proof.Machine.exec (.imageOffer header) s = .next t ∧ o ∈ t.mgmt.offers ∧ o.jid = j.jid ∧ o.src = 0 ∧
        o.stage = .download ∧ o.version = imgVersion (header.getD []) ∧ o.digest = imgDigest (header.getD []) ∧
        o.size = j.fld 24 4 ∧ o.forward = decide (j.bits 8 1 0 0 = 1) ∧ HoldsJob t j.jid d b) ∧
    (∀ (src : Fin 3) (v : Word) (image : Bytes),
      (s.flag F.GLOBAL_STATUS_IMAGE = false → s.mgmt.mailClosed = false →
        (s.rd F.GLOBAL_BOOT_CTRL_SRC_MASK).testBit (if src.val = 0 then 0 else 1) = true → (src.val = 0 → v.toNat.testBit 31 = true) →
        ∃ t, Sys2Proof.Machine.exec (.bootImageArrival src v image) s = .next t ∧
          t = { s with regs := t.regs, mgmt := { s.mgmt with
            verifying := s.mgmt.verifying ++ [(src.val, if src.val = 0 then s.mailRead 0 (v.toNat % 2 ^ 21) else image)] } } ∧
          t.rd F.GLOBAL_BOOT_STAT_STATE = 2 ∧ t.rd F.GLOBAL_STATUS_STAGE = 1) ∧
      (s.flag F.GLOBAL_STATUS_IMAGE = true → Sys2Proof.Machine.exec (.bootImageArrival src v image) s = .next s)) ∧
    (∀ port : Fin 2,
      (s.flag F.GLOBAL_STATUS_IMAGE = true → s.flag F.GLOBAL_BOOT_CTRL_SERVE = true →
        Sys2Proof.Machine.exec (.bootImageRequest port) s =
          .next { s with out := s.out ++ [.ernos port "image" (s.activeImage.map (·.toNat))] }) ∧
      (s.flag F.GLOBAL_STATUS_IMAGE = false ∨ s.flag F.GLOBAL_BOOT_CTRL_SERVE = false →
        Sys2Proof.Machine.exec (.bootImageRequest port) s = .next s)) ∧
    (∀ (src : Nat) (i : Bytes) (rest : List (Nat × Bytes)), s.mgmt.verifying = (src, i) :: rest →
      src < 3 → s.mgmt.lostCore = false →
      ∃ t, Sys2Proof.Machine.exec .imageVerifyDone s = .next t ∧
        (if s.imgReason i = 0 then
          t.mgmt.slotA = i ∧ t.mgmt.verifying = [] ∧ t.mgmt.mailClosed = true ∧ t.flag F.GLOBAL_STATUS_IMAGE = true ∧
          t.flag F.MGMT_STAT_ACTIVE_SLOT = false ∧ t.rd F.GLOBAL_BOOT_STAT_STATE = 3 ∧ t.rd F.GLOBAL_BOOT_SRC_SRC = src ∧
          t.rd F.MGMT_VERSION_VERSION = imgVersion i ∧ t.power.starting = true ∧ t.power.startAt = s.phys + 65536000000
        else t = { s with regs := t.regs, mgmt := { s.mgmt with verifying := rest } } ∧
          t.rd F.GLOBAL_BOOT_STAT_REASON = s.imgReason i ∧ t.rd F.GLOBAL_BOOT_STAT_STATE = if rest = [] then 0 else 2)) ∧
    (∀ o : Offer, s.mgmt.verifying = [] → s.heldOffer = some o → o.stage = .handover → o.due = none →
      s.mgmt.recY = none → ∃ t, Sys2Proof.Machine.exec .imageVerifyDone s = .next t ∧
        if s.imgReason s.otherImage ≠ 0 then { o with due := some 1 } ∈ t.mgmt.offers
        else if imgRecord s.otherImage < (s.mgmt.recX.map (·.layout)).getD 0 then
          { o with stage := .handover, due := some 3 } ∈ t.mgmt.offers ∧ t.flag F.MGMT_STAT_HANDBACK = true
        else t.rd F.MGMT_STAT_ACTIVE_SLOT = 1 - s.rd F.MGMT_STAT_ACTIVE_SLOT ∧ o ∈ t.mgmt.offers) ∧
    (∀ (port : Fin 2) (h : Bytes),
      (s.offerRefused h = true → Sys2Proof.Machine.exec (.forwardedOfferArrival port h) s =
        .next { s with out := s.out ++ [.ernos port "outcome" [4]] }) ∧
      (s.offerRefused h = false → s.openOffer = none → Sys2Proof.Machine.exec (.forwardedOfferArrival port h) s =
        .next { s with mgmt := { s.mgmt with relay := port.val + 1, offers := s.mgmt.offers ++ [{
          src := port.val + 1, jid := 0, version := imgVersion h, digest := imgDigest h, size := 256 + imgBody h
          forward := true }] } })) ∧
    (∀ (o : Offer) (image : Bytes), s.openOffer = some o → o.stage = .download → o.src = 1 ∨ o.src = 2 →
      (imgComputed image = o.digest → ∃ t, Sys2Proof.Machine.exec (.offerStaged image) s = .next t ∧
        t = { s with out := t.out, mgmt := t.mgmt } ∧ { o with image := image, stage := .checked } ∈ t.mgmt.offers) ∧
      (imgComputed image ≠ o.digest → o.joined = [] → Sys2Proof.Machine.exec (.offerStaged image) s =
        .next { s with out := s.out ++ [.ernos (o.src - 1) "outcome" [7]]
                       mgmt := { s.mgmt with offers := s.mgmt.offers.filter (fun x => x ≠ o) } })) ∧
    (∀ (o : Offer) (port : Fin 2) (reached installed : Nat) (last : Bool), s.mgmt.offers.find? (·.forward) = some o →
      (o.src = 0 → o.stage ≠ .reporting → ∃ t, Sys2Proof.Machine.exec (.offerOutcomeReport port reached installed last) s = .next t ∧
        t = { s with mgmt := t.mgmt } ∧
        { o with reached := o.reached + reached, installed := o.installed + installed, allIn := o.allIn || last } ∈ t.mgmt.offers) ∧
      (o.src ≠ 0 → o.src ≠ port.val + 1 → Sys2Proof.Machine.exec (.offerOutcomeReport port reached installed last) s =
        .next { s with out := s.out ++ [.ernos (o.src - 1) "report" [reached, installed]] })) ∧
    (∀ (o : Offer) (j : Job) (a silent : Nat), s.mgmt.offers.find? (fun o => o.forward && o.src = 0 && !o.allIn) = some o →
      o.stage ≠ .reporting → s.job? o.jid = some j → j.anchor = some a →
      ∃ t, Sys2Proof.Machine.exec (.reportDeadline silent) s = .next t ∧
        t.phys = max s.phys (a + ((offerWork o.size true).mul (Q.of 65536000)).ceil - 65536000000) ∧
        { o with reached := o.reached + silent, allIn := true } ∈ t.mgmt.offers) ∧
    (∀ o : Offer, s.openOffer = some o → o.stage = .checked → s.heldOffer = none → s.offerRefusedCore o.image = false →
      s.ledger.burning = none →
      ∃ t, Sys2Proof.Machine.exec .handover s = .next t ∧ t.host.frozen = true ∧ t.flag F.MGMT_STAT_HANDOVER = true ∧
        t.rd F.MGMT_HANDOVER_CNT_COUNT = min (s.rd F.MGMT_HANDOVER_CNT_COUNT + 1) 0xFFFFFFFF ∧ t.mgmt.freezeAt = s.phys ∧
        t.otherImage = o.image ∧ t.activeImage = s.activeImage ∧ { o with stage := .handover } ∈ t.mgmt.offers) ∧
    (∀ o : Offer, s.host.frozen = true → s.mgmt.lostCore = false → s.heldOffer = some o → s.power.linkDue = false →
      (o.due = none → o.struck = false → s.mgmt.recY ≠ none → ∃ t, Sys2Proof.Machine.exec (.admissionResume false false) s = .next t ∧
        t.host.frozen = false ∧ t.flag F.MGMT_STAT_HANDOVER = false ∧ t.flag F.MGMT_STAT_PROBATION = true ∧
        t.mgmt.probeAt = s.devTime ∧ { o with stage := .probation } ∈ t.mgmt.offers ∧ t.rd F.MGMT_FREEZE_MAX_US =
          min (max (s.rd F.MGMT_FREEZE_MAX_US) (ceilDiv (s.phys - s.mgmt.freezeAt) 65536000)) 0xFFFFFFFF) ∧
      (∀ outcome, o.due = some outcome → o.src ≠ 0 → o.joined = [] →
        ∃ t, Sys2Proof.Machine.exec (.admissionResume false false) s = .next t ∧ t.host.frozen = false ∧ o ∉ t.mgmt.offers ∧
          t.out = s.out ++ [.ernos (o.src - 1) "outcome" [outcome]])) ∧
    (∀ (o : Offer) (c : Instr), c ∈ [Instr.probationExpiry, .coreException] → s.probed = some o →
      ∃ t, Sys2Proof.Machine.exec c s = .next t ∧ t.flag F.MGMT_STAT_HANDBACK = true ∧ t.flag F.MGMT_STAT_PROBATION = false ∧
        t.rd F.MGMT_HANDBACK_CNT_COUNT = min (s.rd F.MGMT_HANDBACK_CNT_COUNT + 1) 0xFFFFFFFF ∧ t.host.frozen = true ∧
        t.rd F.MGMT_STAT_ACTIVE_SLOT = 1 - s.rd F.MGMT_STAT_ACTIVE_SLOT ∧
        { o with stage := .handover, due := some 2 } ∈ t.mgmt.offers) ∧
    (∀ o : Offer, s.probed = some o → o.src = 1 ∨ o.src = 2 → o.joined = [] →
      ∃ t, Sys2Proof.Machine.exec .imageConfirmed s = .next t ∧ t.flag F.MGMT_STAT_PROBATION = false ∧ o ∉ t.mgmt.offers ∧
        t.devTime = (s.toDev (s.mgmt.probeAt + 655360000000000)).devTime ∧
        t.out.getLast? = some (.ernos (o.src - 1) "outcome" [0])) ∧
    (∀ v : Word,
      (s.flag F.HOST_CTRL_ENABLE = false → s.host.jobs = [] → v.toNat % 65536 = 0x0100 → s.activeImage = [] →
        ∃ t, Sys2Proof.Machine.exec (.compatWrite v) s = .next t ∧ t = { s with regs := t.regs } ∧
          t.rd F.GLOBAL_COMPAT_LEVEL = 0x0100 ∧ t.rd F.GLOBAL_COMPAT_STAT_REJ = s.rd F.GLOBAL_COMPAT_STAT_REJ) ∧
      (s.flag F.HOST_CTRL_ENABLE = true ∨ s.host.jobs ≠ [] ∨ v.toNat % 65536 ≠ 0x0100 →
        ∃ t, Sys2Proof.Machine.exec (.compatWrite v) s = .next t ∧ t = { s with regs := t.regs } ∧
          t.flag F.GLOBAL_COMPAT_STAT_REJ = true ∧ t.rd F.GLOBAL_COMPAT_LEVEL = s.rd F.GLOBAL_COMPAT_LEVEL) ∧
      (v.toNat.testBit 0 = true → ∃ t, Sys2Proof.Machine.exec (.ownerLock v) s = .next t ∧ t = { s with regs := t.regs } ∧
        t.flag F.GLOBAL_OWNER_LOCK_LOCK = true) ∧
      (v.toNat.testBit 0 = false → Sys2Proof.Machine.exec (.ownerLock v) s = .next s))

/-! ### The life ledger, power and heat, and start-up (R443-R471) -/

/-- Seconds and burns of the ledger, samples, emergencies, supplies and start-up. A second counts in its bucket and in the
histogram, and life follows (R443, R444, R447, R448); the oldest queued burn starts unless it is held, and is verified 200 µs later
(R446); a sample shows T_j and begins the thermal warning (R461, R462); an emergency and a supply warning stop the device (R463,
R465), and the release of a warning readies it again (R466); a rail below margin is counted (R464); power is averaged (R459);
start-up calibrates after its warm-up, and READY ends it (R470). -/
def Obligations.LedgerPowerAndStartUp : Prop :=
  ∀ s : State, s.dead = false →
    (s.ledger.session = true →
      let b := lifeBucket (sgn 16 (s.rd F.THERM_TJ_T))
      let h := lifeBin (sgn 16 (s.rd F.THERM_TJ_T))
      ∃ t, Sys2Proof.Machine.exec .ledgerSecond s = .next t ∧ t.phys = max s.phys s.ledger.nextSecond ∧
        t.ledger.nextSecond = t.phys + 65536000000000 ∧ kget t.ledger.secs b 0 = kget s.ledger.secs b 0 + 1 ∧
        (∀ k, k ≠ b → kget t.ledger.secs k 0 = kget s.ledger.secs k 0) ∧ kget t.ledger.hist h 0 = kget s.ledger.hist h 0 + 1 ∧
        (kget s.ledger.fine b 0 + 1 < 921600 → kget t.ledger.fine b 0 = kget s.ledger.fine b 0 + 1) ∧
        (kget s.ledger.fine 8 0 + 1 < 921600 →
          kget t.ledger.fine 8 0 = kget s.ledger.fine 8 0 + if 2150 < s.pres then 1 else 0) ∧
        t.rd F.GLOBAL_LIFE_LIFE = t.life ∧ t.ledger.otp = s.ledger.otp) ∧
    (s.ledgerHeld = true → Sys2Proof.Machine.exec .ledgerBurnStart s = .next s) ∧
    (∀ f rest b, s.ledgerHeld = false → s.ledger.burning = none → s.ledger.queue = f :: rest → s.ledgerNext f = some b →
      ∃ t more, Sys2Proof.Machine.exec .ledgerBurnStart s = .next t ∧ t = { s with regs := t.regs, ledger := t.ledger } ∧
        t.ledger.burning = some (f, b, s.phys) ∧ t.ledger.queue = rest ++ more ∧ t.ledger.otp = s.ledger.otp) ∧
    (∀ f b t0, s.ledger.burning = some (f, b, t0) →
      (∃ t, Sys2Proof.Machine.exec (.ledgerBurnDone true) s = .next t ∧ t.phys = max s.phys (t0 + 13107200000) ∧
        t.ledger.burning = none ∧ kget t.ledger.otp b false = true ∧
        (∀ k, k ≠ b → kget t.ledger.otp k false = kget s.ledger.otp k false) ∧ t.rd F.GLOBAL_LIFE_LIFE = t.life) ∧
      (∃ t more, Sys2Proof.Machine.exec (.ledgerBurnDone false) s = .next t ∧ t.phys = max s.phys (t0 + 13107200000) ∧
        t.ledger.burning = none ∧ t.ledger.otp = s.ledger.otp ∧ t.ledger.failed = s.ledger.failed ++ [b] ∧
        t.ledger.queue = f :: s.ledger.queue ++ more ∧ t.flag F.LEDGER_STAT_BURN_FAIL = true ∧
        t.rd F.LEDGER_BURN_FAIL_CNT_COUNT = min (s.rd F.LEDGER_BURN_FAIL_CNT_COUNT + 1) 0xFFFFFFFF)) ∧
    (∀ (temps : List Int) (h0 h1 : Int), let j := hottest 0 ((List.range 36).map (fun i => temps.getD i 0))
      j.2 ≥ -32768 → j.2 < 7040 → h0 < 95 → h1 < 95 → s.flag F.POWER_STAT_THERM_WARN = false →
      ∃ t, Sys2Proof.Machine.exec (.thermalSample temps h0 h1) s = .next t ∧ t.phys = max s.phys s.power.nextSample ∧
        t.rd F.THERM_TJ_SENSOR = j.1 ∧ sgn 16 (t.rd F.THERM_TJ_T) = j.2 ∧
        sgn 16 (t.rd F.THERM_TJ_MAX_T) = max (sgn 16 (s.rd F.THERM_TJ_MAX_T)) j.2 ∧
        t.flag F.POWER_STAT_THERM_WARN = decide (6400 ≤ j.2) ∧
        (6400 ≤ j.2 → t.host.thermLimit = some s.pres ∧
          t.rd F.THERM_WARN_CNT_COUNT = min (s.rd F.THERM_WARN_CNT_COUNT + 1) 0xFFFFFFFF) ∧
        (j.2 < 6400 → t.host.thermLimit = s.host.thermLimit ∧ t.rd F.THERM_WARN_CNT_COUNT = s.rd F.THERM_WARN_CNT_COUNT)) ∧
    (∀ (tj h0 h1 : Int) (n : Fin 36),
      (tj < 7040 → h0 < 105 → h1 < 105 → Sys2Proof.Machine.exec (.thermalEmergency tj n h0 h1) s = .next s) ∧
      (7040 ≤ tj → s.flag F.POWER_STAT_THERM_EMERG = false →
        ∃ t, Sys2Proof.Machine.exec (.thermalEmergency tj n h0 h1) s = .next t ∧ t.flag F.POWER_STAT_THERM_EMERG = true ∧
          t.flag F.GLOBAL_STATUS_READY = false ∧ t.flag F.GLOBAL_STATUS_STOPPED = true ∧ t.rd F.GLOBAL_STATUS_STAGE = 6 ∧
          t.out.getLast? = some (.pin "THERM_N" 0))) ∧
    (∀ x : Nat, (x < 6553600 → Sys2Proof.Machine.exec (.supplyWarning 0 x) s = .next s) ∧
      (6553600 ≤ x → s.power.supplyHold = false → ∃ t, Sys2Proof.Machine.exec (.supplyWarning 0 x) s = .next t ∧
        t.power.supplyHold = true ∧ t.flag F.GLOBAL_STATUS_READY = false ∧ t.flag F.GLOBAL_STATUS_STOPPED = true)) ∧
    (∀ (r : Fin 11) (mv : Nat), s.power.supplyHold = false →
      let u := { s with power := { s.power with volts := kset s.power.volts r (some mv) none } }
      u.railOff r 5 true = false → ∃ t, Sys2Proof.Machine.exec (.supplyMargin r mv) s = .next t ∧ t.power = u.power ∧
        t.flag F.POWER_STAT_MARGIN = u.railsLow ∧
        (u.railsLow = true → s.flag F.POWER_STAT_MARGIN = false → t.flag F.POWER_ALERT_MARGIN = true ∧
          t.rd F.SUPPLY_MARGIN_CNT_COUNT = min (s.rd F.SUPPLY_MARGIN_CNT_COUNT + 1) 0xFFFFFFFF)) ∧
    (s.power.supplyHold = true → s.railsOut = false → s.flag F.POWER_STAT_THERM_EMERG = false → s.power.starting = false →
      s.host.started = true → (∀ c ∈ s.hbm.pcs, c.1 < 64) →
      ∃ t, Sys2Proof.Machine.exec .supplyWarnRelease s = .next t ∧ t.power.supplyHold = false ∧
        t.phys = max s.phys (s.power.warnEnd + 655360000000) ∧ t.flag F.POWER_STAT_SUPPLY_WARN = false ∧
        t.flag F.GLOBAL_STATUS_READY = true ∧ t.flag F.GLOBAL_STATUS_STOPPED = false ∧ t.rd F.GLOBAL_STATUS_STAGE = 5) ∧
    (∀ (p : Nat) (rails : List (Nat × Nat)), ∃ t u, Sys2Proof.Machine.exec (.powerMeasure p rails) s = .next t ∧
      t = ((List.range 11).zip rails).foldl (fun (v : State) x =>
        ({ v with power := { v.power with amps := kset v.power.amps x.1 x.2.2 0 } }).railRead x.1 x.2.1) u ∧
      u.phys = max s.phys s.power.nextPower ∧ u.rd F.POWER_MEAS_P = min p 0xFFFF ∧
      u.rd F.POWER_MEAS_MAX_P = min (max (s.rd F.POWER_MEAS_MAX_P) p) 0xFFFF ∧
      u.rd F.POWER_EXCESS_CNT_COUNT = min (s.rd F.POWER_EXCESS_CNT_COUNT + if s.pres + 20 < p then 1 else 0) 0xFFFFFFFF) ∧
    (s.startupGoes = true → s.power.warmDone = false → s.power.poolDone = true → s.rd F.HBMC_STAT_TRAINED = 3 →
      ∃ t r, Sys2Proof.Machine.exec .warmupEnd s = .next t ∧ t.phys = max s.phys (s.power.startAt + 9830400000000) ∧
        t.rd F.GLOBAL_STATUS_STAGE = 3 ∧ t.power.warmDone = true ∧ t.prism.cal = s.prism.cal ++ [r] ∧ r.jid = 0 ∧
        r.todo = [0, 1, 2, 3]) ∧
    (s.startupGoes = true → s.power.calDone = true →
      ∃ t, Sys2Proof.Machine.exec .readySet s = .next t ∧ t.flag F.GLOBAL_STATUS_READY = true ∧
        t.rd F.GLOBAL_STATUS_STAGE = 5 ∧ t.host.started = true ∧ t.power.starting = false ∧ t.ledger.session = true ∧
        t.phys = s.phys)
end

