-- ==== Sys2Proof/Laws/KMap.lean ====
section
/-! SUPPORT. Laws/KMap.lean: what every operation on sparse data does to a read, and that each keeps the canonical form. -/
namespace Sys2Proof.Machine

variable {α : Type}

/-! ### Reads -/

@[simp] theorem kget_nil (k : Nat) (d : α) : kget [] k d = d := rfl

theorem kget_kput_same (m : KMap α) (k : Nat) (v d : α) : kget (kput m k v) k d = v := by
  induction m with
  | nil => simp [kput, kget]
  | cons c r ih =>
    obtain ⟨k', v'⟩ := c
    simp only [kput]
    split
    · simp [kget]
    · split
      · simp [kget]
      · rename_i h
        have : k' ≠ k := fun e => h e.symm
        simp [kget, this, ih]

theorem kget_kput_ne (m : KMap α) {k j : Nat} (v d : α) (h : j ≠ k) : kget (kput m k v) j d = kget m j d := by
  have h' : k ≠ j := fun e => h e.symm
  induction m with
  | nil => simp [kput, kget, h']
  | cons c r ih =>
    obtain ⟨k', v'⟩ := c
    simp only [kput]
    split
    · simp [kget, h']
    · split
      · rename_i e
        subst e
        simp [kget, h']
      · simp [kget, ih]

theorem kget_kerase_same (m : KMap α) (k : Nat) (d : α) : kget (kerase m k) k d = d := by
  induction m with
  | nil => rfl
  | cons c r ih =>
    obtain ⟨k', v'⟩ := c
    simp only [kerase]
    split
    · exact ih
    · rename_i h
      have : k' ≠ k := fun e => h e.symm
      simp [kget, this, ih]

theorem kget_kerase_ne (m : KMap α) {k j : Nat} (d : α) (h : j ≠ k) : kget (kerase m k) j d = kget m j d := by
  have h' : k ≠ j := fun e => h e.symm
  induction m with
  | nil => rfl
  | cons c r ih =>
    obtain ⟨k', v'⟩ := c
    simp only [kerase]
    split
    · rename_i e
      subst e
      simp [kget, h', ih]
    · simp [kget, ih]

/-- A read at the key that was written gives the value written. -/
@[simp] theorem kget_kset_same [DecidableEq α] (m : KMap α) (k : Nat) (v d : α) : kget (kset m k v d) k d = v := by
  simp only [kset]
  split
  · rename_i e
    rw [kget_kerase_same, e]
  · exact kget_kput_same m k v d

/-- A read at any other key gives what it gave before. -/
theorem kget_kset_ne [DecidableEq α] (m : KMap α) {k j : Nat} (v d e : α) (h : j ≠ k) :
    kget (kset m k v d) j e = kget m j e := by
  simp only [kset]
  split
  · exact kget_kerase_ne m e h
  · exact kget_kput_ne m v e h

/-- A cleared range reads as unlisted, and every other key as before. -/
theorem kget_kclear (m : KMap α) (lo hi j : Nat) (d : α) :
    kget (kclear m lo hi) j d = if lo ≤ j ∧ j < hi then d else kget m j d := by
  induction m with
  | nil => simp [kclear]
  | cons c r ih =>
    obtain ⟨k, v⟩ := c
    simp only [kclear]
    by_cases hk : lo ≤ k ∧ k < hi
    · rw [if_pos hk, ih]
      by_cases hj : k = j
      · subst hj
        simp [hk]
      · simp [kget, hj]
    · rw [if_neg hk]
      by_cases hj : k = j
      · subst hj
        simp [kget, hk]
      · simp only [kget, hj, if_false, ih]

/-- A run of writes gives each key of the run its value and leaves every other key. -/
theorem kget_kwrite_out [DecidableEq α] (d : α) (vs : List α) (m : KMap α) (k j : Nat)
    (h : j < k ∨ k + vs.length ≤ j) : kget (kwrite d m k vs) j d = kget m j d := by
  induction vs generalizing m k with
  | nil => rfl
  | cons v vs ih =>
    simp only [kwrite]
    simp only [List.length_cons] at h
    rw [ih _ _ (by omega), kget_kset_ne m v d d (by omega)]

theorem kget_kwrite_in [DecidableEq α] (d : α) (vs : List α) (m : KMap α) (k i : Nat) (h : i < vs.length) :
    kget (kwrite d m k vs) (k + i) d = vs[i] := by
  induction vs generalizing m k i with
  | nil => simp at h
  | cons v vs ih =>
    simp only [kwrite]
    cases i with
    | zero => simp [kget_kwrite_out d vs _ (k + 1) k (by omega)]
    | succ i =>
      have hi : i < vs.length := by simpa using h
      have := ih (kset m k v d) (k + 1) i hi
      rw [show k + (i + 1) = k + 1 + i by omega, this]
      rfl

/-! ### The canonical form -/

theorem kwfFrom_mono [DecidableEq α] {d : Nat → α} {lo hi : Nat} {m : KMap α} (h : hi ≤ lo) (w : kwfFrom d lo m = true) :
    kwfFrom d hi m = true := by
  cases m with
  | nil => rfl
  | cons c r =>
    obtain ⟨k, v⟩ := c
    simp only [kwfFrom, Bool.and_eq_true, decide_eq_true_eq] at w ⊢
    exact ⟨⟨by omega, w.1.2⟩, w.2⟩

theorem kput_wfFrom [DecidableEq α] {d : Nat → α} {lo k : Nat} {v : α} {m : KMap α} (hk : lo ≤ k) (hv : v ≠ d k)
    (w : kwfFrom d lo m = true) : kwfFrom d lo (kput m k v) = true := by
  induction m generalizing lo with
  | nil => simp [kput, kwfFrom, hk, hv]
  | cons c r ih =>
    obtain ⟨k', v'⟩ := c
    simp only [kwfFrom, Bool.and_eq_true, decide_eq_true_eq] at w
    simp only [kput]
    split
    · rename_i h
      simp only [kwfFrom, Bool.and_eq_true, decide_eq_true_eq]
      exact ⟨⟨hk, hv⟩, ⟨by omega, w.1.2⟩, w.2⟩
    · split
      · rename_i h
        subst h
        simp only [kwfFrom, Bool.and_eq_true, decide_eq_true_eq]
        exact ⟨⟨hk, hv⟩, w.2⟩
      · simp only [kwfFrom, Bool.and_eq_true, decide_eq_true_eq]
        exact ⟨w.1, ih (by omega) w.2⟩

theorem kerase_wfFrom [DecidableEq α] {d : Nat → α} {lo k : Nat} {m : KMap α} (w : kwfFrom d lo m = true) :
    kwfFrom d lo (kerase m k) = true := by
  induction m generalizing lo with
  | nil => rfl
  | cons c r ih =>
    obtain ⟨k', v'⟩ := c
    simp only [kwfFrom, Bool.and_eq_true, decide_eq_true_eq] at w
    simp only [kerase]
    split
    · exact kwfFrom_mono (by omega) (ih w.2)
    · simp only [kwfFrom, Bool.and_eq_true, decide_eq_true_eq]
      exact ⟨w.1, ih w.2⟩

theorem kclear_wfFrom [DecidableEq α] {d : Nat → α} {lo a b : Nat} {m : KMap α} (w : kwfFrom d lo m = true) :
    kwfFrom d lo (kclear m a b) = true := by
  induction m generalizing lo with
  | nil => rfl
  | cons c r ih =>
    obtain ⟨k', v'⟩ := c
    simp only [kwfFrom, Bool.and_eq_true, decide_eq_true_eq] at w
    simp only [kclear]
    split
    · exact kwfFrom_mono (by omega) (ih w.2)
    · simp only [kwfFrom, Bool.and_eq_true, decide_eq_true_eq]
      exact ⟨w.1, ih w.2⟩

/-- The canonical write keeps the canonical form. -/
theorem kset_wf [DecidableEq α] {d : Nat → α} {m : KMap α} (k : Nat) (v : α) (w : kwf d m = true) :
    kwf d (kset m k v (d k)) = true := by
  simp only [kset]
  split
  · exact kerase_wfFrom w
  · rename_i h
    exact kput_wfFrom (by omega) h w

/-- Clearing a range keeps the canonical form. -/
theorem kclear_wf [DecidableEq α] {d : Nat → α} {m : KMap α} (a b : Nat) (w : kwf d m = true) : kwf d (kclear m a b) = true :=
  kclear_wfFrom w

/-- A run of canonical writes keeps the canonical form. -/
theorem kwrite_wf [DecidableEq α] {d : α} {m : KMap α} (k : Nat) (vs : List α) (w : kwf (fun _ => d) m = true) :
    kwf (fun _ => d) (kwrite d m k vs) = true := by
  induction vs generalizing m k with
  | nil => exact w
  | cons v vs ih => exact ih (k + 1) (kset_wf (d := fun _ => d) k v w)

end Sys2Proof.Machine
end

