-- ==== Sys2Proof/Laws/State.lean ====
section
/-! SUPPORT. Laws/State.lean: what each named update leaves alone, field by field, and what a register field reads as after
a write. -/
namespace Sys2Proof.Machine

/-! ### wr -/
@[simp] theorem State.wr_pending (s : State) (f : Fld) (v i j : Nat) : (s.wr f v i j).pending = s.pending := rfl
@[simp] theorem State.wr_phys (s : State) (f : Fld) (v i j : Nat) : (s.wr f v i j).phys = s.phys := rfl
@[simp] theorem State.wr_devTime (s : State) (f : Fld) (v i j : Nat) : (s.wr f v i j).devTime = s.devTime := rfl
@[simp] theorem State.wr_running (s : State) (f : Fld) (v i j : Nat) : (s.wr f v i j).running = s.running := rfl
@[simp] theorem State.wr_dead (s : State) (f : Fld) (v i j : Nat) : (s.wr f v i j).dead = s.dead := rfl
@[simp] theorem State.wr_act (s : State) (f : Fld) (v i j : Nat) : (s.wr f v i j).act = s.act := rfl
@[simp] theorem State.wr_rlatch (s : State) (f : Fld) (v i j : Nat) : (s.wr f v i j).rlatch = s.rlatch := rfl
@[simp] theorem State.wr_wlatch (s : State) (f : Fld) (v i j : Nat) : (s.wr f v i j).wlatch = s.wlatch := rfl
@[simp] theorem State.wr_out (s : State) (f : Fld) (v i j : Nat) : (s.wr f v i j).out = s.out := rfl
@[simp] theorem State.wr_freeCtr (s : State) (f : Fld) (v i j : Nat) : (s.wr f v i j).freeCtr = s.freeCtr := rfl
@[simp] theorem State.wr_host (s : State) (f : Fld) (v i j : Nat) : (s.wr f v i j).host = s.host := rfl
@[simp] theorem State.wr_prism (s : State) (f : Fld) (v i j : Nat) : (s.wr f v i j).prism = s.prism := rfl
@[simp] theorem State.wr_lan (s : State) (f : Fld) (v i j : Nat) : (s.wr f v i j).lan = s.lan := rfl
@[simp] theorem State.wr_lumen (s : State) (f : Fld) (v i j : Nat) : (s.wr f v i j).lumen = s.lumen := rfl
@[simp] theorem State.wr_pool (s : State) (f : Fld) (v i j : Nat) : (s.wr f v i j).pool = s.pool := rfl
@[simp] theorem State.wr_mgmt (s : State) (f : Fld) (v i j : Nat) : (s.wr f v i j).mgmt = s.mgmt := rfl
@[simp] theorem State.wr_ledger (s : State) (f : Fld) (v i j : Nat) : (s.wr f v i j).ledger = s.ledger := rfl
@[simp] theorem State.wr_power (s : State) (f : Fld) (v i j : Nat) : (s.wr f v i j).power = s.power := rfl
@[simp] theorem State.wr_clk (s : State) (f : Fld) (v i j : Nat) : (s.wr f v i j).clk = s.clk := rfl
@[simp] theorem State.wr_hbm (s : State) (f : Fld) (v i j : Nat) : (s.wr f v i j).hbm = s.hbm := rfl
@[simp] theorem State.wr_amu (s : State) (f : Fld) (v i j : Nat) : (s.wr f v i j).amu = s.amu := rfl
@[simp] theorem State.wr_record (s : State) (f : Fld) (v i j : Nat) : (s.wr f v i j).record = s.record := rfl
@[simp] theorem State.wr_fibre (s : State) (f : Fld) (v i j : Nat) : (s.wr f v i j).fibre = s.fibre := rfl
@[simp] theorem State.wr_glint (s : State) (f : Fld) (v i j : Nat) : (s.wr f v i j).glint = s.glint := rfl

/-! ### wact -/
@[simp] theorem State.wact_pending (s : State) (f : Fld) (v i j : Nat) : (s.wact f v i j).pending = s.pending := rfl
@[simp] theorem State.wact_phys (s : State) (f : Fld) (v i j : Nat) : (s.wact f v i j).phys = s.phys := rfl
@[simp] theorem State.wact_devTime (s : State) (f : Fld) (v i j : Nat) : (s.wact f v i j).devTime = s.devTime := rfl
@[simp] theorem State.wact_running (s : State) (f : Fld) (v i j : Nat) : (s.wact f v i j).running = s.running := rfl
@[simp] theorem State.wact_dead (s : State) (f : Fld) (v i j : Nat) : (s.wact f v i j).dead = s.dead := rfl
@[simp] theorem State.wact_regs (s : State) (f : Fld) (v i j : Nat) : (s.wact f v i j).regs = s.regs := rfl
@[simp] theorem State.wact_rlatch (s : State) (f : Fld) (v i j : Nat) : (s.wact f v i j).rlatch = s.rlatch := rfl
@[simp] theorem State.wact_wlatch (s : State) (f : Fld) (v i j : Nat) : (s.wact f v i j).wlatch = s.wlatch := rfl
@[simp] theorem State.wact_out (s : State) (f : Fld) (v i j : Nat) : (s.wact f v i j).out = s.out := rfl
@[simp] theorem State.wact_freeCtr (s : State) (f : Fld) (v i j : Nat) : (s.wact f v i j).freeCtr = s.freeCtr := rfl
@[simp] theorem State.wact_host (s : State) (f : Fld) (v i j : Nat) : (s.wact f v i j).host = s.host := rfl
@[simp] theorem State.wact_prism (s : State) (f : Fld) (v i j : Nat) : (s.wact f v i j).prism = s.prism := rfl
@[simp] theorem State.wact_lan (s : State) (f : Fld) (v i j : Nat) : (s.wact f v i j).lan = s.lan := rfl
@[simp] theorem State.wact_lumen (s : State) (f : Fld) (v i j : Nat) : (s.wact f v i j).lumen = s.lumen := rfl
@[simp] theorem State.wact_pool (s : State) (f : Fld) (v i j : Nat) : (s.wact f v i j).pool = s.pool := rfl
@[simp] theorem State.wact_mgmt (s : State) (f : Fld) (v i j : Nat) : (s.wact f v i j).mgmt = s.mgmt := rfl
@[simp] theorem State.wact_ledger (s : State) (f : Fld) (v i j : Nat) : (s.wact f v i j).ledger = s.ledger := rfl
@[simp] theorem State.wact_power (s : State) (f : Fld) (v i j : Nat) : (s.wact f v i j).power = s.power := rfl
@[simp] theorem State.wact_clk (s : State) (f : Fld) (v i j : Nat) : (s.wact f v i j).clk = s.clk := rfl
@[simp] theorem State.wact_hbm (s : State) (f : Fld) (v i j : Nat) : (s.wact f v i j).hbm = s.hbm := rfl
@[simp] theorem State.wact_amu (s : State) (f : Fld) (v i j : Nat) : (s.wact f v i j).amu = s.amu := rfl
@[simp] theorem State.wact_record (s : State) (f : Fld) (v i j : Nat) : (s.wact f v i j).record = s.record := rfl
@[simp] theorem State.wact_fibre (s : State) (f : Fld) (v i j : Nat) : (s.wact f v i j).fibre = s.fibre := rfl
@[simp] theorem State.wact_glint (s : State) (f : Fld) (v i j : Nat) : (s.wact f v i j).glint = s.glint := rfl

/-! ### setf -/
@[simp] theorem State.setf_pending (s : State) (f : Fld) (i j : Nat) : (s.setf f i j).pending = s.pending := rfl
@[simp] theorem State.setf_phys (s : State) (f : Fld) (i j : Nat) : (s.setf f i j).phys = s.phys := rfl
@[simp] theorem State.setf_devTime (s : State) (f : Fld) (i j : Nat) : (s.setf f i j).devTime = s.devTime := rfl
@[simp] theorem State.setf_running (s : State) (f : Fld) (i j : Nat) : (s.setf f i j).running = s.running := rfl
@[simp] theorem State.setf_dead (s : State) (f : Fld) (i j : Nat) : (s.setf f i j).dead = s.dead := rfl
@[simp] theorem State.setf_act (s : State) (f : Fld) (i j : Nat) : (s.setf f i j).act = s.act := rfl
@[simp] theorem State.setf_rlatch (s : State) (f : Fld) (i j : Nat) : (s.setf f i j).rlatch = s.rlatch := rfl
@[simp] theorem State.setf_wlatch (s : State) (f : Fld) (i j : Nat) : (s.setf f i j).wlatch = s.wlatch := rfl
@[simp] theorem State.setf_out (s : State) (f : Fld) (i j : Nat) : (s.setf f i j).out = s.out := rfl
@[simp] theorem State.setf_freeCtr (s : State) (f : Fld) (i j : Nat) : (s.setf f i j).freeCtr = s.freeCtr := rfl
@[simp] theorem State.setf_host (s : State) (f : Fld) (i j : Nat) : (s.setf f i j).host = s.host := rfl
@[simp] theorem State.setf_prism (s : State) (f : Fld) (i j : Nat) : (s.setf f i j).prism = s.prism := rfl
@[simp] theorem State.setf_lan (s : State) (f : Fld) (i j : Nat) : (s.setf f i j).lan = s.lan := rfl
@[simp] theorem State.setf_lumen (s : State) (f : Fld) (i j : Nat) : (s.setf f i j).lumen = s.lumen := rfl
@[simp] theorem State.setf_pool (s : State) (f : Fld) (i j : Nat) : (s.setf f i j).pool = s.pool := rfl
@[simp] theorem State.setf_mgmt (s : State) (f : Fld) (i j : Nat) : (s.setf f i j).mgmt = s.mgmt := rfl
@[simp] theorem State.setf_ledger (s : State) (f : Fld) (i j : Nat) : (s.setf f i j).ledger = s.ledger := rfl
@[simp] theorem State.setf_power (s : State) (f : Fld) (i j : Nat) : (s.setf f i j).power = s.power := rfl
@[simp] theorem State.setf_clk (s : State) (f : Fld) (i j : Nat) : (s.setf f i j).clk = s.clk := rfl
@[simp] theorem State.setf_hbm (s : State) (f : Fld) (i j : Nat) : (s.setf f i j).hbm = s.hbm := rfl
@[simp] theorem State.setf_amu (s : State) (f : Fld) (i j : Nat) : (s.setf f i j).amu = s.amu := rfl
@[simp] theorem State.setf_record (s : State) (f : Fld) (i j : Nat) : (s.setf f i j).record = s.record := rfl
@[simp] theorem State.setf_fibre (s : State) (f : Fld) (i j : Nat) : (s.setf f i j).fibre = s.fibre := rfl
@[simp] theorem State.setf_glint (s : State) (f : Fld) (i j : Nat) : (s.setf f i j).glint = s.glint := rfl

/-! ### clrf -/
@[simp] theorem State.clrf_pending (s : State) (f : Fld) (i j : Nat) : (s.clrf f i j).pending = s.pending := rfl
@[simp] theorem State.clrf_phys (s : State) (f : Fld) (i j : Nat) : (s.clrf f i j).phys = s.phys := rfl
@[simp] theorem State.clrf_devTime (s : State) (f : Fld) (i j : Nat) : (s.clrf f i j).devTime = s.devTime := rfl
@[simp] theorem State.clrf_running (s : State) (f : Fld) (i j : Nat) : (s.clrf f i j).running = s.running := rfl
@[simp] theorem State.clrf_dead (s : State) (f : Fld) (i j : Nat) : (s.clrf f i j).dead = s.dead := rfl
@[simp] theorem State.clrf_act (s : State) (f : Fld) (i j : Nat) : (s.clrf f i j).act = s.act := rfl
@[simp] theorem State.clrf_rlatch (s : State) (f : Fld) (i j : Nat) : (s.clrf f i j).rlatch = s.rlatch := rfl
@[simp] theorem State.clrf_wlatch (s : State) (f : Fld) (i j : Nat) : (s.clrf f i j).wlatch = s.wlatch := rfl
@[simp] theorem State.clrf_out (s : State) (f : Fld) (i j : Nat) : (s.clrf f i j).out = s.out := rfl
@[simp] theorem State.clrf_freeCtr (s : State) (f : Fld) (i j : Nat) : (s.clrf f i j).freeCtr = s.freeCtr := rfl
@[simp] theorem State.clrf_host (s : State) (f : Fld) (i j : Nat) : (s.clrf f i j).host = s.host := rfl
@[simp] theorem State.clrf_prism (s : State) (f : Fld) (i j : Nat) : (s.clrf f i j).prism = s.prism := rfl
@[simp] theorem State.clrf_lan (s : State) (f : Fld) (i j : Nat) : (s.clrf f i j).lan = s.lan := rfl
@[simp] theorem State.clrf_lumen (s : State) (f : Fld) (i j : Nat) : (s.clrf f i j).lumen = s.lumen := rfl
@[simp] theorem State.clrf_pool (s : State) (f : Fld) (i j : Nat) : (s.clrf f i j).pool = s.pool := rfl
@[simp] theorem State.clrf_mgmt (s : State) (f : Fld) (i j : Nat) : (s.clrf f i j).mgmt = s.mgmt := rfl
@[simp] theorem State.clrf_ledger (s : State) (f : Fld) (i j : Nat) : (s.clrf f i j).ledger = s.ledger := rfl
@[simp] theorem State.clrf_power (s : State) (f : Fld) (i j : Nat) : (s.clrf f i j).power = s.power := rfl
@[simp] theorem State.clrf_clk (s : State) (f : Fld) (i j : Nat) : (s.clrf f i j).clk = s.clk := rfl
@[simp] theorem State.clrf_hbm (s : State) (f : Fld) (i j : Nat) : (s.clrf f i j).hbm = s.hbm := rfl
@[simp] theorem State.clrf_amu (s : State) (f : Fld) (i j : Nat) : (s.clrf f i j).amu = s.amu := rfl
@[simp] theorem State.clrf_record (s : State) (f : Fld) (i j : Nat) : (s.clrf f i j).record = s.record := rfl
@[simp] theorem State.clrf_fibre (s : State) (f : Fld) (i j : Nat) : (s.clrf f i j).fibre = s.fibre := rfl
@[simp] theorem State.clrf_glint (s : State) (f : Fld) (i j : Nat) : (s.clrf f i j).glint = s.glint := rfl

/-! ### count -/
@[simp] theorem State.count_pending (s : State) (f : Fld) (n i j : Nat) : (s.count f n i j).pending = s.pending := rfl
@[simp] theorem State.count_phys (s : State) (f : Fld) (n i j : Nat) : (s.count f n i j).phys = s.phys := rfl
@[simp] theorem State.count_devTime (s : State) (f : Fld) (n i j : Nat) : (s.count f n i j).devTime = s.devTime := rfl
@[simp] theorem State.count_running (s : State) (f : Fld) (n i j : Nat) : (s.count f n i j).running = s.running := rfl
@[simp] theorem State.count_dead (s : State) (f : Fld) (n i j : Nat) : (s.count f n i j).dead = s.dead := rfl
@[simp] theorem State.count_act (s : State) (f : Fld) (n i j : Nat) : (s.count f n i j).act = s.act := rfl
@[simp] theorem State.count_rlatch (s : State) (f : Fld) (n i j : Nat) : (s.count f n i j).rlatch = s.rlatch := rfl
@[simp] theorem State.count_wlatch (s : State) (f : Fld) (n i j : Nat) : (s.count f n i j).wlatch = s.wlatch := rfl
@[simp] theorem State.count_out (s : State) (f : Fld) (n i j : Nat) : (s.count f n i j).out = s.out := rfl
@[simp] theorem State.count_freeCtr (s : State) (f : Fld) (n i j : Nat) : (s.count f n i j).freeCtr = s.freeCtr := rfl
@[simp] theorem State.count_host (s : State) (f : Fld) (n i j : Nat) : (s.count f n i j).host = s.host := rfl
@[simp] theorem State.count_prism (s : State) (f : Fld) (n i j : Nat) : (s.count f n i j).prism = s.prism := rfl
@[simp] theorem State.count_lan (s : State) (f : Fld) (n i j : Nat) : (s.count f n i j).lan = s.lan := rfl
@[simp] theorem State.count_lumen (s : State) (f : Fld) (n i j : Nat) : (s.count f n i j).lumen = s.lumen := rfl
@[simp] theorem State.count_pool (s : State) (f : Fld) (n i j : Nat) : (s.count f n i j).pool = s.pool := rfl
@[simp] theorem State.count_mgmt (s : State) (f : Fld) (n i j : Nat) : (s.count f n i j).mgmt = s.mgmt := rfl
@[simp] theorem State.count_ledger (s : State) (f : Fld) (n i j : Nat) : (s.count f n i j).ledger = s.ledger := rfl
@[simp] theorem State.count_power (s : State) (f : Fld) (n i j : Nat) : (s.count f n i j).power = s.power := rfl
@[simp] theorem State.count_clk (s : State) (f : Fld) (n i j : Nat) : (s.count f n i j).clk = s.clk := rfl
@[simp] theorem State.count_hbm (s : State) (f : Fld) (n i j : Nat) : (s.count f n i j).hbm = s.hbm := rfl
@[simp] theorem State.count_amu (s : State) (f : Fld) (n i j : Nat) : (s.count f n i j).amu = s.amu := rfl
@[simp] theorem State.count_record (s : State) (f : Fld) (n i j : Nat) : (s.count f n i j).record = s.record := rfl
@[simp] theorem State.count_fibre (s : State) (f : Fld) (n i j : Nat) : (s.count f n i j).fibre = s.fibre := rfl
@[simp] theorem State.count_glint (s : State) (f : Fld) (n i j : Nat) : (s.count f n i j).glint = s.glint := rfl

/-! ### maxTo -/
@[simp] theorem State.maxTo_pending (s : State) (f : Fld) (v i j : Nat) : (s.maxTo f v i j).pending = s.pending := rfl
@[simp] theorem State.maxTo_phys (s : State) (f : Fld) (v i j : Nat) : (s.maxTo f v i j).phys = s.phys := rfl
@[simp] theorem State.maxTo_devTime (s : State) (f : Fld) (v i j : Nat) : (s.maxTo f v i j).devTime = s.devTime := rfl
@[simp] theorem State.maxTo_running (s : State) (f : Fld) (v i j : Nat) : (s.maxTo f v i j).running = s.running := rfl
@[simp] theorem State.maxTo_dead (s : State) (f : Fld) (v i j : Nat) : (s.maxTo f v i j).dead = s.dead := rfl
@[simp] theorem State.maxTo_act (s : State) (f : Fld) (v i j : Nat) : (s.maxTo f v i j).act = s.act := rfl
@[simp] theorem State.maxTo_rlatch (s : State) (f : Fld) (v i j : Nat) : (s.maxTo f v i j).rlatch = s.rlatch := rfl
@[simp] theorem State.maxTo_wlatch (s : State) (f : Fld) (v i j : Nat) : (s.maxTo f v i j).wlatch = s.wlatch := rfl
@[simp] theorem State.maxTo_out (s : State) (f : Fld) (v i j : Nat) : (s.maxTo f v i j).out = s.out := rfl
@[simp] theorem State.maxTo_freeCtr (s : State) (f : Fld) (v i j : Nat) : (s.maxTo f v i j).freeCtr = s.freeCtr := rfl
@[simp] theorem State.maxTo_host (s : State) (f : Fld) (v i j : Nat) : (s.maxTo f v i j).host = s.host := rfl
@[simp] theorem State.maxTo_prism (s : State) (f : Fld) (v i j : Nat) : (s.maxTo f v i j).prism = s.prism := rfl
@[simp] theorem State.maxTo_lan (s : State) (f : Fld) (v i j : Nat) : (s.maxTo f v i j).lan = s.lan := rfl
@[simp] theorem State.maxTo_lumen (s : State) (f : Fld) (v i j : Nat) : (s.maxTo f v i j).lumen = s.lumen := rfl
@[simp] theorem State.maxTo_pool (s : State) (f : Fld) (v i j : Nat) : (s.maxTo f v i j).pool = s.pool := rfl
@[simp] theorem State.maxTo_mgmt (s : State) (f : Fld) (v i j : Nat) : (s.maxTo f v i j).mgmt = s.mgmt := rfl
@[simp] theorem State.maxTo_ledger (s : State) (f : Fld) (v i j : Nat) : (s.maxTo f v i j).ledger = s.ledger := rfl
@[simp] theorem State.maxTo_power (s : State) (f : Fld) (v i j : Nat) : (s.maxTo f v i j).power = s.power := rfl
@[simp] theorem State.maxTo_clk (s : State) (f : Fld) (v i j : Nat) : (s.maxTo f v i j).clk = s.clk := rfl
@[simp] theorem State.maxTo_hbm (s : State) (f : Fld) (v i j : Nat) : (s.maxTo f v i j).hbm = s.hbm := rfl
@[simp] theorem State.maxTo_amu (s : State) (f : Fld) (v i j : Nat) : (s.maxTo f v i j).amu = s.amu := rfl
@[simp] theorem State.maxTo_record (s : State) (f : Fld) (v i j : Nat) : (s.maxTo f v i j).record = s.record := rfl
@[simp] theorem State.maxTo_fibre (s : State) (f : Fld) (v i j : Nat) : (s.maxTo f v i j).fibre = s.fibre := rfl
@[simp] theorem State.maxTo_glint (s : State) (f : Fld) (v i j : Nat) : (s.maxTo f v i j).glint = s.glint := rfl

/-! ### wr64 -/
@[simp] theorem State.wr64_pending (s : State) (lo hi : Fld) (v i : Nat) : (s.wr64 lo hi v i).pending = s.pending := rfl
@[simp] theorem State.wr64_phys (s : State) (lo hi : Fld) (v i : Nat) : (s.wr64 lo hi v i).phys = s.phys := rfl
@[simp] theorem State.wr64_devTime (s : State) (lo hi : Fld) (v i : Nat) : (s.wr64 lo hi v i).devTime = s.devTime := rfl
@[simp] theorem State.wr64_running (s : State) (lo hi : Fld) (v i : Nat) : (s.wr64 lo hi v i).running = s.running := rfl
@[simp] theorem State.wr64_dead (s : State) (lo hi : Fld) (v i : Nat) : (s.wr64 lo hi v i).dead = s.dead := rfl
@[simp] theorem State.wr64_act (s : State) (lo hi : Fld) (v i : Nat) : (s.wr64 lo hi v i).act = s.act := rfl
@[simp] theorem State.wr64_rlatch (s : State) (lo hi : Fld) (v i : Nat) : (s.wr64 lo hi v i).rlatch = s.rlatch := rfl
@[simp] theorem State.wr64_wlatch (s : State) (lo hi : Fld) (v i : Nat) : (s.wr64 lo hi v i).wlatch = s.wlatch := rfl
@[simp] theorem State.wr64_out (s : State) (lo hi : Fld) (v i : Nat) : (s.wr64 lo hi v i).out = s.out := rfl
@[simp] theorem State.wr64_freeCtr (s : State) (lo hi : Fld) (v i : Nat) : (s.wr64 lo hi v i).freeCtr = s.freeCtr := rfl
@[simp] theorem State.wr64_host (s : State) (lo hi : Fld) (v i : Nat) : (s.wr64 lo hi v i).host = s.host := rfl
@[simp] theorem State.wr64_prism (s : State) (lo hi : Fld) (v i : Nat) : (s.wr64 lo hi v i).prism = s.prism := rfl
@[simp] theorem State.wr64_lan (s : State) (lo hi : Fld) (v i : Nat) : (s.wr64 lo hi v i).lan = s.lan := rfl
@[simp] theorem State.wr64_lumen (s : State) (lo hi : Fld) (v i : Nat) : (s.wr64 lo hi v i).lumen = s.lumen := rfl
@[simp] theorem State.wr64_pool (s : State) (lo hi : Fld) (v i : Nat) : (s.wr64 lo hi v i).pool = s.pool := rfl
@[simp] theorem State.wr64_mgmt (s : State) (lo hi : Fld) (v i : Nat) : (s.wr64 lo hi v i).mgmt = s.mgmt := rfl
@[simp] theorem State.wr64_ledger (s : State) (lo hi : Fld) (v i : Nat) : (s.wr64 lo hi v i).ledger = s.ledger := rfl
@[simp] theorem State.wr64_power (s : State) (lo hi : Fld) (v i : Nat) : (s.wr64 lo hi v i).power = s.power := rfl
@[simp] theorem State.wr64_clk (s : State) (lo hi : Fld) (v i : Nat) : (s.wr64 lo hi v i).clk = s.clk := rfl
@[simp] theorem State.wr64_hbm (s : State) (lo hi : Fld) (v i : Nat) : (s.wr64 lo hi v i).hbm = s.hbm := rfl
@[simp] theorem State.wr64_amu (s : State) (lo hi : Fld) (v i : Nat) : (s.wr64 lo hi v i).amu = s.amu := rfl
@[simp] theorem State.wr64_record (s : State) (lo hi : Fld) (v i : Nat) : (s.wr64 lo hi v i).record = s.record := rfl
@[simp] theorem State.wr64_fibre (s : State) (lo hi : Fld) (v i : Nat) : (s.wr64 lo hi v i).fibre = s.fibre := rfl
@[simp] theorem State.wr64_glint (s : State) (lo hi : Fld) (v i : Nat) : (s.wr64 lo hi v i).glint = s.glint := rfl

/-! ### emit -/
@[simp] theorem State.emit_pending (s : State) (o : Output) : (s.emit o).pending = s.pending := rfl
@[simp] theorem State.emit_phys (s : State) (o : Output) : (s.emit o).phys = s.phys := rfl
@[simp] theorem State.emit_devTime (s : State) (o : Output) : (s.emit o).devTime = s.devTime := rfl
@[simp] theorem State.emit_running (s : State) (o : Output) : (s.emit o).running = s.running := rfl
@[simp] theorem State.emit_dead (s : State) (o : Output) : (s.emit o).dead = s.dead := rfl
@[simp] theorem State.emit_regs (s : State) (o : Output) : (s.emit o).regs = s.regs := rfl
@[simp] theorem State.emit_act (s : State) (o : Output) : (s.emit o).act = s.act := rfl
@[simp] theorem State.emit_rlatch (s : State) (o : Output) : (s.emit o).rlatch = s.rlatch := rfl
@[simp] theorem State.emit_wlatch (s : State) (o : Output) : (s.emit o).wlatch = s.wlatch := rfl
@[simp] theorem State.emit_freeCtr (s : State) (o : Output) : (s.emit o).freeCtr = s.freeCtr := rfl
@[simp] theorem State.emit_host (s : State) (o : Output) : (s.emit o).host = s.host := rfl
@[simp] theorem State.emit_prism (s : State) (o : Output) : (s.emit o).prism = s.prism := rfl
@[simp] theorem State.emit_lan (s : State) (o : Output) : (s.emit o).lan = s.lan := rfl
@[simp] theorem State.emit_lumen (s : State) (o : Output) : (s.emit o).lumen = s.lumen := rfl
@[simp] theorem State.emit_pool (s : State) (o : Output) : (s.emit o).pool = s.pool := rfl
@[simp] theorem State.emit_mgmt (s : State) (o : Output) : (s.emit o).mgmt = s.mgmt := rfl
@[simp] theorem State.emit_ledger (s : State) (o : Output) : (s.emit o).ledger = s.ledger := rfl
@[simp] theorem State.emit_power (s : State) (o : Output) : (s.emit o).power = s.power := rfl
@[simp] theorem State.emit_clk (s : State) (o : Output) : (s.emit o).clk = s.clk := rfl
@[simp] theorem State.emit_hbm (s : State) (o : Output) : (s.emit o).hbm = s.hbm := rfl
@[simp] theorem State.emit_amu (s : State) (o : Output) : (s.emit o).amu = s.amu := rfl
@[simp] theorem State.emit_record (s : State) (o : Output) : (s.emit o).record = s.record := rfl
@[simp] theorem State.emit_fibre (s : State) (o : Output) : (s.emit o).fibre = s.fibre := rfl
@[simp] theorem State.emit_glint (s : State) (o : Output) : (s.emit o).glint = s.glint := rfl

/-! ### onHost -/
@[simp] theorem State.onHost_pending (s : State) (f : HostSt → HostSt) : (s.onHost f).pending = s.pending := rfl
@[simp] theorem State.onHost_phys (s : State) (f : HostSt → HostSt) : (s.onHost f).phys = s.phys := rfl
@[simp] theorem State.onHost_devTime (s : State) (f : HostSt → HostSt) : (s.onHost f).devTime = s.devTime := rfl
@[simp] theorem State.onHost_running (s : State) (f : HostSt → HostSt) : (s.onHost f).running = s.running := rfl
@[simp] theorem State.onHost_dead (s : State) (f : HostSt → HostSt) : (s.onHost f).dead = s.dead := rfl
@[simp] theorem State.onHost_regs (s : State) (f : HostSt → HostSt) : (s.onHost f).regs = s.regs := rfl
@[simp] theorem State.onHost_act (s : State) (f : HostSt → HostSt) : (s.onHost f).act = s.act := rfl
@[simp] theorem State.onHost_rlatch (s : State) (f : HostSt → HostSt) : (s.onHost f).rlatch = s.rlatch := rfl
@[simp] theorem State.onHost_wlatch (s : State) (f : HostSt → HostSt) : (s.onHost f).wlatch = s.wlatch := rfl
@[simp] theorem State.onHost_out (s : State) (f : HostSt → HostSt) : (s.onHost f).out = s.out := rfl
@[simp] theorem State.onHost_freeCtr (s : State) (f : HostSt → HostSt) : (s.onHost f).freeCtr = s.freeCtr := rfl
@[simp] theorem State.onHost_prism (s : State) (f : HostSt → HostSt) : (s.onHost f).prism = s.prism := rfl
@[simp] theorem State.onHost_lan (s : State) (f : HostSt → HostSt) : (s.onHost f).lan = s.lan := rfl
@[simp] theorem State.onHost_lumen (s : State) (f : HostSt → HostSt) : (s.onHost f).lumen = s.lumen := rfl
@[simp] theorem State.onHost_pool (s : State) (f : HostSt → HostSt) : (s.onHost f).pool = s.pool := rfl
@[simp] theorem State.onHost_mgmt (s : State) (f : HostSt → HostSt) : (s.onHost f).mgmt = s.mgmt := rfl
@[simp] theorem State.onHost_ledger (s : State) (f : HostSt → HostSt) : (s.onHost f).ledger = s.ledger := rfl
@[simp] theorem State.onHost_power (s : State) (f : HostSt → HostSt) : (s.onHost f).power = s.power := rfl
@[simp] theorem State.onHost_clk (s : State) (f : HostSt → HostSt) : (s.onHost f).clk = s.clk := rfl
@[simp] theorem State.onHost_hbm (s : State) (f : HostSt → HostSt) : (s.onHost f).hbm = s.hbm := rfl
@[simp] theorem State.onHost_amu (s : State) (f : HostSt → HostSt) : (s.onHost f).amu = s.amu := rfl
@[simp] theorem State.onHost_record (s : State) (f : HostSt → HostSt) : (s.onHost f).record = s.record := rfl
@[simp] theorem State.onHost_fibre (s : State) (f : HostSt → HostSt) : (s.onHost f).fibre = s.fibre := rfl
@[simp] theorem State.onHost_glint (s : State) (f : HostSt → HostSt) : (s.onHost f).glint = s.glint := rfl

/-! ### setSq -/
@[simp] theorem State.setSq_pending (s : State) (n : Nat) (r : SqRing) : (s.setSq n r).pending = s.pending := rfl
@[simp] theorem State.setSq_phys (s : State) (n : Nat) (r : SqRing) : (s.setSq n r).phys = s.phys := rfl
@[simp] theorem State.setSq_devTime (s : State) (n : Nat) (r : SqRing) : (s.setSq n r).devTime = s.devTime := rfl
@[simp] theorem State.setSq_running (s : State) (n : Nat) (r : SqRing) : (s.setSq n r).running = s.running := rfl
@[simp] theorem State.setSq_dead (s : State) (n : Nat) (r : SqRing) : (s.setSq n r).dead = s.dead := rfl
@[simp] theorem State.setSq_regs (s : State) (n : Nat) (r : SqRing) : (s.setSq n r).regs = s.regs := rfl
@[simp] theorem State.setSq_act (s : State) (n : Nat) (r : SqRing) : (s.setSq n r).act = s.act := rfl
@[simp] theorem State.setSq_rlatch (s : State) (n : Nat) (r : SqRing) : (s.setSq n r).rlatch = s.rlatch := rfl
@[simp] theorem State.setSq_wlatch (s : State) (n : Nat) (r : SqRing) : (s.setSq n r).wlatch = s.wlatch := rfl
@[simp] theorem State.setSq_out (s : State) (n : Nat) (r : SqRing) : (s.setSq n r).out = s.out := rfl
@[simp] theorem State.setSq_freeCtr (s : State) (n : Nat) (r : SqRing) : (s.setSq n r).freeCtr = s.freeCtr := rfl
@[simp] theorem State.setSq_prism (s : State) (n : Nat) (r : SqRing) : (s.setSq n r).prism = s.prism := rfl
@[simp] theorem State.setSq_lan (s : State) (n : Nat) (r : SqRing) : (s.setSq n r).lan = s.lan := rfl
@[simp] theorem State.setSq_lumen (s : State) (n : Nat) (r : SqRing) : (s.setSq n r).lumen = s.lumen := rfl
@[simp] theorem State.setSq_pool (s : State) (n : Nat) (r : SqRing) : (s.setSq n r).pool = s.pool := rfl
@[simp] theorem State.setSq_mgmt (s : State) (n : Nat) (r : SqRing) : (s.setSq n r).mgmt = s.mgmt := rfl
@[simp] theorem State.setSq_ledger (s : State) (n : Nat) (r : SqRing) : (s.setSq n r).ledger = s.ledger := rfl
@[simp] theorem State.setSq_power (s : State) (n : Nat) (r : SqRing) : (s.setSq n r).power = s.power := rfl
@[simp] theorem State.setSq_clk (s : State) (n : Nat) (r : SqRing) : (s.setSq n r).clk = s.clk := rfl
@[simp] theorem State.setSq_hbm (s : State) (n : Nat) (r : SqRing) : (s.setSq n r).hbm = s.hbm := rfl
@[simp] theorem State.setSq_amu (s : State) (n : Nat) (r : SqRing) : (s.setSq n r).amu = s.amu := rfl
@[simp] theorem State.setSq_record (s : State) (n : Nat) (r : SqRing) : (s.setSq n r).record = s.record := rfl
@[simp] theorem State.setSq_fibre (s : State) (n : Nat) (r : SqRing) : (s.setSq n r).fibre = s.fibre := rfl
@[simp] theorem State.setSq_glint (s : State) (n : Nat) (r : SqRing) : (s.setSq n r).glint = s.glint := rfl

/-! ### setCq -/
@[simp] theorem State.setCq_pending (s : State) (n : Nat) (r : CqRing) : (s.setCq n r).pending = s.pending := rfl
@[simp] theorem State.setCq_phys (s : State) (n : Nat) (r : CqRing) : (s.setCq n r).phys = s.phys := rfl
@[simp] theorem State.setCq_devTime (s : State) (n : Nat) (r : CqRing) : (s.setCq n r).devTime = s.devTime := rfl
@[simp] theorem State.setCq_running (s : State) (n : Nat) (r : CqRing) : (s.setCq n r).running = s.running := rfl
@[simp] theorem State.setCq_dead (s : State) (n : Nat) (r : CqRing) : (s.setCq n r).dead = s.dead := rfl
@[simp] theorem State.setCq_regs (s : State) (n : Nat) (r : CqRing) : (s.setCq n r).regs = s.regs := rfl
@[simp] theorem State.setCq_act (s : State) (n : Nat) (r : CqRing) : (s.setCq n r).act = s.act := rfl
@[simp] theorem State.setCq_rlatch (s : State) (n : Nat) (r : CqRing) : (s.setCq n r).rlatch = s.rlatch := rfl
@[simp] theorem State.setCq_wlatch (s : State) (n : Nat) (r : CqRing) : (s.setCq n r).wlatch = s.wlatch := rfl
@[simp] theorem State.setCq_out (s : State) (n : Nat) (r : CqRing) : (s.setCq n r).out = s.out := rfl
@[simp] theorem State.setCq_freeCtr (s : State) (n : Nat) (r : CqRing) : (s.setCq n r).freeCtr = s.freeCtr := rfl
@[simp] theorem State.setCq_prism (s : State) (n : Nat) (r : CqRing) : (s.setCq n r).prism = s.prism := rfl
@[simp] theorem State.setCq_lan (s : State) (n : Nat) (r : CqRing) : (s.setCq n r).lan = s.lan := rfl
@[simp] theorem State.setCq_lumen (s : State) (n : Nat) (r : CqRing) : (s.setCq n r).lumen = s.lumen := rfl
@[simp] theorem State.setCq_pool (s : State) (n : Nat) (r : CqRing) : (s.setCq n r).pool = s.pool := rfl
@[simp] theorem State.setCq_mgmt (s : State) (n : Nat) (r : CqRing) : (s.setCq n r).mgmt = s.mgmt := rfl
@[simp] theorem State.setCq_ledger (s : State) (n : Nat) (r : CqRing) : (s.setCq n r).ledger = s.ledger := rfl
@[simp] theorem State.setCq_power (s : State) (n : Nat) (r : CqRing) : (s.setCq n r).power = s.power := rfl
@[simp] theorem State.setCq_clk (s : State) (n : Nat) (r : CqRing) : (s.setCq n r).clk = s.clk := rfl
@[simp] theorem State.setCq_hbm (s : State) (n : Nat) (r : CqRing) : (s.setCq n r).hbm = s.hbm := rfl
@[simp] theorem State.setCq_amu (s : State) (n : Nat) (r : CqRing) : (s.setCq n r).amu = s.amu := rfl
@[simp] theorem State.setCq_record (s : State) (n : Nat) (r : CqRing) : (s.setCq n r).record = s.record := rfl
@[simp] theorem State.setCq_fibre (s : State) (n : Nat) (r : CqRing) : (s.setCq n r).fibre = s.fibre := rfl
@[simp] theorem State.setCq_glint (s : State) (n : Nat) (r : CqRing) : (s.setCq n r).glint = s.glint := rfl

/-! ### loseEvent -/
@[simp] theorem State.loseEvent_pending (s : State) : (s.loseEvent).pending = s.pending := rfl
@[simp] theorem State.loseEvent_phys (s : State) : (s.loseEvent).phys = s.phys := rfl
@[simp] theorem State.loseEvent_devTime (s : State) : (s.loseEvent).devTime = s.devTime := rfl
@[simp] theorem State.loseEvent_running (s : State) : (s.loseEvent).running = s.running := rfl
@[simp] theorem State.loseEvent_dead (s : State) : (s.loseEvent).dead = s.dead := rfl
@[simp] theorem State.loseEvent_act (s : State) : (s.loseEvent).act = s.act := rfl
@[simp] theorem State.loseEvent_rlatch (s : State) : (s.loseEvent).rlatch = s.rlatch := rfl
@[simp] theorem State.loseEvent_wlatch (s : State) : (s.loseEvent).wlatch = s.wlatch := rfl
@[simp] theorem State.loseEvent_out (s : State) : (s.loseEvent).out = s.out := rfl
@[simp] theorem State.loseEvent_freeCtr (s : State) : (s.loseEvent).freeCtr = s.freeCtr := rfl
@[simp] theorem State.loseEvent_prism (s : State) : (s.loseEvent).prism = s.prism := rfl
@[simp] theorem State.loseEvent_lan (s : State) : (s.loseEvent).lan = s.lan := rfl
@[simp] theorem State.loseEvent_lumen (s : State) : (s.loseEvent).lumen = s.lumen := rfl
@[simp] theorem State.loseEvent_pool (s : State) : (s.loseEvent).pool = s.pool := rfl
@[simp] theorem State.loseEvent_mgmt (s : State) : (s.loseEvent).mgmt = s.mgmt := rfl
@[simp] theorem State.loseEvent_ledger (s : State) : (s.loseEvent).ledger = s.ledger := rfl
@[simp] theorem State.loseEvent_power (s : State) : (s.loseEvent).power = s.power := rfl
@[simp] theorem State.loseEvent_clk (s : State) : (s.loseEvent).clk = s.clk := rfl
@[simp] theorem State.loseEvent_hbm (s : State) : (s.loseEvent).hbm = s.hbm := rfl
@[simp] theorem State.loseEvent_amu (s : State) : (s.loseEvent).amu = s.amu := rfl
@[simp] theorem State.loseEvent_record (s : State) : (s.loseEvent).record = s.record := rfl
@[simp] theorem State.loseEvent_fibre (s : State) : (s.loseEvent).fibre = s.fibre := rfl
@[simp] theorem State.loseEvent_glint (s : State) : (s.loseEvent).glint = s.glint := rfl

/-! ### applyShadow -/
@[simp] theorem State.applyShadow_pending (s : State) (lo hi : Nat) (m : Regs) : (s.applyShadow lo hi m).pending = s.pending := rfl
@[simp] theorem State.applyShadow_phys (s : State) (lo hi : Nat) (m : Regs) : (s.applyShadow lo hi m).phys = s.phys := rfl
@[simp] theorem State.applyShadow_devTime (s : State) (lo hi : Nat) (m : Regs) : (s.applyShadow lo hi m).devTime = s.devTime := rfl
@[simp] theorem State.applyShadow_running (s : State) (lo hi : Nat) (m : Regs) : (s.applyShadow lo hi m).running = s.running := rfl
@[simp] theorem State.applyShadow_dead (s : State) (lo hi : Nat) (m : Regs) : (s.applyShadow lo hi m).dead = s.dead := rfl
@[simp] theorem State.applyShadow_regs (s : State) (lo hi : Nat) (m : Regs) : (s.applyShadow lo hi m).regs = s.regs := rfl
@[simp] theorem State.applyShadow_rlatch (s : State) (lo hi : Nat) (m : Regs) : (s.applyShadow lo hi m).rlatch = s.rlatch := rfl
@[simp] theorem State.applyShadow_wlatch (s : State) (lo hi : Nat) (m : Regs) : (s.applyShadow lo hi m).wlatch = s.wlatch := rfl
@[simp] theorem State.applyShadow_out (s : State) (lo hi : Nat) (m : Regs) : (s.applyShadow lo hi m).out = s.out := rfl
@[simp] theorem State.applyShadow_freeCtr (s : State) (lo hi : Nat) (m : Regs) : (s.applyShadow lo hi m).freeCtr = s.freeCtr := rfl
@[simp] theorem State.applyShadow_host (s : State) (lo hi : Nat) (m : Regs) : (s.applyShadow lo hi m).host = s.host := rfl
@[simp] theorem State.applyShadow_prism (s : State) (lo hi : Nat) (m : Regs) : (s.applyShadow lo hi m).prism = s.prism := rfl
@[simp] theorem State.applyShadow_lan (s : State) (lo hi : Nat) (m : Regs) : (s.applyShadow lo hi m).lan = s.lan := rfl
@[simp] theorem State.applyShadow_lumen (s : State) (lo hi : Nat) (m : Regs) : (s.applyShadow lo hi m).lumen = s.lumen := rfl
@[simp] theorem State.applyShadow_pool (s : State) (lo hi : Nat) (m : Regs) : (s.applyShadow lo hi m).pool = s.pool := rfl
@[simp] theorem State.applyShadow_mgmt (s : State) (lo hi : Nat) (m : Regs) : (s.applyShadow lo hi m).mgmt = s.mgmt := rfl
@[simp] theorem State.applyShadow_ledger (s : State) (lo hi : Nat) (m : Regs) : (s.applyShadow lo hi m).ledger = s.ledger := rfl
@[simp] theorem State.applyShadow_power (s : State) (lo hi : Nat) (m : Regs) : (s.applyShadow lo hi m).power = s.power := rfl
@[simp] theorem State.applyShadow_clk (s : State) (lo hi : Nat) (m : Regs) : (s.applyShadow lo hi m).clk = s.clk := rfl
@[simp] theorem State.applyShadow_hbm (s : State) (lo hi : Nat) (m : Regs) : (s.applyShadow lo hi m).hbm = s.hbm := rfl
@[simp] theorem State.applyShadow_amu (s : State) (lo hi : Nat) (m : Regs) : (s.applyShadow lo hi m).amu = s.amu := rfl
@[simp] theorem State.applyShadow_record (s : State) (lo hi : Nat) (m : Regs) : (s.applyShadow lo hi m).record = s.record := rfl
@[simp] theorem State.applyShadow_fibre (s : State) (lo hi : Nat) (m : Regs) : (s.applyShadow lo hi m).fibre = s.fibre := rfl
@[simp] theorem State.applyShadow_glint (s : State) (lo hi : Nat) (m : Regs) : (s.applyShadow lo hi m).glint = s.glint := rfl

/-! ### One field of a register word -/

theorem Fld.ofWord_lt (f : Fld) (w : Word) : f.ofWord w < f.span := Nat.mod_lt _ (Nat.two_pow_pos _)

/-- The bits below, inside and above a field. -/
theorem Fld.split_word (f : Fld) (x : Nat) :
    x = x % 2 ^ f.lo + 2 ^ f.lo * (x / 2 ^ f.lo % f.span) + 2 ^ f.lo * f.span * (x / 2 ^ f.lo / f.span) := by
  have h1 := Nat.div_add_mod x (2 ^ f.lo)
  have h2 := Nat.div_add_mod (x / 2 ^ f.lo) f.span
  calc x = 2 ^ f.lo * (x / 2 ^ f.lo) + x % 2 ^ f.lo := h1.symm
    _ = 2 ^ f.lo * (f.span * (x / 2 ^ f.lo / f.span) + x / 2 ^ f.lo % f.span) + x % 2 ^ f.lo := by rw [h2]
    _ = _ := by rw [Nat.mul_add, ← Nat.mul_assoc]; omega

/-- A field of a register lies in its 32 bits. -/
def Fld.ok (f : Fld) : Bool := decide (f.lo ≤ f.hi ∧ f.hi < 32)

theorem Fld.span_mul (f : Fld) (h : f.ok = true) : ∃ q, 2 ^ 32 = 2 ^ f.lo * f.span * q ∧ 0 < q := by
  simp only [Fld.ok, decide_eq_true_eq] at h
  refine ⟨2 ^ (31 - f.hi), ?_, Nat.two_pow_pos _⟩
  simp only [Fld.span]
  rw [← Nat.pow_add, ← Nat.pow_add]
  congr 1
  omega

theorem Fld.inWord_toNat {f : Fld} (h : f.ok = true) (w : Word) (v : Nat) :
    (f.inWord w v).toNat =
      w.toNat % 2 ^ f.lo + 2 ^ f.lo * (v % f.span) + 2 ^ f.lo * f.span * (w.toNat / 2 ^ f.lo / f.span) := by
  obtain ⟨q, hq, -⟩ := f.span_mul h
  have hx := f.split_word w.toNat
  have hlt : w.toNat < 2 ^ 32 := w.isLt
  have hL : 0 < 2 ^ f.lo := Nat.two_pow_pos _
  have hS : 0 < f.span := Nat.two_pow_pos _
  have ha : w.toNat % 2 ^ f.lo < 2 ^ f.lo := Nat.mod_lt _ hL
  have hv : v % f.span < f.span := Nat.mod_lt _ hS
  have hc : w.toNat / 2 ^ f.lo / f.span < q := by
    rw [Nat.div_div_eq_div_mul]
    apply Nat.div_lt_of_lt_mul
    rw [← hq]
    exact hlt
  have e : w.toNat - f.ofWord w * 2 ^ f.lo + v % f.span * 2 ^ f.lo =
      w.toNat % 2 ^ f.lo + 2 ^ f.lo * (v % f.span) + 2 ^ f.lo * f.span * (w.toNat / 2 ^ f.lo / f.span) := by
    have h1 : f.ofWord w * 2 ^ f.lo = 2 ^ f.lo * (w.toNat / 2 ^ f.lo % f.span) := Nat.mul_comm _ _
    rw [h1, Nat.mul_comm (v % f.span)]
    omega
  rw [Fld.inWord, e, BitVec.toNat_ofNat, Nat.mod_eq_of_lt]
  rw [hq]
  calc _ < 2 ^ f.lo + 2 ^ f.lo * (v % f.span) + 2 ^ f.lo * f.span * (w.toNat / 2 ^ f.lo / f.span) := by omega
    _ = 2 ^ f.lo * (v % f.span + 1) + 2 ^ f.lo * f.span * (w.toNat / 2 ^ f.lo / f.span) := by rw [Nat.mul_add]; omega
    _ ≤ 2 ^ f.lo * f.span + 2 ^ f.lo * f.span * (w.toNat / 2 ^ f.lo / f.span) :=
        Nat.add_le_add_right (Nat.mul_le_mul_left _ hv) _
    _ = 2 ^ f.lo * f.span * (w.toNat / 2 ^ f.lo / f.span + 1) := by rw [Nat.mul_add]; omega
    _ ≤ 2 ^ f.lo * f.span * q := Nat.mul_le_mul_left _ hc

/-- A field reads as what was written to it, cut to its width. -/
theorem Fld.ofWord_inWord {f : Fld} (h : f.ok = true) (w : Word) (v : Nat) : f.ofWord (f.inWord w v) = v % f.span := by
  have hL : 0 < 2 ^ f.lo := Nat.two_pow_pos _
  have ha : w.toNat % 2 ^ f.lo < 2 ^ f.lo := Nat.mod_lt _ hL
  rw [Fld.ofWord, f.inWord_toNat h, Nat.add_assoc, Nat.mul_assoc, ← Nat.mul_add, Nat.add_mul_div_left _ _ hL,
    Nat.div_eq_of_lt ha, Nat.zero_add, Nat.add_mul_mod_self_left, Nat.mod_mod]

/-- A field in other bits of the same register is untouched. -/
theorem Fld.ofWord_inWord_ne {f g : Fld} (hf : f.ok = true) (hg : g.ok = true) (hd : g.hi < f.lo ∨ f.hi < g.lo) (w : Word)
    (v : Nat) : g.ofWord (f.inWord w v) = g.ofWord w := by
  have hL : 0 < 2 ^ f.lo := Nat.two_pow_pos _
  have hS : 0 < f.span := Nat.two_pow_pos _
  have hx := f.split_word w.toNat
  have hy := f.inWord_toNat hf w v
  simp only [Fld.ok, decide_eq_true_eq] at hf hg
  have ha : w.toNat % 2 ^ f.lo < 2 ^ f.lo := Nat.mod_lt _ hL
  rcases hd with hd | hd
  · have e : (f.inWord w v).toNat % 2 ^ f.lo = w.toNat % 2 ^ f.lo := by
      rw [hy, Nat.mul_assoc, Nat.add_assoc, ← Nat.mul_add, Nat.add_mul_mod_self_left, Nat.mod_mod]
    have key (x : Nat) : x / 2 ^ g.lo % g.span = x % 2 ^ f.lo / 2 ^ g.lo % g.span := by
      have e1 : 2 ^ f.lo = 2 ^ g.lo * g.span * 2 ^ (f.lo - (g.hi + 1)) := by
        simp only [Fld.span]
        rw [← Nat.pow_add, ← Nat.pow_add]
        congr 1
        omega
      rw [e1, Nat.mul_assoc, Nat.mod_mul_right_div_self, Nat.mod_mul_right_mod]
    rw [Fld.ofWord, Fld.ofWord, key, e, ← key]
  · have hv : v % f.span < f.span := Nat.mod_lt _ hS
    have hb : w.toNat / 2 ^ f.lo % f.span < f.span := Nat.mod_lt _ hS
    have dv (b : Nat) (hb : b < f.span) (c : Nat) :
        (w.toNat % 2 ^ f.lo + 2 ^ f.lo * b + 2 ^ f.lo * f.span * c) / (2 ^ f.lo * f.span) = c := by
      have h1 : w.toNat % 2 ^ f.lo + 2 ^ f.lo * b < 2 ^ f.lo * f.span := by
        calc _ < 2 ^ f.lo * (b + 1) := by rw [Nat.mul_add]; omega
          _ ≤ 2 ^ f.lo * f.span := Nat.mul_le_mul_left _ hb
      rw [Nat.add_mul_div_left _ _ (Nat.mul_pos hL hS), Nat.div_eq_of_lt h1, Nat.zero_add]
    have e : (f.inWord w v).toNat / (2 ^ f.lo * f.span) = w.toNat / (2 ^ f.lo * f.span) := by
      rw [hy, dv _ hv, Nat.div_div_eq_div_mul]
    have e1 : 2 ^ g.lo = 2 ^ f.lo * f.span * 2 ^ (g.lo - (f.hi + 1)) := by
      simp only [Fld.span]
      rw [← Nat.pow_add, ← Nat.pow_add]
      congr 1
      omega
    have key (x : Nat) : x / 2 ^ g.lo = x / (2 ^ f.lo * f.span) / 2 ^ (g.lo - (f.hi + 1)) := by
      rw [e1, Nat.div_div_eq_div_mul]
    rw [Fld.ofWord, Fld.ofWord, key, e, ← key]

/-! ### Register fields of a state -/

/-- A field reads as what was written to it, cut to its width. -/
theorem State.rd_wr_same {f : Fld} (h : f.ok = true) (s : State) (v i j : Nat) : (s.wr f v i j).rd f i j = v % f.span := by
  simp only [State.rd, State.wr, Regs.rd, Regs.wr, kget_kset_same, Fld.ofWord_inWord h]

/-- A field of another register is untouched. -/
theorem State.rd_wr_addr {f g : Fld} {i j i' j' : Nat} (h : g.addr i' j' ≠ f.addr i j) (s : State) (v : Nat) :
    (s.wr f v i j).rd g i' j' = s.rd g i' j' := by
  simp only [State.rd, State.wr, Regs.rd, Regs.wr, kget_kset_ne _ _ _ _ h]

/-- Another field of the same register is untouched. -/
theorem State.rd_wr_bits {f g : Fld} {i j i' j' : Nat} (hf : f.ok = true) (hg : g.ok = true)
    (ha : g.addr i' j' = f.addr i j) (hr : g.rst j' = f.rst j) (hd : g.hi < f.lo ∨ f.hi < g.lo) (s : State) (v : Nat) :
    (s.wr f v i j).rd g i' j' = s.rd g i' j' := by
  simp only [State.rd, State.wr, Regs.rd, Regs.wr, ha, hr, kget_kset_same, Fld.ofWord_inWord_ne hf hg hd]

/-- Other words of the register file are untouched. -/
theorem State.word_wr {f : Fld} {i j a : Nat} (h : a ≠ f.addr i j) (s : State) (v : Nat) (d : Word) :
    (s.wr f v i j).word a d = s.word a d := by
  simp only [State.word, State.wr, Regs.wr, kget_kset_ne _ _ _ _ h]

/-- A one-bit flag that was set reads as set. -/
theorem State.flag_setf {f : Fld} (h : f.ok = true) (h1 : 1 < f.span) (s : State) (i j : Nat) :
    (s.setf f i j).flag f i j = true := by
  simp [State.flag, State.setf, State.rd_wr_same h, Nat.mod_eq_of_lt h1]

/-- A cleared field reads 0. -/
theorem State.rd_clrf {f : Fld} (h : f.ok = true) (s : State) (i j : Nat) : (s.clrf f i j).rd f i j = 0 := by
  simp [State.clrf, State.rd_wr_same h]

/-- A counter counts up and saturates at its width (R16). -/
theorem State.rd_count {f : Fld} (h : f.ok = true) (s : State) (n i j : Nat) :
    (s.count f n i j).rd f i j = min (s.rd f i j + n) (f.span - 1) := by
  have hS : 0 < f.span := Nat.two_pow_pos _
  rw [State.count, State.rd_wr_same h, Nat.mod_eq_of_lt (by omega)]

/-- The register file keeps its canonical form at a field write. -/
theorem Regs.wr_wf {m : Regs} {f : Fld} {i j : Nat} {d : Nat → Word} (hd : d (f.addr i j) = f.rst j) (v : Nat)
    (w : kwf d m = true) : kwf d (m.wr f i j v) = true := by
  rw [Regs.wr, ← hd]
  exact kset_wf _ _ w

end Sys2Proof.Machine
end

