-- ==== Sys2Proof/Laws/Ops.lean ====
section
/-! SUPPORT. Laws/Ops.lean: everything the shared operations can do: outcomes, signals, events and the passing of time. -/
namespace Sys2Proof.Machine

/-! ### Outcomes -/

theorem live_next (s : State) (f : State → State) :
    live s f = .next (if s.dead then s else { f s with pending := s.pending }) := rfl

theorem live_alive {s : State} (h : s.dead = false) (f : State → State) : live s f = .next { f s with pending := s.pending } := by
  simp [live, h]

theorem live_dead {s : State} (h : s.dead = true) (f : State → State) : live s f = .next s := by
  simp [live, h]

theorem liveRead_alive {s : State} (h : s.dead = false) (a : Nat) (f : State → State) :
    liveRead s a f = .next { f s with pending := s.pending } := by
  simp [liveRead, h]

theorem liveRead_dead {s : State} (h : s.dead = true) (a : Nat) (f : State → State) :
    liveRead s a f = .next (s.emit (.readData a 0xFFFFFFFF)) := by
  simp [liveRead, h]

/-- What an outcome by `live` can be: a next state with the same queue; a dead device is unchanged. -/
theorem live_spec (s : State) (f : State → State) :
    ∃ t, live s f = .next t ∧ t.pending = s.pending ∧ (s.dead = true → t = s) := by
  refine ⟨_, rfl, ?_, ?_⟩
  · split <;> rfl
  · intro h
    simp [h]

/-- What an outcome by `liveRead` can be. -/
theorem liveRead_spec (s : State) (a : Nat) (f : State → State) :
    ∃ t, liveRead s a f = .next t ∧ t.pending = s.pending ∧ (s.dead = true → t = s.emit (.readData a 0xFFFFFFFF)) := by
  refine ⟨_, rfl, ?_, ?_⟩
  · split <;> rfl
  · intro h
    simp [h]

/-! ### Signals and events -/

/-- Vector `v` with its pending bit set. -/
def State.pended (s : State) (v : Nat) : State :=
  let a := msixPba + 4 * (v / 32)
  { s with regs := kset s.regs a (s.word a ||| BitVec.ofNat 32 (2 ^ (v % 32))) 0 }

/-- The message of vector `v`. -/
def State.message (s : State) (v : Nat) : Output :=
  .msix v ((s.word (msixTable + 16 * v)).toNat + 2 ^ 32 * (s.word (msixTable + 16 * v + 4)).toNat)
    (s.word (msixTable + 16 * v + 8)).toNat

/-- A signal sets the pending bit of a masked vector, or sends the vector's message (R72). -/
theorem State.signal_cases (s : State) (v : Nat) :
    (s.vectorMasked v = true ∧ s.signal v = s.pended v) ∨ (s.vectorMasked v = false ∧ s.signal v = s.emit (s.message v)) := by
  by_cases h : s.vectorMasked v = true
  · exact .inl ⟨h, by simp [State.signal, h, State.pended]⟩
  · exact .inr ⟨by simpa using h, by simp [State.signal, h, State.message]⟩

theorem State.signal_frame (s : State) (v : Nat) :
    s.signal v = { s with regs := (s.signal v).regs, out := (s.signal v).out } := by
  rcases s.signal_cases v with ⟨-, h⟩ | ⟨-, h⟩ <;> rw [h] <;> rfl

@[simp] theorem State.signal_pending (s : State) (v : Nat) : (s.signal v).pending = s.pending := by rw [State.signal_frame]
@[simp] theorem State.signal_phys (s : State) (v : Nat) : (s.signal v).phys = s.phys := by rw [State.signal_frame]
@[simp] theorem State.signal_devTime (s : State) (v : Nat) : (s.signal v).devTime = s.devTime := by rw [State.signal_frame]
@[simp] theorem State.signal_running (s : State) (v : Nat) : (s.signal v).running = s.running := by rw [State.signal_frame]
@[simp] theorem State.signal_dead (s : State) (v : Nat) : (s.signal v).dead = s.dead := by rw [State.signal_frame]
@[simp] theorem State.signal_act (s : State) (v : Nat) : (s.signal v).act = s.act := by rw [State.signal_frame]
@[simp] theorem State.signal_rlatch (s : State) (v : Nat) : (s.signal v).rlatch = s.rlatch := by rw [State.signal_frame]
@[simp] theorem State.signal_wlatch (s : State) (v : Nat) : (s.signal v).wlatch = s.wlatch := by rw [State.signal_frame]
@[simp] theorem State.signal_freeCtr (s : State) (v : Nat) : (s.signal v).freeCtr = s.freeCtr := by rw [State.signal_frame]
@[simp] theorem State.signal_host (s : State) (v : Nat) : (s.signal v).host = s.host := by rw [State.signal_frame]
@[simp] theorem State.signal_prism (s : State) (v : Nat) : (s.signal v).prism = s.prism := by rw [State.signal_frame]
@[simp] theorem State.signal_lan (s : State) (v : Nat) : (s.signal v).lan = s.lan := by rw [State.signal_frame]
@[simp] theorem State.signal_lumen (s : State) (v : Nat) : (s.signal v).lumen = s.lumen := by rw [State.signal_frame]
@[simp] theorem State.signal_pool (s : State) (v : Nat) : (s.signal v).pool = s.pool := by rw [State.signal_frame]
@[simp] theorem State.signal_mgmt (s : State) (v : Nat) : (s.signal v).mgmt = s.mgmt := by rw [State.signal_frame]
@[simp] theorem State.signal_ledger (s : State) (v : Nat) : (s.signal v).ledger = s.ledger := by rw [State.signal_frame]
@[simp] theorem State.signal_power (s : State) (v : Nat) : (s.signal v).power = s.power := by rw [State.signal_frame]
@[simp] theorem State.signal_clk (s : State) (v : Nat) : (s.signal v).clk = s.clk := by rw [State.signal_frame]
@[simp] theorem State.signal_hbm (s : State) (v : Nat) : (s.signal v).hbm = s.hbm := by rw [State.signal_frame]
@[simp] theorem State.signal_amu (s : State) (v : Nat) : (s.signal v).amu = s.amu := by rw [State.signal_frame]
@[simp] theorem State.signal_record (s : State) (v : Nat) : (s.signal v).record = s.record := by rw [State.signal_frame]
@[simp] theorem State.signal_fibre (s : State) (v : Nat) : (s.signal v).fibre = s.fibre := by rw [State.signal_frame]
@[simp] theorem State.signal_glint (s : State) (v : Nat) : (s.signal v).glint = s.glint := by rw [State.signal_frame]

theorem State.writeEvent_frame (s : State) (sev code src d0 d1 : Nat) :
    s.writeEvent sev code src d0 d1 = { s with
      regs := (s.writeEvent sev code src d0 d1).regs, out := (s.writeEvent sev code src d0 d1).out
      host := (s.writeEvent sev code src d0 d1).host } := by
  unfold State.writeEvent
  dsimp only
  split <;> (rw [State.signal_frame]; rfl)

@[simp] theorem State.writeEvent_pending (s : State) (sev code src d0 d1 : Nat) : (s.writeEvent sev code src d0 d1).pending = s.pending := by rw [State.writeEvent_frame]
@[simp] theorem State.writeEvent_phys (s : State) (sev code src d0 d1 : Nat) : (s.writeEvent sev code src d0 d1).phys = s.phys := by rw [State.writeEvent_frame]
@[simp] theorem State.writeEvent_devTime (s : State) (sev code src d0 d1 : Nat) : (s.writeEvent sev code src d0 d1).devTime = s.devTime := by rw [State.writeEvent_frame]
@[simp] theorem State.writeEvent_running (s : State) (sev code src d0 d1 : Nat) : (s.writeEvent sev code src d0 d1).running = s.running := by rw [State.writeEvent_frame]
@[simp] theorem State.writeEvent_dead (s : State) (sev code src d0 d1 : Nat) : (s.writeEvent sev code src d0 d1).dead = s.dead := by rw [State.writeEvent_frame]
@[simp] theorem State.writeEvent_act (s : State) (sev code src d0 d1 : Nat) : (s.writeEvent sev code src d0 d1).act = s.act := by rw [State.writeEvent_frame]
@[simp] theorem State.writeEvent_rlatch (s : State) (sev code src d0 d1 : Nat) : (s.writeEvent sev code src d0 d1).rlatch = s.rlatch := by rw [State.writeEvent_frame]
@[simp] theorem State.writeEvent_wlatch (s : State) (sev code src d0 d1 : Nat) : (s.writeEvent sev code src d0 d1).wlatch = s.wlatch := by rw [State.writeEvent_frame]
@[simp] theorem State.writeEvent_freeCtr (s : State) (sev code src d0 d1 : Nat) : (s.writeEvent sev code src d0 d1).freeCtr = s.freeCtr := by rw [State.writeEvent_frame]
@[simp] theorem State.writeEvent_prism (s : State) (sev code src d0 d1 : Nat) : (s.writeEvent sev code src d0 d1).prism = s.prism := by rw [State.writeEvent_frame]
@[simp] theorem State.writeEvent_lan (s : State) (sev code src d0 d1 : Nat) : (s.writeEvent sev code src d0 d1).lan = s.lan := by rw [State.writeEvent_frame]
@[simp] theorem State.writeEvent_lumen (s : State) (sev code src d0 d1 : Nat) : (s.writeEvent sev code src d0 d1).lumen = s.lumen := by rw [State.writeEvent_frame]
@[simp] theorem State.writeEvent_pool (s : State) (sev code src d0 d1 : Nat) : (s.writeEvent sev code src d0 d1).pool = s.pool := by rw [State.writeEvent_frame]
@[simp] theorem State.writeEvent_mgmt (s : State) (sev code src d0 d1 : Nat) : (s.writeEvent sev code src d0 d1).mgmt = s.mgmt := by rw [State.writeEvent_frame]
@[simp] theorem State.writeEvent_ledger (s : State) (sev code src d0 d1 : Nat) : (s.writeEvent sev code src d0 d1).ledger = s.ledger := by rw [State.writeEvent_frame]
@[simp] theorem State.writeEvent_power (s : State) (sev code src d0 d1 : Nat) : (s.writeEvent sev code src d0 d1).power = s.power := by rw [State.writeEvent_frame]
@[simp] theorem State.writeEvent_clk (s : State) (sev code src d0 d1 : Nat) : (s.writeEvent sev code src d0 d1).clk = s.clk := by rw [State.writeEvent_frame]
@[simp] theorem State.writeEvent_hbm (s : State) (sev code src d0 d1 : Nat) : (s.writeEvent sev code src d0 d1).hbm = s.hbm := by rw [State.writeEvent_frame]
@[simp] theorem State.writeEvent_amu (s : State) (sev code src d0 d1 : Nat) : (s.writeEvent sev code src d0 d1).amu = s.amu := by rw [State.writeEvent_frame]
@[simp] theorem State.writeEvent_record (s : State) (sev code src d0 d1 : Nat) : (s.writeEvent sev code src d0 d1).record = s.record := by rw [State.writeEvent_frame]
@[simp] theorem State.writeEvent_fibre (s : State) (sev code src d0 d1 : Nat) : (s.writeEvent sev code src d0 d1).fibre = s.fibre := by rw [State.writeEvent_frame]
@[simp] theorem State.writeEvent_glint (s : State) (sev code src d0 d1 : Nat) : (s.writeEvent sev code src d0 d1).glint = s.glint := by rw [State.writeEvent_frame]

theorem State.overflowEvent_frame (s : State) :
    s.overflowEvent = { s with regs := s.overflowEvent.regs, out := s.overflowEvent.out, host := s.overflowEvent.host } := by
  unfold State.overflowEvent
  split
  · rw [State.writeEvent_frame]; rfl
  · rfl

@[simp] theorem State.overflowEvent_pending (s : State)  : (s.overflowEvent).pending = s.pending := by rw [State.overflowEvent_frame]
@[simp] theorem State.overflowEvent_phys (s : State)  : (s.overflowEvent).phys = s.phys := by rw [State.overflowEvent_frame]
@[simp] theorem State.overflowEvent_devTime (s : State)  : (s.overflowEvent).devTime = s.devTime := by rw [State.overflowEvent_frame]
@[simp] theorem State.overflowEvent_running (s : State)  : (s.overflowEvent).running = s.running := by rw [State.overflowEvent_frame]
@[simp] theorem State.overflowEvent_dead (s : State)  : (s.overflowEvent).dead = s.dead := by rw [State.overflowEvent_frame]
@[simp] theorem State.overflowEvent_act (s : State)  : (s.overflowEvent).act = s.act := by rw [State.overflowEvent_frame]
@[simp] theorem State.overflowEvent_rlatch (s : State)  : (s.overflowEvent).rlatch = s.rlatch := by rw [State.overflowEvent_frame]
@[simp] theorem State.overflowEvent_wlatch (s : State)  : (s.overflowEvent).wlatch = s.wlatch := by rw [State.overflowEvent_frame]
@[simp] theorem State.overflowEvent_freeCtr (s : State)  : (s.overflowEvent).freeCtr = s.freeCtr := by rw [State.overflowEvent_frame]
@[simp] theorem State.overflowEvent_prism (s : State)  : (s.overflowEvent).prism = s.prism := by rw [State.overflowEvent_frame]
@[simp] theorem State.overflowEvent_lan (s : State)  : (s.overflowEvent).lan = s.lan := by rw [State.overflowEvent_frame]
@[simp] theorem State.overflowEvent_lumen (s : State)  : (s.overflowEvent).lumen = s.lumen := by rw [State.overflowEvent_frame]
@[simp] theorem State.overflowEvent_pool (s : State)  : (s.overflowEvent).pool = s.pool := by rw [State.overflowEvent_frame]
@[simp] theorem State.overflowEvent_mgmt (s : State)  : (s.overflowEvent).mgmt = s.mgmt := by rw [State.overflowEvent_frame]
@[simp] theorem State.overflowEvent_ledger (s : State)  : (s.overflowEvent).ledger = s.ledger := by rw [State.overflowEvent_frame]
@[simp] theorem State.overflowEvent_power (s : State)  : (s.overflowEvent).power = s.power := by rw [State.overflowEvent_frame]
@[simp] theorem State.overflowEvent_clk (s : State)  : (s.overflowEvent).clk = s.clk := by rw [State.overflowEvent_frame]
@[simp] theorem State.overflowEvent_hbm (s : State)  : (s.overflowEvent).hbm = s.hbm := by rw [State.overflowEvent_frame]
@[simp] theorem State.overflowEvent_amu (s : State)  : (s.overflowEvent).amu = s.amu := by rw [State.overflowEvent_frame]
@[simp] theorem State.overflowEvent_record (s : State)  : (s.overflowEvent).record = s.record := by rw [State.overflowEvent_frame]
@[simp] theorem State.overflowEvent_fibre (s : State)  : (s.overflowEvent).fibre = s.fibre := by rw [State.overflowEvent_frame]
@[simp] theorem State.overflowEvent_glint (s : State)  : (s.overflowEvent).glint = s.glint := by rw [State.overflowEvent_frame]

/-- Raising an event touches the register file, the output record and the event ring only (R73). -/
theorem State.raise_frame (s : State) (sev code src d0 d1 : Nat) :
    s.raise sev code src d0 d1 = { s with
      regs := (s.raise sev code src d0 d1).regs, out := (s.raise sev code src d0 d1).out
      host := (s.raise sev code src d0 d1).host } := by
  unfold State.raise
  dsimp only
  split
  · split
    · rw [State.writeEvent_frame, State.overflowEvent_frame]
    · rw [State.overflowEvent_frame]; rfl
  · rfl

@[simp] theorem State.raise_pending (s : State) (sev code src d0 d1 : Nat) : (s.raise sev code src d0 d1).pending = s.pending := by rw [State.raise_frame]
@[simp] theorem State.raise_phys (s : State) (sev code src d0 d1 : Nat) : (s.raise sev code src d0 d1).phys = s.phys := by rw [State.raise_frame]
@[simp] theorem State.raise_devTime (s : State) (sev code src d0 d1 : Nat) : (s.raise sev code src d0 d1).devTime = s.devTime := by rw [State.raise_frame]
@[simp] theorem State.raise_running (s : State) (sev code src d0 d1 : Nat) : (s.raise sev code src d0 d1).running = s.running := by rw [State.raise_frame]
@[simp] theorem State.raise_dead (s : State) (sev code src d0 d1 : Nat) : (s.raise sev code src d0 d1).dead = s.dead := by rw [State.raise_frame]
@[simp] theorem State.raise_act (s : State) (sev code src d0 d1 : Nat) : (s.raise sev code src d0 d1).act = s.act := by rw [State.raise_frame]
@[simp] theorem State.raise_rlatch (s : State) (sev code src d0 d1 : Nat) : (s.raise sev code src d0 d1).rlatch = s.rlatch := by rw [State.raise_frame]
@[simp] theorem State.raise_wlatch (s : State) (sev code src d0 d1 : Nat) : (s.raise sev code src d0 d1).wlatch = s.wlatch := by rw [State.raise_frame]
@[simp] theorem State.raise_freeCtr (s : State) (sev code src d0 d1 : Nat) : (s.raise sev code src d0 d1).freeCtr = s.freeCtr := by rw [State.raise_frame]
@[simp] theorem State.raise_prism (s : State) (sev code src d0 d1 : Nat) : (s.raise sev code src d0 d1).prism = s.prism := by rw [State.raise_frame]
@[simp] theorem State.raise_lan (s : State) (sev code src d0 d1 : Nat) : (s.raise sev code src d0 d1).lan = s.lan := by rw [State.raise_frame]
@[simp] theorem State.raise_lumen (s : State) (sev code src d0 d1 : Nat) : (s.raise sev code src d0 d1).lumen = s.lumen := by rw [State.raise_frame]
@[simp] theorem State.raise_pool (s : State) (sev code src d0 d1 : Nat) : (s.raise sev code src d0 d1).pool = s.pool := by rw [State.raise_frame]
@[simp] theorem State.raise_mgmt (s : State) (sev code src d0 d1 : Nat) : (s.raise sev code src d0 d1).mgmt = s.mgmt := by rw [State.raise_frame]
@[simp] theorem State.raise_ledger (s : State) (sev code src d0 d1 : Nat) : (s.raise sev code src d0 d1).ledger = s.ledger := by rw [State.raise_frame]
@[simp] theorem State.raise_power (s : State) (sev code src d0 d1 : Nat) : (s.raise sev code src d0 d1).power = s.power := by rw [State.raise_frame]
@[simp] theorem State.raise_clk (s : State) (sev code src d0 d1 : Nat) : (s.raise sev code src d0 d1).clk = s.clk := by rw [State.raise_frame]
@[simp] theorem State.raise_hbm (s : State) (sev code src d0 d1 : Nat) : (s.raise sev code src d0 d1).hbm = s.hbm := by rw [State.raise_frame]
@[simp] theorem State.raise_amu (s : State) (sev code src d0 d1 : Nat) : (s.raise sev code src d0 d1).amu = s.amu := by rw [State.raise_frame]
@[simp] theorem State.raise_record (s : State) (sev code src d0 d1 : Nat) : (s.raise sev code src d0 d1).record = s.record := by rw [State.raise_frame]
@[simp] theorem State.raise_fibre (s : State) (sev code src d0 d1 : Nat) : (s.raise sev code src d0 d1).fibre = s.fibre := by rw [State.raise_frame]
@[simp] theorem State.raise_glint (s : State) (sev code src d0 d1 : Nat) : (s.raise sev code src d0 d1).glint = s.glint := by rw [State.raise_frame]

/-! ### Time -/

theorem State.stallTick_frame (s : State) (dt : Nat) : s.stallTick dt = { s with host := (s.stallTick dt).host } := rfl

@[simp] theorem State.stallTick_pending (s : State) (dt : Nat) : (s.stallTick dt).pending = s.pending := by rw [State.stallTick_frame]
@[simp] theorem State.stallTick_phys (s : State) (dt : Nat) : (s.stallTick dt).phys = s.phys := by rw [State.stallTick_frame]
@[simp] theorem State.stallTick_devTime (s : State) (dt : Nat) : (s.stallTick dt).devTime = s.devTime := by rw [State.stallTick_frame]
@[simp] theorem State.stallTick_running (s : State) (dt : Nat) : (s.stallTick dt).running = s.running := by rw [State.stallTick_frame]
@[simp] theorem State.stallTick_dead (s : State) (dt : Nat) : (s.stallTick dt).dead = s.dead := by rw [State.stallTick_frame]
@[simp] theorem State.stallTick_regs (s : State) (dt : Nat) : (s.stallTick dt).regs = s.regs := by rw [State.stallTick_frame]
@[simp] theorem State.stallTick_act (s : State) (dt : Nat) : (s.stallTick dt).act = s.act := by rw [State.stallTick_frame]
@[simp] theorem State.stallTick_rlatch (s : State) (dt : Nat) : (s.stallTick dt).rlatch = s.rlatch := by rw [State.stallTick_frame]
@[simp] theorem State.stallTick_wlatch (s : State) (dt : Nat) : (s.stallTick dt).wlatch = s.wlatch := by rw [State.stallTick_frame]
@[simp] theorem State.stallTick_out (s : State) (dt : Nat) : (s.stallTick dt).out = s.out := by rw [State.stallTick_frame]
@[simp] theorem State.stallTick_freeCtr (s : State) (dt : Nat) : (s.stallTick dt).freeCtr = s.freeCtr := by rw [State.stallTick_frame]
@[simp] theorem State.stallTick_prism (s : State) (dt : Nat) : (s.stallTick dt).prism = s.prism := by rw [State.stallTick_frame]
@[simp] theorem State.stallTick_lan (s : State) (dt : Nat) : (s.stallTick dt).lan = s.lan := by rw [State.stallTick_frame]
@[simp] theorem State.stallTick_lumen (s : State) (dt : Nat) : (s.stallTick dt).lumen = s.lumen := by rw [State.stallTick_frame]
@[simp] theorem State.stallTick_pool (s : State) (dt : Nat) : (s.stallTick dt).pool = s.pool := by rw [State.stallTick_frame]
@[simp] theorem State.stallTick_mgmt (s : State) (dt : Nat) : (s.stallTick dt).mgmt = s.mgmt := by rw [State.stallTick_frame]
@[simp] theorem State.stallTick_ledger (s : State) (dt : Nat) : (s.stallTick dt).ledger = s.ledger := by rw [State.stallTick_frame]
@[simp] theorem State.stallTick_power (s : State) (dt : Nat) : (s.stallTick dt).power = s.power := by rw [State.stallTick_frame]
@[simp] theorem State.stallTick_clk (s : State) (dt : Nat) : (s.stallTick dt).clk = s.clk := by rw [State.stallTick_frame]
@[simp] theorem State.stallTick_hbm (s : State) (dt : Nat) : (s.stallTick dt).hbm = s.hbm := by rw [State.stallTick_frame]
@[simp] theorem State.stallTick_amu (s : State) (dt : Nat) : (s.stallTick dt).amu = s.amu := by rw [State.stallTick_frame]
@[simp] theorem State.stallTick_record (s : State) (dt : Nat) : (s.stallTick dt).record = s.record := by rw [State.stallTick_frame]
@[simp] theorem State.stallTick_fibre (s : State) (dt : Nat) : (s.stallTick dt).fibre = s.fibre := by rw [State.stallTick_frame]
@[simp] theorem State.stallTick_glint (s : State) (dt : Nat) : (s.stallTick dt).glint = s.glint := by rw [State.stallTick_frame]

/-- The passing of time moves the two clocks, and changes the host interface; only the wrap of the stamp writes an event. -/
theorem State.elapse_frame (s : State) (dt : Nat) :
    s.elapse dt = { s with
      phys := (s.elapse dt).phys, devTime := (s.elapse dt).devTime, regs := (s.elapse dt).regs, out := (s.elapse dt).out
      host := (s.elapse dt).host } := by
  unfold State.elapse
  dsimp only
  split
  · split
    · rw [State.raise_frame]; rfl
    · rfl
  · rfl

@[simp] theorem State.elapse_pending (s : State) (dt : Nat) : (s.elapse dt).pending = s.pending := by rw [State.elapse_frame]
@[simp] theorem State.elapse_running (s : State) (dt : Nat) : (s.elapse dt).running = s.running := by rw [State.elapse_frame]
@[simp] theorem State.elapse_dead (s : State) (dt : Nat) : (s.elapse dt).dead = s.dead := by rw [State.elapse_frame]
@[simp] theorem State.elapse_act (s : State) (dt : Nat) : (s.elapse dt).act = s.act := by rw [State.elapse_frame]
@[simp] theorem State.elapse_rlatch (s : State) (dt : Nat) : (s.elapse dt).rlatch = s.rlatch := by rw [State.elapse_frame]
@[simp] theorem State.elapse_wlatch (s : State) (dt : Nat) : (s.elapse dt).wlatch = s.wlatch := by rw [State.elapse_frame]
@[simp] theorem State.elapse_freeCtr (s : State) (dt : Nat) : (s.elapse dt).freeCtr = s.freeCtr := by rw [State.elapse_frame]
@[simp] theorem State.elapse_prism (s : State) (dt : Nat) : (s.elapse dt).prism = s.prism := by rw [State.elapse_frame]
@[simp] theorem State.elapse_lan (s : State) (dt : Nat) : (s.elapse dt).lan = s.lan := by rw [State.elapse_frame]
@[simp] theorem State.elapse_lumen (s : State) (dt : Nat) : (s.elapse dt).lumen = s.lumen := by rw [State.elapse_frame]
@[simp] theorem State.elapse_pool (s : State) (dt : Nat) : (s.elapse dt).pool = s.pool := by rw [State.elapse_frame]
@[simp] theorem State.elapse_mgmt (s : State) (dt : Nat) : (s.elapse dt).mgmt = s.mgmt := by rw [State.elapse_frame]
@[simp] theorem State.elapse_ledger (s : State) (dt : Nat) : (s.elapse dt).ledger = s.ledger := by rw [State.elapse_frame]
@[simp] theorem State.elapse_power (s : State) (dt : Nat) : (s.elapse dt).power = s.power := by rw [State.elapse_frame]
@[simp] theorem State.elapse_clk (s : State) (dt : Nat) : (s.elapse dt).clk = s.clk := by rw [State.elapse_frame]
@[simp] theorem State.elapse_hbm (s : State) (dt : Nat) : (s.elapse dt).hbm = s.hbm := by rw [State.elapse_frame]
@[simp] theorem State.elapse_amu (s : State) (dt : Nat) : (s.elapse dt).amu = s.amu := by rw [State.elapse_frame]
@[simp] theorem State.elapse_record (s : State) (dt : Nat) : (s.elapse dt).record = s.record := by rw [State.elapse_frame]
@[simp] theorem State.elapse_fibre (s : State) (dt : Nat) : (s.elapse dt).fibre = s.fibre := by rw [State.elapse_frame]
@[simp] theorem State.elapse_glint (s : State) (dt : Nat) : (s.elapse dt).glint = s.glint := by rw [State.elapse_frame]

theorem State.elapse_phys (s : State) (dt : Nat) : (s.elapse dt).phys = s.phys + dt := by
  unfold State.elapse
  dsimp only
  split
  · split
    · simp
    · rfl
  · rfl

theorem State.elapse_devTime (s : State) (dt : Nat) :
    (s.elapse dt).devTime = if s.running then s.devTime + dt else s.devTime := by
  have hr : (s.stallTick dt).running = s.running := rfl
  have hd : (s.stallTick dt).devTime = s.devTime := rfl
  cases h : s.running
  · simp [State.elapse, h]
  · unfold State.elapse
    dsimp only
    rw [hr, h, if_pos rfl, if_pos rfl]
    split
    · simp
    · rfl

theorem State.toDev_frame (s : State) (t : Nat) :
    s.toDev t = { s with
      phys := (s.toDev t).phys, devTime := (s.toDev t).devTime, regs := (s.toDev t).regs, out := (s.toDev t).out
      host := (s.toDev t).host } := by
  unfold State.toDev
  split
  · rw [State.elapse_frame]
  · rfl

@[simp] theorem State.toDev_pending (s : State) (t : Nat) : (s.toDev t).pending = s.pending := by rw [State.toDev_frame]
@[simp] theorem State.toDev_running (s : State) (t : Nat) : (s.toDev t).running = s.running := by rw [State.toDev_frame]
@[simp] theorem State.toDev_dead (s : State) (t : Nat) : (s.toDev t).dead = s.dead := by rw [State.toDev_frame]
@[simp] theorem State.toDev_act (s : State) (t : Nat) : (s.toDev t).act = s.act := by rw [State.toDev_frame]
@[simp] theorem State.toDev_rlatch (s : State) (t : Nat) : (s.toDev t).rlatch = s.rlatch := by rw [State.toDev_frame]
@[simp] theorem State.toDev_wlatch (s : State) (t : Nat) : (s.toDev t).wlatch = s.wlatch := by rw [State.toDev_frame]
@[simp] theorem State.toDev_freeCtr (s : State) (t : Nat) : (s.toDev t).freeCtr = s.freeCtr := by rw [State.toDev_frame]
@[simp] theorem State.toDev_prism (s : State) (t : Nat) : (s.toDev t).prism = s.prism := by rw [State.toDev_frame]
@[simp] theorem State.toDev_lan (s : State) (t : Nat) : (s.toDev t).lan = s.lan := by rw [State.toDev_frame]
@[simp] theorem State.toDev_lumen (s : State) (t : Nat) : (s.toDev t).lumen = s.lumen := by rw [State.toDev_frame]
@[simp] theorem State.toDev_pool (s : State) (t : Nat) : (s.toDev t).pool = s.pool := by rw [State.toDev_frame]
@[simp] theorem State.toDev_mgmt (s : State) (t : Nat) : (s.toDev t).mgmt = s.mgmt := by rw [State.toDev_frame]
@[simp] theorem State.toDev_ledger (s : State) (t : Nat) : (s.toDev t).ledger = s.ledger := by rw [State.toDev_frame]
@[simp] theorem State.toDev_power (s : State) (t : Nat) : (s.toDev t).power = s.power := by rw [State.toDev_frame]
@[simp] theorem State.toDev_clk (s : State) (t : Nat) : (s.toDev t).clk = s.clk := by rw [State.toDev_frame]
@[simp] theorem State.toDev_hbm (s : State) (t : Nat) : (s.toDev t).hbm = s.hbm := by rw [State.toDev_frame]
@[simp] theorem State.toDev_amu (s : State) (t : Nat) : (s.toDev t).amu = s.amu := by rw [State.toDev_frame]
@[simp] theorem State.toDev_record (s : State) (t : Nat) : (s.toDev t).record = s.record := by rw [State.toDev_frame]
@[simp] theorem State.toDev_fibre (s : State) (t : Nat) : (s.toDev t).fibre = s.fibre := by rw [State.toDev_frame]
@[simp] theorem State.toDev_glint (s : State) (t : Nat) : (s.toDev t).glint = s.glint := by rw [State.toDev_frame]

/-- A clock that is at `t` or past it does not move. -/
theorem State.toDev_past {s : State} {t : Nat} (h : t ≤ s.devTime) : s.toDev t = s := by
  unfold State.toDev
  rw [if_neg]
  omega

theorem State.toPhys_frame (s : State) (t : Nat) :
    s.toPhys t = { s with
      phys := (s.toPhys t).phys, devTime := (s.toPhys t).devTime, regs := (s.toPhys t).regs, out := (s.toPhys t).out
      host := (s.toPhys t).host } := by
  unfold State.toPhys
  split
  · rw [State.elapse_frame]
  · rfl

@[simp] theorem State.toPhys_pending (s : State) (t : Nat) : (s.toPhys t).pending = s.pending := by rw [State.toPhys_frame]
@[simp] theorem State.toPhys_running (s : State) (t : Nat) : (s.toPhys t).running = s.running := by rw [State.toPhys_frame]
@[simp] theorem State.toPhys_dead (s : State) (t : Nat) : (s.toPhys t).dead = s.dead := by rw [State.toPhys_frame]
@[simp] theorem State.toPhys_act (s : State) (t : Nat) : (s.toPhys t).act = s.act := by rw [State.toPhys_frame]
@[simp] theorem State.toPhys_rlatch (s : State) (t : Nat) : (s.toPhys t).rlatch = s.rlatch := by rw [State.toPhys_frame]
@[simp] theorem State.toPhys_wlatch (s : State) (t : Nat) : (s.toPhys t).wlatch = s.wlatch := by rw [State.toPhys_frame]
@[simp] theorem State.toPhys_freeCtr (s : State) (t : Nat) : (s.toPhys t).freeCtr = s.freeCtr := by rw [State.toPhys_frame]
@[simp] theorem State.toPhys_prism (s : State) (t : Nat) : (s.toPhys t).prism = s.prism := by rw [State.toPhys_frame]
@[simp] theorem State.toPhys_lan (s : State) (t : Nat) : (s.toPhys t).lan = s.lan := by rw [State.toPhys_frame]
@[simp] theorem State.toPhys_lumen (s : State) (t : Nat) : (s.toPhys t).lumen = s.lumen := by rw [State.toPhys_frame]
@[simp] theorem State.toPhys_pool (s : State) (t : Nat) : (s.toPhys t).pool = s.pool := by rw [State.toPhys_frame]
@[simp] theorem State.toPhys_mgmt (s : State) (t : Nat) : (s.toPhys t).mgmt = s.mgmt := by rw [State.toPhys_frame]
@[simp] theorem State.toPhys_ledger (s : State) (t : Nat) : (s.toPhys t).ledger = s.ledger := by rw [State.toPhys_frame]
@[simp] theorem State.toPhys_power (s : State) (t : Nat) : (s.toPhys t).power = s.power := by rw [State.toPhys_frame]
@[simp] theorem State.toPhys_clk (s : State) (t : Nat) : (s.toPhys t).clk = s.clk := by rw [State.toPhys_frame]
@[simp] theorem State.toPhys_hbm (s : State) (t : Nat) : (s.toPhys t).hbm = s.hbm := by rw [State.toPhys_frame]
@[simp] theorem State.toPhys_amu (s : State) (t : Nat) : (s.toPhys t).amu = s.amu := by rw [State.toPhys_frame]
@[simp] theorem State.toPhys_record (s : State) (t : Nat) : (s.toPhys t).record = s.record := by rw [State.toPhys_frame]
@[simp] theorem State.toPhys_fibre (s : State) (t : Nat) : (s.toPhys t).fibre = s.fibre := by rw [State.toPhys_frame]
@[simp] theorem State.toPhys_glint (s : State) (t : Nat) : (s.toPhys t).glint = s.glint := by rw [State.toPhys_frame]

theorem State.toPhys_past {s : State} {t : Nat} (h : t ≤ s.phys) : s.toPhys t = s := by
  unfold State.toPhys
  rw [if_neg]
  omega

theorem State.toPhys_phys (s : State) (t : Nat) : (s.toPhys t).phys = max s.phys t := by
  unfold State.toPhys
  split
  · rw [State.elapse_phys]
    omega
  · omega

end Sys2Proof.Machine
end

