-- ==== Sys2Proof/Laws/Jobs.lean ====
section
/-! SUPPORT. Laws/Jobs.lean: what events, records and the job table can change. -/
namespace Sys2Proof.Machine

/-! ### Events and the host interface -/

/-- Writing an event changes nothing of the host interface but the event ring (R73). -/
theorem State.writeEvent_host (s : State) (sev code src d0 d1 : Nat) :
    (s.writeEvent sev code src d0 d1).host = { s.host with evq := (s.writeEvent sev code src d0 d1).host.evq } := by
  unfold State.writeEvent
  dsimp only
  rw [State.signal_host]
  split <;> rfl

theorem HostSt.evq_trans {a b c : HostSt} (h1 : b = { a with evq := b.evq }) (h2 : c = { b with evq := c.evq }) :
    c = { a with evq := c.evq } := by
  rw [h2, h1]

theorem State.overflowEvent_host (s : State) :
    s.overflowEvent.host = { s.host with evq := s.overflowEvent.host.evq } := by
  unfold State.overflowEvent
  split
  · dsimp only
    exact HostSt.evq_trans (b := (s.onHost (fun h => { h with evq := { h.evq with lostSince := 0 } })).host) rfl
      (State.writeEvent_host _ _ _ _ _ _)
  · rfl

theorem State.loseEvent_host (s : State) : s.loseEvent.host = { s.host with evq := s.loseEvent.host.evq } := rfl

/-- An event is written, lost to a full ring, or lost to a ring that is not in use (R73). -/
theorem State.raise_cases (s : State) (sev code src d0 d1 : Nat) :
    s.raise sev code src d0 d1 = s.overflowEvent.writeEvent sev code src d0 d1 ∨
    s.raise sev code src d0 d1 = s.overflowEvent.loseEvent ∨ s.raise sev code src d0 d1 = s.loseEvent := by
  unfold State.raise
  dsimp only
  split
  · split
    · exact .inl rfl
    · exact .inr (.inl rfl)
  · exact .inr (.inr rfl)

theorem State.raise_host (s : State) (sev code src d0 d1 : Nat) :
    (s.raise sev code src d0 d1).host = { s.host with evq := (s.raise sev code src d0 d1).host.evq } := by
  rcases s.raise_cases sev code src d0 d1 with h | h | h
  · rw [h]; exact HostSt.evq_trans s.overflowEvent_host (State.writeEvent_host _ _ _ _ _ _)
  · rw [h]; exact HostSt.evq_trans s.overflowEvent_host s.overflowEvent.loseEvent_host
  · rw [h]; exact s.loseEvent_host

/-! ### Register words under events -/

/-- A signal of one of the 2,048 vectors touches no word outside the MSI-X table and its pending bits (R71, R72). -/
theorem State.signal_word (s : State) {v a : Nat} (hv : v < 2048) (h : isMsix a = false) (d : Word) :
    kget (s.signal v).regs a d = kget s.regs a d := by
  have ha : a ≠ msixPba + 4 * (v / 32) := by
    rintro rfl
    have h' := of_decide_eq_false h
    simp only [msixTable, msixPba] at h'
    omega
  unfold State.signal
  split
  · exact kget_kset_ne _ _ _ _ ha
  · rfl

theorem State.writeEvent_word (s : State) (sev code src d0 d1 : Nat) {a : Nat} (h : isMsix a = false) (hp : a ≠ 0x3C00040)
    (d : Word) : kget (s.writeEvent sev code src d0 d1).regs a d = kget s.regs a d := by
  unfold State.writeEvent
  dsimp only
  refine (State.signal_word _ (Fld.ofWord_lt F.HOST_EVQ_CTRL_VECTOR _) h d).trans ?_
  split
  · exact State.word_wr (f := F.POWER_ALERT_SEV2) (i := 0) (j := 0) hp _ _ _
  · rfl

theorem State.overflowEvent_word (s : State) {a : Nat} (h : isMsix a = false) (hp : a ≠ 0x3C00040) (d : Word) :
    kget s.overflowEvent.regs a d = kget s.regs a d := by
  unfold State.overflowEvent
  split
  · dsimp only
    rw [State.writeEvent_word _ _ _ _ _ _ h hp]
    rfl
  · rfl

theorem State.loseEvent_word (s : State) {a : Nat} (hl : a ≠ 0x1000AC) (d : Word) :
    kget s.loseEvent.regs a d = kget s.regs a d :=
  State.word_wr (f := F.HOST_EVQ_LOST_COUNT) (i := 0) (j := 0) hl _ _ _

/-- An event touches no register word but HOST_EVQ_LOST, POWER_ALERT and the MSI-X pending bits (R72, R73, R472). -/
theorem State.raise_word (s : State) (sev code src d0 d1 : Nat) {a : Nat} (h : isMsix a = false) (hp : a ≠ 0x3C00040)
    (hl : a ≠ 0x1000AC) (d : Word) : kget (s.raise sev code src d0 d1).regs a d = kget s.regs a d := by
  rcases s.raise_cases sev code src d0 d1 with e | e | e
  · rw [e, State.writeEvent_word _ _ _ _ _ _ h hp, State.overflowEvent_word _ h hp]
  · rw [e, State.loseEvent_word _ hl, State.overflowEvent_word _ h hp]
  · rw [e, State.loseEvent_word _ hl]

/-- A field of any other register reads as before an event. -/
theorem State.raise_rd (s : State) (sev code src d0 d1 : Nat) {f : Fld} {i j : Nat} (h : isMsix (f.addr i j) = false)
    (hp : f.addr i j ≠ 0x3C00040) (hl : f.addr i j ≠ 0x1000AC) : (s.raise sev code src d0 d1).rd f i j = s.rd f i j := by
  unfold State.rd Regs.rd
  rw [State.raise_word _ _ _ _ _ _ h hp hl]

/-- The Glare bucket after `dt` ticks (R60). -/
theorem State.elapse_bucket (s : State) (dt : Nat) : (s.elapse dt).host.bucket = s.bucketAfter dt := by
  unfold State.elapse
  dsimp only
  split
  · split
    · rw [State.raise_host]
    · rfl
  · rfl

end Sys2Proof.Machine
end

