-- ==== Sys2Proof/Laws/Memory.lean ====
section
/-! SUPPORT. Laws/Memory.lean: the block's addressed memories. Every operation on them keeps the canonical form; a byte
reads as it was written last, and a write leaves every other byte alone. -/
namespace Sys2Proof.Machine

variable {α : Type}

/-! ### Canonical form under a change of what unlisted keys read as -/

theorem kwfFrom_congr [DecidableEq α] {d e : Nat → α} {lo : Nat} {m : KMap α} (h : ∀ c ∈ m, e c.1 = d c.1)
    (w : kwfFrom d lo m = true) : kwfFrom e lo m = true := by
  induction m generalizing lo with
  | nil => rfl
  | cons c r ih =>
    obtain ⟨k, v⟩ := c
    simp only [kwfFrom, Bool.and_eq_true, decide_eq_true_eq] at w ⊢
    have hk : e k = d k := h (k, v) (by simp)
    exact ⟨⟨w.1.1, by rw [hk]; exact w.1.2⟩, ih (fun c hc => h c (by simp [hc])) w.2⟩

theorem mem_kclear {m : KMap α} {lo hi : Nat} {c : Nat × α} (h : c ∈ kclear m lo hi) : c ∈ m ∧ ¬(lo ≤ c.1 ∧ c.1 < hi) := by
  induction m with
  | nil => simp [kclear] at h
  | cons x r ih =>
    obtain ⟨k, v⟩ := x
    simp only [kclear] at h
    split at h
    · exact ⟨by simp [(ih h).1], (ih h).2⟩
    · rename_i hn
      rcases List.mem_cons.1 h with rfl | h'
      · exact ⟨by simp, hn⟩
      · exact ⟨by simp [(ih h').1], (ih h').2⟩

/-- Clearing a list of ranges keeps the form, and what is left lies outside each of them. -/
theorem kclear_fold_wf [DecidableEq α] {d : Nat → α} (f g : Nat → Nat) (ps : List Nat) {m : KMap α} (w : kwf d m = true) :
    kwf d (ps.foldl (fun m p => kclear m (f p) (g p)) m) = true := by
  induction ps generalizing m with
  | nil => exact w
  | cons p ps ih => exact ih (kclear_wf _ _ w)

theorem mem_kclear_fold (f g : Nat → Nat) (ps : List Nat) {m : KMap α} {c : Nat × α}
    (h : c ∈ ps.foldl (fun m p => kclear m (f p) (g p)) m) : c ∈ m ∧ ∀ p ∈ ps, ¬(f p ≤ c.1 ∧ c.1 < g p) := by
  induction ps generalizing m with
  | nil => exact ⟨h, by simp⟩
  | cons p ps ih =>
    have h1 := ih h
    have h2 := mem_kclear h1.1
    refine ⟨h2.1, ?_⟩
    intro q hq
    rcases List.mem_cons.1 hq with rfl | hq
    · exact h2.2
    · exact h1.2 q hq

theorem kget_kput_fold (v : α) (ps : List Nat) (m : KMap α) {q : Nat} (d : α) (h : q ∉ ps) :
    kget (ps.foldl (fun m p => kput m p v) m) q d = kget m q d := by
  induction ps generalizing m with
  | nil => rfl
  | cons p ps ih =>
    simp only [List.mem_cons, not_or] at h
    simp only [List.foldl_cons]
    rw [ih _ h.2, kget_kput_ne m v d h.1]

theorem kget_kset_fold [DecidableEq α] (v e : α) (ps : List Nat) (m : KMap α) {q : Nat} (d : α) (h : q ∉ ps) :
    kget (ps.foldl (fun m p => kset m p v e) m) q d = kget m q d := by
  induction ps generalizing m with
  | nil => rfl
  | cons p ps ih =>
    simp only [List.mem_cons, not_or] at h
    simp only [List.foldl_cons]
    rw [ih _ h.2, kget_kset_ne m v e d h.1]

/-! ### The pool -/

/-- The pool's memory is in canonical form. -/
def State.poolWf (s : State) : Bool := Memory.wf s.poolFill s.pool.mem

theorem poolFill_congr {s t : State} (h : t.pool.fill = s.pool.fill) : t.poolFill = s.poolFill := by
  funext a
  simp [State.poolFill, h]

@[simp] theorem poolPut_fill (s : State) (view a : Nat) (v : Byte) : (s.poolPut view a v).pool.fill = s.pool.fill := rfl

@[simp] theorem poolPut_poolFill (s : State) (view a : Nat) (v : Byte) : (s.poolPut view a v).poolFill = s.poolFill := rfl

/-- What a view stores for the byte `v` written over `o` (R327): plain, set or clear. -/
theorem poolPut_byte_same (s : State) (view a : Nat) (v : Byte) :
    (s.poolPut view a v).poolByte a =
      (if view = 1 then s.poolByte a ||| v else if view = 2 then s.poolByte a &&& ~~~v else v) := by
  simp [State.poolPut, State.poolByte, State.poolFill]

theorem poolPut_byte_ne (s : State) (view : Nat) {a b : Nat} (v : Byte) (h : b ≠ a) :
    (s.poolPut view a v).poolByte b = s.poolByte b := by
  simp [State.poolPut, State.poolByte, State.poolFill, kget_kset_ne _ _ _ _ h]

theorem poolPut_wf {s : State} (view a : Nat) (v : Byte) (w : s.poolWf = true) : (s.poolPut view a v).poolWf = true :=
  kset_wf (d := s.poolFill) _ _ w

theorem poolWrite_wf {s : State} (view a : Nat) (bs : Bytes) (w : s.poolWf = true) : (s.poolWrite view a bs).poolWf = true := by
  induction bs generalizing s a with
  | nil => exact w
  | cons b bs ih => exact ih (a + 1) (poolPut_wf view a b w)

@[simp] theorem poolWrite_fill (s : State) (view a : Nat) (bs : Bytes) : (s.poolWrite view a bs).pool.fill = s.pool.fill := by
  induction bs generalizing s a with
  | nil => rfl
  | cons b bs ih => simp [State.poolWrite, ih]

/-- A run of writes leaves every byte outside it. -/
theorem poolWrite_byte_out (s : State) (view a : Nat) (bs : Bytes) {b : Nat} (h : b < a ∨ a + bs.length ≤ b) :
    (s.poolWrite view a bs).poolByte b = s.poolByte b := by
  induction bs generalizing s a with
  | nil => rfl
  | cons x xs ih =>
    simp only [List.length_cons] at h
    simp only [State.poolWrite]
    rw [ih _ _ (by omega), poolPut_byte_ne _ _ _ (by omega)]

/-- A plain run of writes reads back as written. -/
theorem poolWrite_byte_in (s : State) (a : Nat) (bs : Bytes) {i : Nat} (h : i < bs.length) :
    (s.poolWrite 0 a bs).poolByte (a + i) = bs[i] := by
  induction bs generalizing s a i with
  | nil => simp at h
  | cons x xs ih =>
    simp only [State.poolWrite]
    cases i with
    | zero => simp [poolWrite_byte_out _ 0 (a + 1) xs (b := a) (by omega), poolPut_byte_same]
    | succ i =>
      have hi : i < xs.length := by simpa using h
      rw [show a + (i + 1) = a + 1 + i by omega, ih _ _ hi]
      rfl

theorem spoilRow_wf {s : State} (a : Nat) (w : s.poolWf = true) : (s.spoilRow a).poolWf = true :=
  poolWrite_wf _ _ _ (s := s.fresh.2) w

/-- Zeroing pages keeps the form (R330). -/
theorem zeroPages_wf {s : State} (ps : List Nat) (w : s.poolWf = true) : (s.zeroPages ps).poolWf = true := by
  refine kwfFrom_congr ?_ (kclear_fold_wf (fun p => pageSize * p) (fun p => pageSize * (p + 1)) ps w)
  intro c hc
  have h := (mem_kclear_fold (fun p => pageSize * p) (fun p => pageSize * (p + 1)) ps hc).2
  have hq : c.1 / pageSize ∉ ps := by
    intro hm
    refine h _ hm ⟨?_, ?_⟩ <;> simp only [pageSize] <;> omega
  have hk : kget (s.zeroPages ps).pool.fill (c.1 / pageSize) 0 = kget s.pool.fill (c.1 / pageSize) 0 :=
    kget_kset_fold _ _ _ _ _ hq
  simp [State.poolFill, hk]

/-- Spoiling pages keeps the form (R323, R330). -/
theorem spoilPages_wf {s : State} (ps : List Nat) (w : s.poolWf = true) : (s.spoilPages ps).poolWf = true := by
  refine kwfFrom_congr ?_ (kclear_fold_wf (fun p => p * pageSize) (fun p => (p + 1) * pageSize) ps w)
  intro c hc
  have h := (mem_kclear_fold (fun p => p * pageSize) (fun p => (p + 1) * pageSize) ps hc).2
  have hq : c.1 / pageSize ∉ ps := by
    intro hm
    refine h _ hm ⟨?_, ?_⟩ <;> simp only [pageSize] <;> omega
  have hk : kget (s.spoilPages ps).pool.fill (c.1 / pageSize) 0 = kget s.pool.fill (c.1 / pageSize) 0 :=
    kget_kput_fold _ _ _ _ hq
  simp [State.poolFill, hk]

/-! ### The record store's stacks -/

/-- The store's memory is in canonical form. -/
def State.hbmWf (s : State) : Bool := Memory.wf s.hbmFill s.hbm.mem

theorem hbmPut_wf {s : State} (a : Nat) (bs : Bytes) (w : s.hbmWf = true) : (s.hbmPut a bs).hbmWf = true := by
  induction bs generalizing s a with
  | nil => exact w
  | cons b bs ih =>
    refine ih (a + 1) (s := { s with hbm := { s.hbm with mem := kset s.hbm.mem a b (s.hbmFill a) } }) ?_
    exact kset_wf (d := s.hbmFill) a b w

/-- A run of writes leaves every byte outside it. -/
theorem hbmPut_byte_out (s : State) (a : Nat) (bs : Bytes) {b : Nat} (h : b < a ∨ a + bs.length ≤ b) :
    (s.hbmPut a bs).hbmByte b = s.hbmByte b := by
  induction bs generalizing s a with
  | nil => rfl
  | cons x xs ih =>
    simp only [List.length_cons] at h
    simp only [State.hbmPut]
    rw [ih _ _ (by omega)]
    simp [State.hbmByte, State.hbmFill, kget_kset_ne _ _ _ _ (show b ≠ a by omega)]

/-- A run of writes reads back as written. -/
theorem hbmPut_byte_in (s : State) (a : Nat) (bs : Bytes) {i : Nat} (h : i < bs.length) :
    (s.hbmPut a bs).hbmByte (a + i) = bs[i] := by
  induction bs generalizing s a i with
  | nil => simp at h
  | cons x xs ih =>
    simp only [State.hbmPut]
    cases i with
    | zero =>
      rw [Nat.add_zero, hbmPut_byte_out _ (a + 1) xs (by omega)]
      simp [State.hbmByte, State.hbmFill]
    | succ i =>
      have hi : i < xs.length := by simpa using h
      rw [show a + (i + 1) = a + 1 + i by omega, ih _ _ hi]
      rfl

/-- A stack whose contents become undefined keeps the form (R377). -/
theorem spoilStack_wf {s : State} (k : Nat) (w : s.hbmWf = true) : (s.spoilStack k).hbmWf = true := by
  refine kwfFrom_congr ?_ (kclear_wf (stackBytes * k) (stackBytes * (k + 1)) w)
  intro c hc
  have h := (mem_kclear hc).2
  have hq : c.1 / stackBytes ≠ k := by
    rintro rfl
    exact h ⟨by simp only [stackBytes]; omega, by simp only [stackBytes]; omega⟩
  have hk : kget (s.spoilStack k).hbm.fill (c.1 / stackBytes) 0 = kget s.hbm.fill (c.1 / stackBytes) 0 :=
    kget_kset_ne s.hbm.fill (s.freeCtr + 1) 0 0 hq
  simp [State.hbmFill, hk]

/-! ### The other memories, and reset -/

/-- A mailbox or mask write keeps the form. -/
theorem memory_kwrite_wf {m : Memory} (k : Nat) (vs : Bytes) (w : Memory.wf (fun _ => 0) m = true) :
    Memory.wf (fun _ => 0) (kwrite 0 m k vs) = true := kwrite_wf k vs w

theorem reset_poolWf : State.reset.poolWf = true := rfl

theorem reset_hbmWf : State.reset.hbmWf = true := rfl

theorem reset_mail_wf : Memory.wf (fun _ => 0) State.reset.mgmt.mail = true := rfl

end Sys2Proof.Machine
end

