-- ==== Sys2Proof/Tests/Slice0.lean ====
section
/-! SUPPORT. Tests/Slice0.lean: each check of WellFormed.lean refuses an ill-formed command; for each statement of the
obligations a concrete state and operands meet its hypotheses (`wit_…`); and small results with values worked out from the
rules (`test_…`). The states are built by the helpers at the top. -/
namespace Sys2Proof.Tests
open Sys2Proof Sys2Proof.Machine
set_option Elab.async false

/-- The state that a command leaves. -/
def ex (c : Instr) (s : State) : State := match exec c s with | .next t => t | _ => State.reset

/-- The state after one step. -/
def after (s : State) : Option State := match step s with | .next t => some t | _ => none

/-- Bytes `v` put over `d` at offset `o`. -/
def orB (d : Bytes) (o : Nat) (v : Bytes) : Bytes := d.take o ++ v ++ d.drop (o + v.length)

/-- A descriptor: OWN 1, KIND, TAG and FLAGS in bytes 0 to 7, and payload fields as (offset, bytes, value) (R44, R49). -/
def mkDesc (kind tag fl : Nat) (fs : List (Nat × Nat × Nat)) : Bytes :=
  fs.foldl (fun d f => orB d f.1 (leBytes f.2.1 f.2.2)) (leBytes 8 (2 ^ 63 + kind * 2 ^ 48 + tag * 2 ^ 32 + fl) ++ zeros 56)

def mkJob (d : Bytes) : Job := { jid := 1, sq := 0, cq := 0, desc := d }

/-- A running device with its primary link trained at 16 lanes of generation 6 (R36) and READY set (R478). -/
def caps (s : State) : State :=
  ((s.wr F.HOST_D2H_CAP_CAP 11000).wr F.HOST_H2D_CAP_CAP 10000).setf F.GLOBAL_STATUS_READY
def rdy : State := { caps State.reset with running := true, devTime := 2 ^ 40, phys := 2 ^ 40 }

/-- A state with one undecided job of descriptor `d`. -/
def withJob (s : State) (d : Bytes) : State := { s with host := { s.host with jobs := [mkJob d], nextJid := 2 } }
def J (s : State) : Job := s.host.jobs.getD 0 (mkJob [])
def granted (v : Verdict) : Bool := match v with | .granted .. => true | .refused .. => false

/-- The hypotheses of `Decides`, decided. -/
def dec (s : State) : Bool := !s.dead && decide (s.nextDecision = some (J s)) && decide (s.job? 1 = some (J s))
/-! ### Well-formedness: an ill-formed command for each check -/

theorem test_wf_refuses_unaligned_register : (Instr.registerWrite 2 0).wf = false ∧ (Instr.pairLoRead 0x4000000).wf = false ∧
    (Instr.pairLoWrite 0x4000000 0).wf = false ∧ (Instr.pairHiWrite 0x100800000 0).wf = false ∧
    (Instr.registerWrite 0x100000 0).wf = true := by decide
theorem test_wf_refuses_good_access_as_bad : (Instr.badWidthAccess true 8 4).wf = false ∧
    (Instr.badWidthAccess true 8 65).wf = false ∧ (Instr.badWidthAccess true 9 4).wf = true ∧
    (Instr.badWidthAccess false 0x3FFFFFF 2).wf = false := by decide
theorem test_wf_refuses_link : (Instr.linkRetrain false 7 16 false).wf = false ∧
    (Instr.linkTrainingDone false false 5 3 false).wf = false ∧ (Instr.linkTrainingDone false false 6 16 true).wf = true := by
  decide
theorem test_wf_refuses_short_block : (Instr.fibreVibRun (some [])).wf = false ∧ (Instr.fibreTempRun (some (zeros 127))).wf = false ∧
    (Instr.glintMeasure (some (zeros 128))).wf = false ∧ (Instr.tileRun (some (zeros 64))).wf = false ∧
    (Instr.imageOffer (some (zeros 255))).wf = false ∧ (Instr.tileRun none).wf = true := by decide +kernel
theorem test_wf_refuses_lists : (Instr.move (some [])).wf = false ∧ (Instr.move (some (zeros 33))).wf = false ∧
    (Instr.amuSequence (some (zeros 1024))).wf = false ∧ (Instr.move (some (zeros 64))).wf = true := by decide +kernel
theorem test_wf_refuses_prism_word : (Instr.prismWord 0 [0] [] [] true []).wf = false ∧
    (Instr.prismWord 0 (List.replicate 64 0) [(9, true), (9, false)] [] true []).wf = false ∧
    (Instr.prismWord 0 (List.replicate 64 0) [(1, true), (9, true)] [] true []).wf = false ∧
    (Instr.prismWord 0 (List.replicate 64 0) [] [(2097152, true)] true []).wf = false ∧
    (Instr.prismWord 0 (List.replicate 64 0) [(1, true), (9, false)] [] true []).wf = true := by decide +kernel
theorem test_wf_refuses_calibration : (Instr.calibrateChannelDone true 32768 0 0 0 0 0 0).wf = false ∧
    (Instr.calibrateChannelDone true 0 0 0 0 0 (-32769) 0).wf = false ∧
    (Instr.calibrateChannelDone true 0 0 0 0 0 0 32768).wf = false ∧
    (Instr.calibrateChannelDone true (-32768) 0 0 0 0 5 5).wf = true := by decide
theorem test_wf_refuses_traces : (Instr.glimmerTrace 0 0 [(0, 0)] [] false []).wf = false ∧
    (Instr.glimmerRecompute 0 0 [(2 ^ 31, 0)] [(0, 0)] false).wf = false ∧
    (Instr.glimmerTrace 1 2 [(3, 4)] [(5, -6)] false []).wf = true := by decide
theorem test_wf_refuses_repeats : (Instr.glintResult 0 [1, 1] false false).wf = false ∧
    (Instr.glintCommitApply [7, 8, 7]).wf = false ∧ (Instr.commandSlot 0 [2, 2] 0).wf = false := by decide
theorem test_wf_refuses_march_row : (Instr.marchTestDone [(33554432, 1)]).wf = false ∧
    (Instr.marchTestDone [(33554431, 1)]).wf = true := by decide
theorem test_wf_refuses_long_element : (Instr.moverElementEnd 0 262145 [] 0 []).wf = false ∧
    (Instr.moverElementEnd 0 0 [] 0 [262145]).wf = false ∧ (Instr.moverElementEnd 0 262144 [1] 0 [4]).wf = true := by decide +kernel
theorem test_wf_refuses_hbm : (Instr.hbmTrainingDone 0 1 []).wf = false ∧
    (Instr.hbmRequest 0 0 false 32 0 [] false).wf = false ∧ (Instr.hbmRequest 0 0 true 64 0 [] false).wf = false ∧
    (Instr.hbmRequest 0 0 false 64 0 [1] false).wf = false ∧ (Instr.hbmReadComplete 0 [0]).wf = false ∧
    (Instr.hbmRequest 0 0 true 64 0 (zeros 64) false).wf = true := by decide
theorem test_wf_refuses_times : (Instr.referenceReturn (2 ^ 63)).wf = false ∧
    (Instr.sidebandMessage 0 0 0 0 0 (-(2 ^ 63) - 1)).wf = false ∧ (Instr.referenceReturn (-(2 ^ 63))).wf = true := by decide
theorem test_wf_refuses_align : (Instr.arrayAlign 0).wf = false ∧ (Instr.arrayAlign 32).wf = true := by decide
theorem test_wf_refuses_offers : (Instr.bootImageArrival 0 1 [0]).wf = false ∧ (Instr.bootImageArrival 1 0 [0]).wf = false ∧
    (Instr.forwardedOfferArrival 0 [0]).wf = false ∧ (Instr.bootImageArrival 0 3 []).wf = true := by decide
theorem test_wf_refuses_sensors : (Instr.thermalSample [] 0 0).wf = false ∧ (Instr.powerMeasure 0 []).wf = false ∧
    (Instr.descriptorPickup [0]).wf = false := by decide
theorem test_wf_refuses_long_page : (Instr.doorbellReadDone 0 (List.replicate 513 0)).wf = false := by decide +kernel

/-! ### The queue, the step, reset -/

theorem test_no_word_spells_a_command : decodeTableWord 32 7 = none ∧ State.reset.withFetchWord 32 7 = State.reset := by
  decide +kernel
theorem wit_StepRunsTheFrontCommand : ∃ s : State, s.pending = [.linkCorrectedError, .readySet] :=
  ⟨{ State.reset with pending := [.linkCorrectedError, .readySet] }, rfl⟩
theorem wit_IdleStepAdvancesOneCycle : rdy.pending = [] ∧ rdy.dead = false := by decide +kernel
theorem wit_QueueIsServedInOrder :
    ({ rdy with pending := [.readySet, .warmupEnd] } : State).pending = [Instr.readySet] ++ [.warmupEnd] := by decide +kernel
theorem wit_WellFormedQueueIsKept : ({ rdy with pending := [.readySet] } : State).pending.all Instr.wf = true ∧
    (after { rdy with pending := [.readySet] }).isSome = true := by decide +kernel
theorem wit_StoppedDeviceAnswersAllOnes : ({ State.reset with dead := true } : State).dead = true ∧
    Instr.pairLoRead 0 ≠ .coldReset ∧ Instr.registerWrite 0 0 ≠ .coldReset := by decide +kernel
theorem wit_StoppedDeviceKeepsItsState :
    ({ State.reset with dead := true, pending := [.readySet] } : State).dead = true ∧
    Instr.coldReset ∉ ({ State.reset with dead := true, pending := [.readySet] } : State).pending := by decide +kernel
theorem test_idle_advances_one_cycle : (after rdy).map (·.devTime) = some (2 ^ 40 + 32768) := by decide +kernel

/-! ### Registers -/
namespace T01
theorem wit_BadAccessIsCountedAndIgnored : rdy.dead = false ∧ goodAccess 0x100002 4 = false := by decide +kernel
theorem wit_PairsAreOneValue : rdy.dead = false ∧ isPairLo 0x1002018 = true := by decide +kernel
def on : State := ex (.registerWrite 0x100000 7) rdy
theorem wit_PairsAreOneValue_plain : isPairLo 0x1002018 = true ∧ SpecialWrite 0x1002018 = false ∧
    SpecialWrite (0x1002018 + 4) = false ∧ (findReg regTable 0x1002018).isSome = true ∧
    (findReg regTable (0x1002018 + 4)).isSome = true := by decide +kernel
theorem wit_PairsAreOneValue_host : isPairLo 0x100020 = true ∧ isPairLo 0x1000A0 = true ∧
    rdy.rd F.HOST_CTRL_ENABLE = 0 ∧ rdy.rd F.HOST_CTRL_EVQ_EN = 0 ∧ on.rd F.HOST_CTRL_ENABLE = 1 ∧
    on.rd F.HOST_CTRL_EVQ_EN = 1 ∧ on.dead = false := by decide +kernel
theorem wit_PairsAreOneValue_rings : isPairLo 0x100104 = true ∧ isPairLo 0x100144 = true ∧ (rdy.sq 0).enable = false ∧
    (rdy.cq 0).enable = false ∧ ((ex (.sqEnable 0x41) rdy).sq 0).enable = true ∧
    ((ex (.cqEnable 0x41) rdy).cq 0).enable = true := by decide +kernel
theorem wit_RegisterWriteFollowsItsFields : 0x100090 < bar2 ∧ isPairLo 0x100090 = false ∧ isPairHi 0x100090 = false ∧
    SpecialWrite 0x100090 = false ∧ (findReg regTable 0x100090).isSome = true ∧ SpecialWrite 0x1FFFFC = false ∧
    findReg regTable 0x1FFFFC = none := by decide +kernel
theorem wit_AccessTypesActBitwise : (⟨"TIME", 16, 27, .rw⟩ : FieldDef).lo ≤ 27 ∧ 27 < 32 := by decide
/-- R16: a counter that stands at its largest value stays there. -/
theorem test_bad_access_counter_saturates :
    (ex (.badWidthAccess true 1 2) (rdy.wr F.HOST_BADACC_CNT_COUNT 0xFFFFFFFF)).rd F.HOST_BADACC_CNT_COUNT = 0xFFFFFFFF := by
  decide +kernel
/-- R12: HOST_DB_BASE written LO then HI, and read back LO then HI. -/
theorem test_pair_round_trip :
    (ex (.pairLoRead 0x100024) (ex (.pairLoRead 0x100020) (ex (.pairHiWrite 0x100024 9) (ex (.pairLoWrite 0x100020 0x7FFF) rdy)))).out =
      [.readData 0x100020 0x7000, .readData 0x100024 9] := by decide +kernel
end T01

/-! ### The doorbell page and the rings -/
namespace T02
/-- ENABLE, GLARE_EN and EVQ_EN are 1 and fetching has started; ring 3 of class 0 has two slots to take. -/
def st : State :=
  let s := ex (.registerWrite 0x100000 7) rdy
  { s with host := { s.host with started := true, sqs := [(3, { base := 0x4000, cq := 5, enable := true, tail := 2 })]
                                 cqs := [(5, { base := 0x1000, enable := true, coalTime := 4, oldest := some 7, since := 1 })] } }
def polling : State := { st with host := { st.host with pollBusy := [(1, true)], pollAgain := [(1, true)] } }
def fetching : State := { st with host := { st.host with fetch := some 3, turn := some (3, 4) } }
theorem wit_PollsStartOncePerClass : st.dead = false ∧ st.pageUsed = true ∧ kget st.host.pollBusy 1 false = false := by
  decide +kernel
theorem wit_PageReadFailureTakesNothing : polling.dead = false ∧ kget polling.host.pollBusy 1 false = true ∧
    polling.host.pageBad = false ∧ ({ polling with host := { polling.host with pageBad := true } } : State).host.pageBad = true := by
  decide +kernel
theorem wit_PageReadTakesHeadsAndTails : polling.dead = false ∧ kget polling.host.pollBusy 1 false = true ∧
    polling.host.cqs.all (fun r => r.2.held.isEmpty) = true ∧ polling.host.jobs = [] := by decide +kernel
theorem wit_RingEnablesTakeEffect : rdy.dead = false ∧ rdy.rd F.HOST_CTRL_EVQ_EN = 0 ∧ rdy.host.evq.lostSince = 0 ∧
    (rdy.sq (rdy.rd F.HOST_SQ_SEL_RING)).enable = false ∧ (rdy.cq (rdy.rd F.HOST_CQ_SEL_RING)).held = [] ∧
    rdy.host.jobs = [] ∧ (0x41 : Word).getLsbD 0 = true ∧
    ((ex (.sqEnable 1) rdy).sq 0).enable = true ∧ ((ex (.cqEnable 1) rdy).cq 0).enable = true := by decide +kernel
theorem wit_DescriptorReadIsIssued : st.dead = false ∧ st.flag F.HOST_CTRL_ENABLE = true ∧ st.host.started = true ∧
    st.host.frozen = false ∧ st.host.fetch = none ∧ countP (fun j => !j.decided) st.host.jobs < 64 ∧
    (st.generalFree || st.abortFree) = true ∧ st.nextRing = some 3 := by decide +kernel
theorem wit_PickupTakesOwnedSlots : fetching.dead = false ∧ fetching.host.fetch = some 3 ∧ (fetching.sq 3).enable = true ∧
    bitsAt (zeros 64) 0 8 63 63 = 0 ∧ bitsAt (mkDesc 1 2 0 []) 0 8 63 63 = 1 ∧ fetching.generalFree = true := by
  decide +kernel
/-- Every general entry is taken. -/
def crowded : State := { fetching with host := { fetching.host with jobs := List.replicate 1024 (mkJob []) } }
theorem wit_PickupTakesOwnedSlots_crowded : crowded.host.fetch = some 3 ∧ crowded.generalFree = false ∧ crowded.abortFree = true ∧
    bitsAt (mkDesc 0x7F 2 0 []) 0 8 55 48 = 0x7F ∧ bitsAt (mkDesc 1 2 0 []) 0 8 55 48 ≠ 0x7F := by decide +kernel
theorem wit_FailedDescriptorReadDisablesTheRing : fetching.dead = false ∧ fetching.host.fetch = some 3 ∧
    ({ fetching with regs := [] } : State).flag F.HOST_CTRL_EVQ_EN = false := by decide +kernel
theorem wit_CreditAndCoalescing : st.dead = false ∧ st.host.cqs.all (fun r => r.2.held.isEmpty) = true ∧ st.host.jobs = [] ∧
    (st.cq 5).oldest = some 7 ∧ (st.cq 5).coalTime ≠ 0 := by decide +kernel
/-- R44, R46: a slot with OWN 1 is taken, and OWN is written back 0; KIND and TAG stay. -/
theorem test_pickup_writes_own_back : (ex (.descriptorPickup (mkDesc 1 7 0 [])) fetching).out =
    [.hostWrite 0x4000 [0, 0, 0, 0, 7, 0, 1, 0]] := by decide +kernel
/-- R44: a tail one past the ring's 16 slots is refused; one at its size is taken. -/
theorem test_tail_range :
    ((ex (.doorbellReadDone 1 [5#64]) { polling with host := { polling.host with sqs := [(0, { enable := true, pollClass := 1 })] } }).sq 0).tail = 5 ∧
    ((ex (.doorbellReadDone 1 [17#64]) { polling with host := { polling.host with sqs := [(0, { enable := true, pollClass := 1 })] } }).sq 0).badTail = true := by
  decide +kernel
end T02

/-! ### Links, resets, unknown kinds -/
namespace T03
def jk : Job := { mkJob (mkDesc 0x7E 0x1234 0 []) with sq := 3, cq := 5 }
def sk : State :=
  { State.reset with host := { jobs := [jk], nextJid := 2, cqs := [(5, { base := 0x1000, enable := true, coalCount := 0, tail := 15, head := 1 })] } }
def jz : Job := { jk with zeroRead := true, ending := true, secondary := true, admitted := true }
def sz : State := { State.reset with host := { jobs := [jz], nextJid := 2 } }
theorem wit_TrainingSetsLinkCapacities : sz.dead = false ∧ (4 : Nat) ∈ [1, 2, 4, 8, 16] := by decide +kernel
theorem wit_RetrainsAndLinkErrorsAreCounted : sz.dead = false ∧ (1 : Nat) ≤ 6 ∧ (16 : Nat) ∈ [1, 2, 4, 8, 16] ∧
    ((1 : Nat), (16 : Nat)) ≠ (sz.rd F.HOST_LINK_SPEED, sz.rd F.HOST_LINK_WIDTH) ∧
    ((1 : Nat), (16 : Nat)) ≠ (rdy.rd F.HOST_LINK_SPEED, rdy.rd F.HOST_LINK_WIDTH) ∧ sz.admittedJobs.isEmpty = false ∧ rdy.admittedJobs.isEmpty = true := by decide +kernel
def held : State := { rdy with host := { rdy.host with frozen := true } }
theorem wit_ResetsReleaseAndRestore : held.dead = false ∧ held.host.frozen = true ∧ rdy.dead = false ∧
    rdy.host.frozen = false ∧ (0xA401 : Word).toNat / 256 % 256 ≠ 0xA5 ∧ (0xA500 : Word).getLsbD 0 = false ∧
    (0xA501 : Word).toNat / 256 % 256 = 0xA5 ∧ (0xA501 : Word).getLsbD 0 = true ∧ rdy.warmRefused = false ∧
    held.warmRefused = true := by decide +kernel
theorem wit_UnknownKindIsRefusedWithTwoRecords : sk.dead = false ∧ sk.host.frozen = false ∧ sk.host.jobs = [jk] ∧
    jk.decided = false ∧ jk.kind ∉ kinds ∧ jk.admitted = false ∧ jk.desc.length = 64 ∧ (sk.cq jk.cq).enable = true ∧
    (sk.cq jk.cq).held = [] ∧ sk.host.credit = true ∧ (sk.cq jk.cq).coalCount = 0 ∧ jk.hdr 0 0 = 0 ∧ jk.hdr 1 1 = 0 ∧
    jk.stalls = [] ∧ jk.residue = 0 ∧ jk.delivered = 0 ∧
    2 ≤ ringFree (sk.cq jk.cq).tail (sk.cq jk.cq).head (ringSize (sk.cq jk.cq).sizeLog2 4 16) ∧
    (sk.cq jk.cq).head ≤ (sk.cq jk.cq).tail ∧ (sk.cq jk.cq).tail + 2 < 2 ^ 32 := by decide +kernel
theorem wit_ZeroLengthReadReleasesTheFinalRecord : sz.dead = false ∧ sz.host.jobs = [jz] ∧ jz.zeroRead = true ∧
    jz.ending = true ∧ jz.finalSent = false ∧ sz.host.chans = [] ∧ jz.waits = [] ∧ sz.cqOpen jz.cq = false ∧
    jz.sq = (3 : Fin 64).val ∧ jz.tag = (0x1234#16).toNat := by decide +kernel
/-- R36: a bifurcated link of 16 lanes of generation 5 gives each half 8 lanes' capacity, 2,750 and 2,500. -/
theorem test_bifurcated_training :
    (ex (.linkTrainingDone true true 5 16 false) State.reset).rd F.HOST_D2H_CAP_CAP = 2750 ∧
    (ex (.linkTrainingDone true true 5 16 false) State.reset).rd F.HOST_H2D_CAP_CAP_SEC = 2500 := by decide +kernel
end T03

/-! ### Admission decisions -/
namespace T04
theorem of_granted {v : Verdict} (h : granted v = true) : ∃ d rd rh b dur chans, v = .granted d rd rh b dur chans := by
  cases v with
  | refused a b c => exact absurd h (by simp [granted])
  | granted d rd rh b dur chans => exact ⟨d, rd, rh, b, dur, chans, rfl⟩

/-- Input `n` enabled and online (R95). -/
def onl (s : State) (n : Nat) : State := (s.wr F.PRISM_CHn_STAT_ONLINE 1 n).wact F.PRISM_CHn_CTRL_ENABLE 1 n
/-- The state with one more undecided job. -/
def add (s : State) (d : Bytes) : State :=
  { s with host := { s.host with jobs := s.host.jobs ++ [{ mkJob d with jid := s.host.nextJid }], nextJid := s.host.nextJid + 1 } }
/-- The youngest job. -/
def L (s : State) : Job := s.host.jobs.getLast?.getD (mkJob [])
def blk (k : Nat) (fs : List (Nat × Nat × Nat)) : Bytes := fs.foldl (fun d f => orB d f.1 (leBytes f.2.1 f.2.2)) (zeros k)

def sArm : State := add (onl rdy 0) (mkDesc 1 7 0 [(8,1,0),(9,1,0x21),(12,4,1),(16,6,128),(24,6,128),(32,3,2),(36,4,1000),(40,2,0),(60,4,100)])
def tArm : State := ex .captureArm sArm
def sOpen : State := add (onl (onl rdy 0) 1) (mkDesc 3 8 0 [(8,1,1),(12,4,1),(16,4,4)])
def tOpen : State := ex .streamOpen sOpen
theorem wit_CapturesAndStreamsAreOpened : Decides sArm (L sArm) 0x01 ∧ granted (sArm.judge (L sArm) (sArm.armPlan (L sArm))) = true ∧
    Decides sOpen (L sOpen) 0x03 ∧ granted (sOpen.judge (L sOpen) (sOpen.openPlan (L sOpen))) = true := by
  unfold Decides; decide +kernel
def sClose : State := add tOpen (mkDesc 4 9 0 [(8,2,8),(10,1,0),(11,1,3),(16,8,2^40+10^9)])
theorem wit_StreamCloseSetsTheStop : Decides sClose (L sClose) 0x04 ∧
    granted (sClose.judge (L sClose) (sClose.closePlan (L sClose))) = true ∧
    (sClose.captOf ((L sClose).bits 10 1 5 0) ((L sClose).fld 8 2)).isSome = true ∧ (L sClose).bits 11 1 0 0 = 1 := by
  unfold Decides; decide +kernel
def sRead : State := add tArm (mkDesc 2 10 0 [(8,2,7),(10,1,0),(12,4,1),(16,8,5),(24,8,2),(32,8,0x10000),(40,8,0x100000),(48,8,0x200000),(56,8,0x300000)])
def kRead : Option Capt := sRead.captOf ((L sRead).bits 10 1 5 0) ((L sRead).fld 8 2)
theorem wit_SegmentReadWaitsForItsEntries : Decides sRead (L sRead) 0x02 ∧
    granted (sRead.judge (L sRead) (sRead.readPlan (L sRead))) = true ∧ kRead.isSome = true ∧
    kRead.all (fun k => decide (sRead.capt? k.jid = some k ∧ k.ended = false ∧ k.nextEnt ≤ (L sRead).fld 16 8)) = true ∧
    (match sRead.judge (L sRead) (sRead.readPlan (L sRead)) with | .granted _ _ _ _ dur _ => decide (dur ≠ some 0) | _ => false) = true ∧
    sRead.record.reads = [] ∧ (L sRead).bits 1 1 2 2 = 0 ∧ 0 < (L sRead).fld 24 8 := by
  unfold Decides; decide +kernel
def sAg : State := add ((onl rdy 2).wact F.AFTERGLOW_CHn_CTRL_HIST_EN 1 2) (mkDesc 5 11 0 [(8,1,2),(9,1,0),(16,8,2^40+10^9),(24,4,0),(28,4,16),(34,2,4),(36,4,0),(12,4,1),(40,8,0x10000),(48,8,0x10000),(56,8,0x40000)])
def sClr : State := add (onl rdy 2) (mkDesc 6 11 0 [(8,1,2),(9,1,1)])
theorem wit_AfterglowReadsAndClearsAreSet : Decides sAg (L sAg) 0x05 ∧
    granted (sAg.judge (L sAg) (sAg.agReadPlan (L sAg))) = true ∧ sAg.devTime < sAg.fullTime ((L sAg).fld 16 8) ∧
    sAg.record.agReads = [] ∧ Decides sClr (L sClr) 0x06 ∧
    granted (sClr.judge (L sClr) (sClr.agClearPlan (L sClr))) = true ∧ (L sClr).bits 9 1 4 4 = 0 := by
  unfold Decides; decide +kernel
def inp (s : State) (n : Nat) : State := ((onl s n).wact F.PRISM_CHn_CTRL_RATE 6 n).wr F.PRISM_CHn_STAT_CAL_VALID 1 n
def fibreBase : State :=
  (inp (inp rdy 0) 1).setBcn 0 { rdy.bcn 0 with bank0 := some { cyc := 20000, idle := 0, slots := [⟨0, 0, 0, 0, 0, 64, 8, 8⟩] } }
def vb : Bytes := blk 576 [(0,4,100),(4,4,64),(8,2,16),(10,1,8),(11,1,1),(12,4,0),(16,1,8),(17,1,0),(18,1,1),(19,1,1),(20,2,0),(22,2,5),(24,4,0),(28,4,0x3f800000),(36,2,16),(40,4,4),(48,8,0x100000),(56,4,576),(64,4,500000000)]
def sVib : State := add fibreBase (mkDesc 0x10 3 0 [(8,1,0),(9,1,0),(10,1,0),(12,4,200),(16,8,0x20000),(24,8,0),(32,4,100)])
def fb : Bytes := blk 128 [(0,4,0),(4,4,1000),(8,4,100),(12,4,10),(16,2,4),(18,1,0),(24,4,500),(28,4,100),(32,4,0x3f800000),(48,8,0x100000),(56,4,4)]
def sFt : State := add fibreBase (mkDesc 0x11 4 0 [(8,1,0),(12,4,200),(16,8,0x20000),(32,4,1000),(36,4,10)])
def sBl : State := add fibreBase (mkDesc 0x12 5 0 [(8,1,8+2),(12,4,10),(24,4,64),(28,4,64),(32,8,0x10000)])
theorem wit_FibreJobsStart : Decides sVib (L sVib) 0x10 ∧ granted (sVib.judge (L sVib) (sVib.vibPlan (some vb) (L sVib))) = true ∧
    Decides sFt (L sFt) 0x11 ∧ granted (sFt.judge (L sFt) (sFt.ftPlan (some fb) (L sFt))) = true ∧
    Decides sBl (L sBl) 0x12 ∧ granted (sBl.judge (L sBl) (sBl.beaconPlan (L sBl))) = true := by
  unfold Decides; decide +kernel
def gb : Bytes := blk 256 [(0,8,0x10000),(8,4,4),(64,2,1)]
def sGl : State :=
  add ([0, 1].foldl (fun s n => (s.wact F.GLINT_INn_CTRL_ENABLE 1 n).wact F.GLINT_INn_CTRL_SLOPE 1 n) rdy)
    (mkDesc 0x20 6 0 [(8,1,0),(9,1,0),(10,1,1),(12,2,0x103),(14,2,1),(16,4,10),(20,4,1),(24,6,1000000),(36,4,1),(40,4,1000000),(44,4,100),(48,8,0x20000)])
theorem wit_GlintMeasureStandsByItsGroup : Decides sGl (L sGl) 0x20 ∧
    granted (sGl.judge (L sGl) (sGl.glPlan (some gb) (L sGl))) = true := by unfold Decides; decide +kernel
def sLd : State := add rdy (mkDesc 0x30 1 0 [(8,1,4),(10,2,2),(12,4,10),(16,8,0x10000),(24,4,128)])
def rb : Bytes := blk 128 [(0,2,0),(2,2,64),(4,2,2),(6,2,128),(8,2,160),(10,2,16),(12,2,2),(14,1,1),(16,8,0x100000),(24,4,4),(32,8,0x20000),(40,8,100)]
def sRun : State := add ([0, 1, 2, 3].foldl (fun s n => s.setf F.LUMEN_Tt_STAT_LOADED n) rdy)
  (mkDesc 0x31 2 0 [(8,1,0),(9,1,0),(10,2,2),(12,4,10),(16,8,0x10000),(24,4,64),(28,4,1000)])
theorem wit_TileJobsStart : Decides sLd (L sLd) 0x30 ∧ granted (sLd.judge (L sLd) (sLd.loadPlan (L sLd))) = true ∧
    (L sLd).retainPages = 0 ∧ Decides sRun (L sRun) 0x31 ∧ granted (sRun.judge (L sRun) (sRun.runPlan (some rb) (L sRun))) = true ∧
    (runCfg (L sRun) rb 0).poolSize = 0 ∧ (L sRun).bits 9 1 6 4 = 0 ∧ 0 < (runCfg (L sRun) rb 0).g := by
  unfold Decides; decide +kernel
def ml : Bytes := blk 32 [(0,8,0x1000),(8,8,0x2000),(16,4,4096)]
def sMv : State := add rdy (mkDesc 0x40 3 0 [(8,1,0),(9,1,0x66),(10,2,0),(12,4,100),(16,8,0x10000)])
def sLr : State := add rdy (mkDesc 0x71 4 0 [(12,4,100),(16,8,0x10000)])
theorem wit_MoverJobsStart : Decides sMv (L sMv) 0x40 ∧ granted (sMv.judge (L sMv) (sMv.movePlan (some ml) (L sMv))) = true ∧
    (L sMv).srcSpace ≠ 2 ∧ Decides sLr (L sLr) 0x71 ∧ granted (sLr.judge (L sLr) (sLr.ledgerPlan (L sLr))) = true := by
  unfold Decides; decide +kernel
def am : Bytes := blk 32 [(0,1,1),(4,4,64),(14,1,1)]
def sSeq : State := add rdy (mkDesc 0x50 5 0 [(8,1,1),(12,4,10),(16,8,0x10000),(24,8,0x20000),(32,4,4),(36,4,3),(40,4,0)])
def sInj : State := add rdy (mkDesc 0x51 6 0 [(8,1,1),(22,1,1)])
def sCal : State := add (onl rdy 0) (mkDesc 0x60 7 0 [(8,1,1),(9,1,1)])
def sAl : State := (add rdy (mkDesc 0x61 8 0 [(12,4,0)])).setf F.CLOCK_REF_STAT_XIN
theorem wit_MeasurementJobsStart : Decides sSeq (L sSeq) 0x50 ∧
    granted (sSeq.judge (L sSeq) (sSeq.amuSeqPlan (some am) (L sSeq))) = true ∧ Decides sInj (L sInj) 0x51 ∧
    granted (sInj.judge (L sInj) (sInj.amuInjPlan (L sInj))) = true ∧ sInj.amu.slot = none ∧ sInj.amu.waitCal = [] ∧
    Decides sCal (L sCal) 0x60 ∧ granted (sCal.judge (L sCal) (sCal.calPlan (L sCal))) = true ∧ sCal.amu.slot = none ∧
    sCal.amu.waitCal = [] ∧ sCal.amu.waitHost = none ∧ Decides sAl (L sAl) 0x61 ∧
    granted (sAl.judge (L sAl) (sAl.alignPlan 3 (L sAl))) = true := by unfold Decides; decide +kernel
def xJ : Job := { mkJob (mkDesc 0x20 77 0 []) with jid := 1, sq := 3 }
def aJ : Job := { mkJob (mkDesc 0x7F 78 0 [(8,2,77),(10,1,3)]) with jid := 2, sq := 3 }
def sAb : State := { rdy with host := { rdy.host with jobs := [xJ, aJ], nextJid := 3 } }
theorem wit_AbortEndsAWaitingJob : Decides sAb aJ 0x7F ∧ sAb.host.jobs = [xJ, aJ] ∧ xJ.decided = false ∧ xJ.ending = false ∧
    xJ.jid ≠ aJ.jid ∧ xJ.kind ≠ 0x7F ∧ xJ.sq = aJ.bits 10 1 5 0 ∧ xJ.tag = aJ.fld 8 2 ∧ aJ.bits 11 1 0 0 = 0 ∧
    aJ.cq = xJ.cq ∧ aJ.waits = [] ∧ sAb.headerBad aJ = false ∧ aJ.kflags = 0 ∧
    payloadOnly aJ.desc [(8, 15, 0), (10, 5, 0), (11, 0, 0)] = true ∧ sAb.cqOpen aJ.cq = false ∧ sAb.host.chans = [] ∧
    aJ.ending = false ∧ aJ.finalSent = false ∧ aJ.zeroRead = false ∧ aJ.secondary = false := by
  unfold Decides; decide +kernel
/-- R137: a capture begins with nothing stored, N segments as the payload says, at the earliest 2 µs later. -/
theorem test_capture_arm : tArm.record.capts.map (fun k => (k.n, k.pre, k.due - sArm.devTime, k.words.length)) =
    [(3, 128, 131072000, 0)] := by decide +kernel
/-- R48: a payload bit that the KIND does not list refuses the job with DESCRIPTOR_ERROR, counted once. -/
theorem test_reserved_payload_is_refused :
    (ex .streamOpen (add (onl rdy 1) (mkDesc 3 8 0 [(8,1,1),(12,4,1),(16,4,4),(63,1,1)]))).rd F.HOST_DESC_ERR_CNT_COUNT = 1 := by
  decide +kernel
end T04

/-! ### Prism -/
namespace T05
def onl (s : State) (n : Nat) : State :=
  (((s.wr F.PRISM_CHn_STAT_ONLINE 1 n).wact F.PRISM_CHn_CTRL_ENABLE 1 n).wr F.PRISM_CHn_CTRL_ENABLE 1 n).wr F.PRISM_CHn_STAT_CAL_VALID 1 n
def s1 : State := rdy.wr F.PRISM_CHn_CTRL_ENABLE 1 0
def t1 : State := ex (.prismCommit 0 1) s1
def s3 : State := (onl rdy 1).setCh 1 { nextT := 2 ^ 40, rangePend := some ⟨2, 5, 7, 1, 2 ^ 40 - 10, false⟩ }
def s4 : State := rdy.setCh 1 { rangePend := some ⟨2, 5, 7, 0, 2 ^ 40 + 70, false⟩ }
theorem wit_PrismSetUpTakesEffect_commit : s1.dead = false ∧ (1 : Word).getLsbD 0 = true ∧ s1.pairedOdd 0 = false ∧
    (s1.rd F.PRISM_CHn_CTRL_ENABLE 0, s1.rd F.PRISM_CHn_CTRL_RATE 0, 0) ≠ s1.cfgOf 0 ∧ s1.owned 0 = false ∧
    (s1.cfgOf 0).2.2 ≠ 1 ∧ s1.rd F.PRISM_CHn_CTRL_PAIR 0 = 0 ∧ s1.rd F.PRISM_CHn_CTRL_RATE 0 ≠ 7 ∧
    s1.floorWith 0 (s1.rd F.PRISM_CHn_CTRL_ENABLE 0, s1.rd F.PRISM_CHn_CTRL_RATE 0, 0) + s1.jobPower ≤ 2150 := by
  decide +kernel
theorem wit_PrismSetUpTakesEffect_apply : t1.dead = false ∧
    (t1.ch 0).cfgPend.any (fun c => decide (c.enable < 2 ∧ c.rate < 8 ∧ c.pair < 2)) = true := by decide +kernel
theorem wit_PrismSetUpTakesEffect_range : (s3.ch 1).rangePend = some ⟨2, 5, 7, 1, 2 ^ 40 - 10, false⟩ ∧ s3.pairedOdd 1 = false ∧
    (s3.wordsOn 1 && !s3.cfgDue 1 && s3.rangeDue 1) = true ∧ (s4.ch 1).rangePend = some ⟨2, 5, 7, 0, 2 ^ 40 + 70, false⟩ ∧
    s4.pairedOdd 1 = false ∧ s4.chOn 1 = false := by decide +kernel
def s5 : State := (onl rdy 1).setCh 1 { nextT := 2 ^ 40 }
def s6 : State := s5.wr F.PRISM_CHn_CAL_CTRL_BG_EN 1 1
def s8 : State :=
  { s5 with prism := { s5.prism with cal := [{ jid := 0, keepOnFail := false, mask := 6, todo := [1, 2], level := some 5 }] } }
def t8 : State := ex (.calibrateChannelDone true 25 1 2 3 4 5 6) s8
theorem wit_PrismWordsAndCalibration_word : s5.dead = false ∧ (s5.wordsOn 1 && !s5.cfgDue 1 && !s5.rangeDue 1) = true ∧
    (s5.ch 1).ovrFirst = none ∧ codeOf (10 ^ 12) (s5.ract F.PRISM_CHn_CTRL_RANGE 1)
      (s5.ract F.PRISM_CHn_TRIM_FINE_GAIN 1) (s5.ract F.PRISM_CHn_TRIM_OFFSET 1) ∈ [(-512 : Int), 511] := by decide +kernel
theorem wit_PrismWordsAndCalibration_update : s6.dead = false ∧ s6.running = true ∧ s6.chOn 1 = true ∧ s6.pairedOdd 1 = false ∧
    s6.rd F.PRISM_CHn_CAL_CTRL_BG_EN 1 = 1 ∧ s6.flag F.PRISM_CHn_STAT_CALIBRATING 1 = false ∧
    s6.rd F.PRISM_CHn_CAL_CTRL_FREEZE 1 = 0 ∧ s6.host.frozen = false ∧ s6.clk.lossT = none ∧
    (s6.ch 1).settleEnd ≤ s6.gridFrom 1 (roundUp (max s6.devTime ((s6.ch 1).calAt + 1)) 655360000000) := by decide +kernel
theorem wit_PrismWordsAndCalibration_channel : s8.dead = false ∧ s8.prism.cal.map (fun r => (r.level.isSome, r.todo)) = [(true, [1, 2])] ∧
    t8.prism.cal.map (fun r => (r.level.isSome, r.todo)) = [(true, [2])] := by decide +kernel
/-- R99: the channel that passed has a calibration, and the next one is being calibrated. -/
theorem test_calibration_goes_on : t8.rd F.PRISM_CHn_STAT_CAL_VALID 1 = 1 ∧ t8.rd F.PRISM_CHn_STAT_CALIBRATING 2 = 1 := by
  decide +kernel
/-- R79: the new set-up is active 2 µs after the SCLK boundary that follows the commit. -/
theorem test_commit_due : (t1.ch 0).cfgPend.map (·.due) = some (2 ^ 40 + 131072000) := by decide +kernel
end T05

/-! ### Lantern -/
namespace T06
/-- Condition 3 on TRIG0, both edges, as stage 1 of unit 2. -/
def shw (f : State → Fld → Nat → Nat → State) (s : State) : State :=
  f (f (f (f (f s F.LANTERN_CONDc_CTRL_TYPE 1 3) F.LANTERN_CONDc_CTRL_SRC 0x58 3) F.LANTERN_UNITu_CTRL_ENABLE 1 2)
    F.LANTERN_UNITu_STAGES_STAGE1 3 2) F.LANTERN_CONDc_CTRL_SLOPE 1 3
def s1 : State := shw (fun s f v i => s.wr f v i) rdy
def t1 : State := ex (.lanternCommit 1) s1
def s2 : State := s1.wr F.LANTERN_CONDc_CTRL_SRC 0x30 3
def t3 : State := ex .lanternCommitApply t1
def t4 : State := ex (.triginEdge 0 true (t3.devTime + 100)) t3
def t5 : State := ex (.triginEdge 0 false (t4.devTime + 10000)) t4
def s9 : State := (shw (fun s f v i => s.wact f v i) rdy).setCond 3 { rdy.cond 3 with due := some (2 ^ 40 + 500) }
def s10 : State :=
  ({ rdy with lan := { rdy.lan with unitAct := rdy.lan.unitAct.wr F.LANTERN_UNITu_SEQ_TMAX_T 2 0 100 } } : State).setUnit 2
    { rdy.unit 2 with stage := 1, stageT := 2 ^ 40 }
theorem wit_LanternTakesSetUpAndEdges_commit : s1.dead = false ∧ (1 : Word).getLsbD 0 = true ∧
    (s1.shadow lanLo lanHi == lastPend s1.lan.pend (s1.active lanLo lanHi)) = false ∧ lanternOffender (s1.shadow lanLo lanHi) = none ∧
    (s2.shadow lanLo lanHi == lastPend s2.lan.pend (s2.active lanLo lanHi)) = false ∧ lanternOffender (s2.shadow lanLo lanHi) = some 3 ∧
    t1.lan.pend.isSome = true ∧ t3.running = true := by decide +kernel
theorem wit_LanternTakesSetUpAndEdges_timeout : s9.dead = false ∧
    (srcOf (condCfg s9.act 3).src).level?.isSome = true ∧ (s9.cond 3).due = some (2 ^ 40 + 500) ∧
    condUsed s9.act 3 = true ∧ (∀ k : Fin 16, (s9.cond k).dirty = none) := by decide +kernel
theorem wit_LanternTakesSetUpAndEdges_sequence : (s10.unit 2).stage ≠ 0 ∧
    s10.lan.unitAct.rd F.LANTERN_UNITu_SEQ_TMAX_T 2 0 = 100 ∧ s10.lan.queue = [] ∧
    (∀ k : Fin 16, (s10.cond k).dirty = none) ∧
    (let v := s10.toDev (2 ^ 40 + 25600); 2 ^ 40 + 25600 < v.lanHorizon.getD v.lanEnd) := by decide +kernel
/-- The unit's queue with a mark, exporting on line 0. -/
def s7 : State := { t5 with lan := { t5.lan with unitAct := t5.lan.unitAct.wr F.LANTERN_UNITu_CTRL_EXPORT_EN 2 0 1 } }
def s8 : State :=
  { s7 with lan := { s7.lan with lastExport := [(0, ((s7.unit 2).queue.getD 0 ⟨0, 0, 0, 0, 0, 0⟩).stamp - 10)] } }
def s12 : State := ((shw (fun s f v i => s.wact f v i) rdy).wact F.LANTERN_IMPORT_LINE_EN 8).wact F.LANTERN_CONDc_CTRL_SRC 0x43 3
def s13 : State := s12.setf F.ERNOS_STAT_ALIGNED
def t13 : State := ex (.lineEvent 3 (2 ^ 40 + 5)) s13
def s15 : State :=
  { rdy with clk := { rdy.clk with holdEnd := some (2 ^ 40 + 9) }, lan := { rdy.lan with holding := true }, glint := { rdy.glint with holding := true } }
theorem wit_LanternMarksAndLines_marks : t5.dead = false ∧ (t5.unit 2).queue ≠ [] ∧ t5.lan.queue = [] ∧
    (∀ k : Fin 16, (t5.cond k).dirty = none) ∧ (∀ i : Fin 2, t5.ft i = none) ∧
    t5.lan.unitAct.rd F.LANTERN_UNITu_CTRL_EXPORT_EN 2 0 = 0 := by decide +kernel
theorem wit_LanternMarksAndLines_export : (s7.unit 2).queue.length < 1024 ∧ s7.lan.unitAct.rd F.LANTERN_UNITu_CTRL_EXPORT_EN 2 0 ≠ 0 ∧
    kget s7.lan.lastExport (s7.lan.unitAct.rd F.LANTERN_UNITu_CTRL_EXPORT_LINE 2 0) 0 = 0 ∧
    kget s8.lan.lastExport 0 0 ≠ 0 ∧
    ((s8.unit 2).queue.getD 0 ⟨0, 0, 0, 0, 0, 0⟩).stamp < kget s8.lan.lastExport 0 0 + 524288 := by decide +kernel
theorem wit_LanternMarksAndLines_lines : s12.running = true ∧ s12.record.sync = none ∧ s12.lan.holding = false ∧
    (rdy.ract F.LANTERN_IMPORT_LINE_EN).testBit 3 = false ∧ (s12.ract F.LANTERN_IMPORT_LINE_EN).testBit 3 = true ∧
    s12.flag F.ERNOS_STAT_ALIGNED = false ∧ s13.flag F.ERNOS_STAT_ALIGNED = true ∧ kget s13.lan.lastLine 3 0 = 0 ∧
    t13.flag F.ERNOS_STAT_ALIGNED = true ∧ kget t13.lan.lastLine 3 0 ≠ 0 ∧
    2 ^ 40 + 50 < kget t13.lan.lastLine 3 0 + 524288 ∧ s15.clk.holdEnd = some (2 ^ 40 + 9) := by decide +kernel
/-- R108, R121: the rising edge of TRIG0 marks; the falling one does not. -/
theorem test_trigin_marks : (t4.unit 2).queue.length + (t4.lan.queue.length) ≤ 1 ∧ (t5.unit 2).queue.length = 1 := by
  decide +kernel
end T06

/-! ### The record store -/
namespace T07
open Sys2Proof.Tests.T04 (onl add sArm tArm tOpen)
def k0 (s : State) : Capt := s.record.capts.getD 0 { jid := 0, sq := 0, tag := 0, input := 0 }
def c1 : State := ex (.captureArming 0 7) tArm
def T : Nat := tArm.gridFrom 0 (k0 tArm).due
def mark (t : Nat) : Mark := { stamp := t, number := 1, flags := 0, cond := 0, unit := (k0 tArm).unit, lost := 2 }
def inb (s : State) (m : Mark) : State := s.updCapt 1 (fun k => { k with inbox := k.inbox ++ [m] })
def c2 : State := ex (.captureMark 0 7) (inb c1 (mark (T + 100000)))
def c3 : State := ex (.captureMark 0 7) (inb c2 (mark (T + 100001)))
def one (k : Capt) : State :=
  ({ c1 with record := { c1.record with capts := [k] } } : State).setRch 0 { c1.rch 0 with penN := 100, pen := [] }
def closing : State :=
  one { k0 c1 with n := 5, shape := 0, wins := [{ mark := mark (T + 5), trig := some 64, start := 0, stop := some 200 }] }
def gated : State :=
  one { k0 c1 with n := 5, shape := 3, limit := 0, stopUnit := 3
                   wins := [{ mark := mark (T + 5), trig := some 64, start := 0, stop := none }] }
/-- The capture of ring 0 and TAG 7 is `k0 s`, and runs. -/
def runsIn (s : State) : Bool :=
  !s.dead && decide (s.captOf 0 7 = some (k0 s)) && decide (s.capt? (k0 s).jid = some (k0 s)) && !(k0 s).isStream &&
    !(k0 s).ended && decide ((k0 s).input < 4)
theorem wit_CapturesTakeMarksAndWriteEntries_arming : runsIn tArm = true ∧ (k0 tArm).armed = none := by decide +kernel
/-- A mark while armed, early or not, in a state `s`: the hypotheses of the second clause. -/
def marks (s : State) : Bool :=
  runsIn s && ((k0 s).inbox.take 1).all (fun m => (k0 s).armed.any (fun a => decide (a ≤ m.stamp)) && decide (m.unit = (k0 s).unit)) &&
    decide ((k0 s).inbox ≠ []) && !(k0 s).hold && !(k0 s).closed && decide ((k0 s).shape ≠ 3 ∧ (k0 s).accepted < (k0 s).n)
theorem wit_CapturesTakeMarksAndWriteEntries_marks : marks (inb c1 (mark (T + 100000))) = true ∧
    (k0 c1).tat ≤ T + 100000 + (k0 c1).burstL ∧ marks (inb c2 (mark (T + 100001))) = true ∧
    T + 100001 + (k0 c2).burstL < (k0 c2).tat := by decide +kernel
theorem wit_CapturesTakeMarksAndWriteEntries_stop : runsIn (inb gated { mark (T + 10 ^ 6) with unit := 3 }) = true ∧
    (k0 gated).armed.any (fun a => decide (a ≤ T + 10 ^ 6)) = true ∧ (k0 gated).hold = false ∧ (k0 gated).shape = 3 ∧
    (k0 gated).gateOpen = true ∧ (k0 gated).stopUnit = 3 ∧ (∀ w ∈ (k0 gated).wins, w.mark.stamp ≤ T + 10 ^ 6) ∧
    runsIn (inb gated (mark (T + 10 ^ 6))) = true ∧ (mark 0).unit ≠ 3 := by decide +kernel
theorem wit_CapturesTakeMarksAndWriteEntries_close : runsIn closing = true ∧
    (k0 closing).wins.map (·.stop) = [some 200] ∧ 200 ≤ 64 * (closing.rch 0).penN ∧ (k0 closing).gapOpen = none ∧
    (k0 closing).closed = false ∧ (k0 closing).release = false ∧ (k0 closing).armed.isSome = true ∧
    0 < (k0 closing).armTime := by decide +kernel
theorem wit_CapturesTakeMarksAndWriteEntries_gate : runsIn gated = true ∧ (k0 gated).shape = 3 ∧
    ((k0 gated).wins.find? (fun v => v.stop.isNone && v.trig.isSome)).any
      (fun w => decide ((k0 gated).winEnd w ≤ 64 * (gated.rch 0).penN)) = true := by decide +kernel
def u1 : State := ex (.streamStart 0 8) tOpen
def sStop : State := u1.updCapt 1 (fun k => { k with stopAt := some 5 })
def sRel : State := sStop.updCapt 1 (fun k => { k with release := true })
def v0 : State := (onl rdy 1).wr F.RECORD_SYNC_CTRL_CH_MASK 2
def v1 : State := ex (.recordSyncGo 1) v0
def streamIn (s : State) : Bool :=
  !s.dead && decide (s.captOf 0 8 = some (k0 s)) && decide (s.capt? (k0 s).jid = some (k0 s)) && (k0 s).isStream && !(k0 s).ended
theorem wit_StreamsAndSyncRun_streams : streamIn tOpen = true ∧ (k0 tOpen).armed = none ∧ streamIn sStop = true ∧
    (k0 sStop).stopAt = some 5 ∧ (k0 sStop).release = false ∧ streamIn sRel = true ∧ (k0 sRel).stopAt = some 5 ∧
    (k0 sRel).release = true := by decide +kernel
theorem wit_StreamsAndSyncRun_sync : v0.dead = false ∧ (1 : Word).getLsbD 0 = true ∧ v1.dead = false ∧
    v1.record.sync.any (fun r => r.at'.isSome) = true := by decide +kernel
/-- R141, R142: the mark one tick after the first one is declined, as its segment's time is not yet over. -/
theorem test_second_mark_declined : (k0 c2).accepted = 1 ∧ (k0 c3).accepted = 1 ∧
    (k0 c3).gapOpen.map (·.declined) = some 1 := by decide +kernel
/-- R145: a window that is complete is written as one entry. -/
theorem test_window_written : (k0 (ex (.windowClose 0 7) closing)).segs = 1 := by decide +kernel
end T07

/-! ### Afterglow -/
namespace T08
open Sys2Proof.Tests.T04 (onl add L)
open Sys2Proof.Tests.T07 (k0 c1 mark)
def sh1 : State := rdy.wr F.AFTERGLOW_CHn_CTRL_SUM_EN 1 2
def t1 : State := ex (.afterglowCommit 1) sh1
def sx : State := c1.wr F.AFTERGLOW_CHn_CTRL_SUM_EN 1 0
def hit (s : State) : Bool := (List.range 4).any (fun n => s.owned n &&
  kget (s.shadow agLo agHi) (0xC01000 + 0x100 * n) 0 ≠ kget s.act (0xC01000 + 0x100 * n) 0)
theorem wit_AfterglowSetUpSumsAndClears_commit : sh1.dead = false ∧ (1 : Word).getLsbD 0 = true ∧
    sh1.shadow agLo agHi ≠ lastPend sh1.record.agPend (sh1.active agLo agHi) ∧ hit sh1 = false ∧ sx.dead = false ∧
    sx.shadow agLo agHi ≠ lastPend sx.record.agPend (sx.active agLo agHi) ∧ hit sx = true ∧ t1.record.agPend.isSome = true := by decide +kernel
def w0 (d : Bool) : SWord := { smps := (List.range 64).map (fun i => { t := 1000 + i, v := 5, cfg := (1, 0, 0) }), status := 0, damaged := d }
def kk (d : Bool) : Capt :=
  { k0 c1 with
    pre := 2, post := 4, words := [{ g := 0, w := w0 d }], sumQ := [0]
    table := [{ mark := mark 7, gap := false, seq := 0, start := 0, first := 3, len := 6, range := 1 }] }
/-- One complete segment waits for the sum engine; `d`: its word is damaged. -/
def sq (d : Bool) : State :=
  ({ c1 with record := { c1.record with capts := [kk d] } } : State).wact F.AFTERGLOW_CHn_CTRL_SUM_EN 1 0
theorem wit_AfterglowSetUpSumsAndClears_sum (d : Bool) : (sq d).dead = false ∧
    (sq d).record.capts.find? (fun k => k.input = 0 && !k.sumQ.isEmpty) = some (kk d) ∧ (kk d).sumQ = [0] ∧
    (kk d).entBase ≤ 0 ∧ ((kk d).table[0 - (kk d).entBase]?).isSome = true ∧ (sq d).ract F.AFTERGLOW_CHn_CTRL_SUM_EN 0 = 1 ∧
    (sq d).ract F.AFTERGLOW_CHn_CTRL_ENV_EN 0 = 0 ∧ (sq d).record.agReads = [] ∧ ((sq d).ag 0).sumT ≤ 7 ∧
    (sq d).record.capts.find? (fun k => k.input = 0 && k.backed.isNone && !k.isStream && k.table.any (fun e => !e.gap)) =
      some (kk d) ∧ ((kk d).table.filter (fun e => !e.gap)).getLast?.isSome = true := by
  cases d <;> decide +kernel
def sL : State := add (onl rdy 2) (mkDesc 6 11 0 [(8,1,2),(9,1,9)])
def tL : State := ex .afterglowClear sL
def sc : State := tL.setAg 2 { tL.ag 2 with hist := [(5, 6)], poison := [1], sumCur := { recs := 4, cfg := (0, 0, 0), sums := [1] } }
theorem wit_AfterglowSetUpSumsAndClears_clear : sc.dead = false ∧
    (sc.ag 2).clear.any (fun c => c.due.isSome && (sc.job? c.jid).isSome) = true := by decide +kernel
def sG (w fl : Nat) (fs : List (Nat × Nat × Nat)) : State :=
  let s := ((onl rdy 2).wact F.AFTERGLOW_CHn_CTRL_HIST_EN 1 2).wact F.AFTERGLOW_CHn_CTRL_SUM_EN 1 2
  add ((s.wact F.AFTERGLOW_CHn_CTRL_MASK_EN 1 2).setAg 2
      { sumCur := { recs := 3, cfg := (0, 0, 0), sums := List.replicate 16 7 }, hist := [(5, 6), (2000, 5)], poison := [0] })
    (mkDesc 5 11 0 ([(8,1,2),(9,1,w),(10,1,fl),(16,8,2^40+10^9),(24,4,0),(12,4,1),(40,8,0x10000),(48,8,0x10000),(56,8,0x40000)] ++ fs))
def g0 : State := ex .afterglowRead (sG 0 1 [(28,4,2),(34,2,4)])
def g0s : State := ex (.snapshotInstant 0 11) g0
def g1 : State := ex .afterglowRead (sG 1 0 [(28,4,16)])
def g1s : State := ex (.snapshotInstant 0 11) g1
def g3 : State := ex .afterglowRead (sG 3 0 [(40,8,0),(28,4,0)])
/-- One read of WHAT `w`, not yet at its instant, by the job of ring 0 and TAG 11. -/
def readWaits (s : State) (w : Nat) : Bool :=
  !s.dead && (s.jobOf? 0 11).any (fun j => decide (s.record.agReads.map (fun r => (r.jid, r.started, r.what)) = [(j.jid, false, w)]))
theorem wit_AfterglowReadsSnapshotAndDeliver_instant : readWaits g0 0 = true ∧ readWaits g1 1 = true ∧ readWaits g3 3 = true := by
  decide +kernel
theorem wit_AfterglowReadsSnapshotAndDeliver_column : g0s.dead = false ∧
    g0s.record.agReads.map (fun r => (r.what, r.started, decide (r.next < r.count), r.clear)) = [(0, true, true, true)] ∧
    g0s.record.agReads.all (fun r => (g0s.job? r.jid).any (fun j => decide (j.bits 8 1 1 0 = 2) && g0s.moved j)) = true := by
  decide +kernel
theorem wit_AfterglowReadsSnapshotAndDeliver_drain : g1s.dead = false ∧
    g1s.record.agReads.map (fun r => (r.what, r.started, decide (r.next < r.count))) = [(1, true, true)] ∧
    g1s.record.agReads.all (fun r => (g1s.job? r.jid).any (fun j => decide (j.bits 8 1 1 0 = 2))) = true ∧
    g1s.record.capts = [] := by decide +kernel
/-- R178: a segment with a damaged word is skipped; a sound one is summed, 6 samples of value 5. -/
theorem test_sum_skips_damaged : (ex (.sumSegmentRead 0 false) (sq true)).rd F.AFTERGLOW_CHn_SUM_SKIP_CNT_COUNT 0 = 1 ∧
    ((ex (.sumSegmentRead 0 false) (sq false)).ag 0).sumCur.sums = [5, 5, 5, 5, 5, 5] := by decide +kernel
end T08

/-! ### Beacon, Glimmer, fibre temperature -/
namespace T09
open Sys2Proof.Tests.T04 (L vb fb sVib sFt fibreBase)
def tVib : State := ex (.fibreVibRun (some vb)) sVib
def tFt : State := ex (.fibreTempRun (some fb)) sFt
def sb : State := fibreBase.wr F.BEACON_Bb_CTRL_PLAY 1 0
def t1 : State := ex (.beaconCommit 0 1) sb
def pl (s : State) : Play := (s.bcn 0).play.getD { owner := 9, bank := 9, t0 := 0, floor := 0 }
def sEmpty : State := sb.setBcn 0 {}
def t3 : State := ex (.beaconPlayStart 0) t1
def prog3 : BProg := { cyc := 20000, idle := 0, slots := [⟨0, 0, 3, 0, 0, 64, 8, 8⟩] }
def sm : State := fibreBase.setBcn 0 { t3.bcn 0 with bank0 := some prog3 }
def t5 : State := ex (.markerEdge 1 2 0 true) sm
def sw : State := t3.setBcn 0 { t3.bcn 0 with play := some { pl t3 with next := some (1, 2 ^ 40 + 10 ^ 9, 7) } }
def ss : State := t3.setBcn 0 { t3.bcn 0 with play := some { pl t3 with stopAt := some (2 ^ 40 + 10 ^ 9) } }
def commits (s : State) : Bool :=
  !s.dead && !(s.shadow (bcnLo 0) (bcnHi 0) == s.active (bcnLo 0) (bcnHi 0)) && decide (s.rd F.BEACON_Bb_CTRL_PLAY 0 = 1) &&
    decide (s.ract F.BEACON_Bb_CTRL_PLAY 0 = 0 ∧ s.rd F.BEACON_Bb_CTRL_MK_INV 0 = s.ract F.BEACON_Bb_CTRL_MK_INV 0)
def okPlay (s : State) : Bool :=
  !s.claimed (.beacon 0) && ((s.bcn 0).prog (s.rd F.BEACON_Bb_CTRL_BANK 0)).isSome && decide (s.floorPlay 0 1 + s.jobPower ≤ 2150)
theorem wit_BeaconPlays_commit : commits sb = true ∧ okPlay sb = true ∧ commits sEmpty = true ∧ okPlay sEmpty = false := by
  decide +kernel
theorem wit_BeaconPlays_start : t1.dead = false ∧ (t1.bcn 0).play = some (pl t1) ∧ (pl t1).started = false ∧
    (pl t1).held = false ∧ (pl t1).stopAt = none := by decide +kernel
theorem wit_BeaconPlays_emission : t3.dead = false ∧ (t3.bcn 0).play = some (pl t3) ∧ ((t3.bcn 0).prog (pl t3).bank).isSome = true ∧
    (pl t3).started = true ∧ (pl t3).held = false ∧ (pl t3).stopAt = none ∧ (pl t3).next = none ∧ (pl t3).owner = 0 ∧
    (pl t3).left = none := by decide +kernel
theorem wit_BeaconPlays_marker : sm.dead = false ∧ (sm.bcn 0).play = some (pl sm) ∧ (sm.bcn 0).prog (pl sm).bank = some prog3 ∧
    (pl sm).held = false ∧ (pl sm).stopAt = none ∧ (pl sm).next = none ∧ (pl sm).left = none ∧ (0 : Fin 16).val < prog3.slots.length ∧
    (prog3.slot 0).mkr.testBit 1 = true ∧ (sm.bcn 0).wins = [] ∧ sm.devTime ≤
      max ((pl sm).t0 + (2 * prog3.cyc + (prog3.slot 0).offset) * 32768 - (prog3.slot 0).lead * 32768) (pl sm).floor ∧
    (t5.bcn 0).wins.map (fun w => (w.mkr, w.slot)) = [(1, 0)] ∧ (t5.bcn 0).dir = none := by decide +kernel
theorem wit_BeaconPlays_switch : (sw.bcn 0).play = some (pl sw) ∧ (pl sw).next = some (1, 2 ^ 40 + 10 ^ 9, 7) ∧
    (pl sw).held = false ∧ (ss.bcn 0).play = some (pl ss) ∧ (pl ss).stopAt = some (2 ^ 40 + 10 ^ 9) := by decide +kernel
def word : FWord := { t := 2 ^ 40 + 2 ^ 40, span := 2 ^ 16, status := 0, clip := false, codes := [] }
def r0 : GRun := (tVib.glim 0).getD { jid := 0, sq := 0, tag := 0, cfg := gCfg (L sVib) vb none }
def r1 : GRun :=
  { r0 with cfg := { r0.cfg with tones := r0.cfg.tones ++ r0.cfg.tones }, pending := [{ c := 0, slot := 0, te := 2 ^ 40 }]
            histE := [word], histO := [word] }
def sg : State := tVib.setGlim 0 (some r1)
def rf : GRun := { r0 with frames := [⟨1, 0, [1, 2, 3], [4, 5, 6, 7, 8, 9, 10, 11], 5⟩] }
def sf : State := tVib.setGlim 0 (some rf)
theorem wit_FibreTracesAndFrames_trace : sg.dead = false ∧ sg.glim 0 = some r1 ∧
    r1.cfg.tones[0]?.any (fun k => decide (k.slot = 0) &&
      wordsReach r1.histE (posTime (2 ^ 40) r1.cfg.delay (r1.cfg.posFirst + r1.cfg.traceLen k - 1) + halfSpan)) = true ∧
    r1.hold = false ∧ 0 + 1 < (r1.cfg.slotTones 0).length := by decide +kernel
theorem wit_FibreTracesAndFrames_frame : sf.dead = false ∧ sf.glim 0 = some rf ∧ rf.frames ≠ [] ∧ rf.done = false := by
  decide +kernel
def f0 : FtRun := (tFt.ft 0).getD { jid := 0, sq := 0, tag := 0, cfg := {} }
def f1 : FtRun := { f0 with pending := [(2 ^ 40, false)], histE := [word], histO := [word] }
def st : State := tFt.setFt 0 (some f1)
def fz : FtRun := { f0 with taken := 1000, clean := 0, cfg := { f0.cfg with nRun := 0, nZones := 1, len := 1 } }
def se : State := tFt.setFt 0 (some fz)
def fd : FtRun := { f0 with dirDue := some (2 ^ 40 + 500), dir := true }
def sd : State := tFt.setFt 0 (some fd)
theorem wit_FibreTracesAndFrames_temperature : st.dead = false ∧ st.ft 0 = some f1 ∧ f1.hold = false ∧ f1.taken < f1.cfg.nAcc ∧
    wordsReach f1.histE (f1.cfg.anchor (2 ^ 40) - 1) = true ∧ wordsReach f1.histO (f1.cfg.anchor (2 ^ 40) - 1) = true ∧
    f1.pending ≠ [] := by decide +kernel
theorem wit_FibreTracesAndFrames_accumulation : se.dead = false ∧ se.ft 0 = some fz ∧ fz.cfg.nAcc ≤ fz.taken ∧
    fz.cfg.dbl = false ∧ fz.cfg.nRun = 0 ∧ sd.dead = false ∧ sd.ft 0 = some fd ∧ fd.dirDue = some (2 ^ 40 + 500) := by
  decide +kernel
/-- R198: a commit that starts a play of an empty bank is refused. -/
theorem test_empty_bank_is_refused : (ex (.beaconCommit 0 1) sEmpty).rd F.BEACON_Bb_COMMIT_STAT_REJ_INVALID 0 = 1 := by
  decide +kernel
/-- R242: a late trace is skipped and counted. -/
theorem test_late_trace_skipped : (ex (.ftempTrace 0 true) st).rd F.FTEMP_In_SKIP_CNT_COUNT 0 = 1 := by decide +kernel
end T09

/-! ### Glint -/
namespace T10
open Sys2Proof.Tests.T04 (blk add)
def gb : Bytes := blk 256 [(0,8,0x10000),(8,4,4),(40,4,1000),(64,2,1)]
def gbase : State := [0, 1].foldl (fun s n => (s.wact F.GLINT_INn_CTRL_ENABLE 1 n).wact F.GLINT_INn_CTRL_SLOPE 1 n) rdy
def sG : State := add gbase (mkDesc 0x20 6 0 [(8,1,0),(9,1,0),(10,1,1),(12,2,0x102),(14,2,1),(16,4,10),(20,4,1),(24,6,1000000),(36,4,1),(40,4,1000000),(44,4,100),(48,8,0x20000)])
def tG : State := ex (.glintMeasure (some gb)) sG
def r0 (s : State) : GlRun := s.glint.runs.getD 0 (sG.glCfg (mkJob []) [])
def T : Nat := 2 ^ 40
def g5 : State := gbase.wact F.GLINT_INn_CTRL_ENABLE 1 5
def e1 : State := ex (.glintEdge 5 true false (T + 5)) g5
def e2 : State := ex (.glintEdge 5 false false (T + 100)) e1
def a1 : State := ex (.glintArm 0) tG
def a2 : State := ex (.glintEdge 258 (decide ((r0 tG).pol = 0)) false (T + 10 ^ 9)) a1
def mm (s : State) : Meas := (r0 s).meas.getD { tg := 0 }
def S1 : Nat := (mm a2).ws + 10000
def a3 : State := ex (.glintEdge 0 true false S1) a2
def a4 : State := ex (.classICycleClose 0) a3
def a5 : State := ex (.glintWindowEnd 0) a4
/-- The hypotheses of an edge on input 5 at `e` that no run takes. -/
def edge (s : State) (e : Nat) : Bool :=
  !s.dead && s.running && !s.flag F.POWER_STAT_THERM_EMERG && !s.glint.holding && decide (s.ract F.GLINT_INn_CTRL_ENABLE 5 = 1) &&
    decide (s.glint.runs = []) && !(s.gin 5).wait && decide ((s.gin 5).from' ≤ e)
theorem wit_GlintStampsAndGates_edge : edge g5 (T + 5) = true ∧ (g5.gin 5).freeA ≤ T + 5 ∧ edge e1 (T + 100) = true ∧
    T + 100 < (e1.gin 5).freeA ∧ (e1.gin 5).freeB ≤ T + 100 ∧ edge e2 (T + 200) = true ∧ T + 200 < (e2.gin 5).freeA ∧
    T + 200 < (e2.gin 5).freeB := by decide +kernel
theorem wit_GlintStampsAndGates_stamp : a2.dead = false ∧ a2.running = true ∧ a2.flag F.POWER_STAT_THERM_EMERG = false ∧
    a2.glint.holding = false ∧ a2.ract F.GLINT_INn_CTRL_ENABLE 0 = 1 ∧ a2.glint.runs = [r0 a2] ∧ (r0 a2).clsF = false ∧
    (r0 a2).meas = some (mm a2) ∧ (r0 a2).takes.contains 0 = true ∧ (r0 a2).gateSrc ≠ 0 ∧ a2.slopePass 0 true = true ∧
    (a2.gin 0).wait = false ∧ (a2.gin 0).from' ≤ S1 ∧ (a2.gin 0).freeA ≤ S1 ∧ a2.ract F.GLINT_INn_TERM_DESKEW 0 = 0 ∧
    (mm a2).ws ≤ S1 ∧ S1 ≤ (mm a2).lim ∧ (mm a2).wend = none := by decide +kernel
theorem wit_GlintStampsAndGates_gate : a1.glint.runs = [r0 a1] ∧ (r0 a1).gateSrc = 256 + 2 ∧ (r0 a1).armed = true ∧
    (r0 a1).hold = false ∧ (r0 a1).meas = none ∧ (r0 a1).isOver = false ∧ (r0 a2).hold = false ∧
    a2.glint.runs = [r0 a2] ∧ (r0 a2).armed = true ∧ (r0 a2).meas.isSome = true := by decide +kernel
theorem wit_GlintStampsAndGates_run : tG.glRun 0 = some (r0 tG) ∧ (r0 tG).armed = false ∧
    tG.glint.runs.find? (fun x => x.jid = (r0 tG).jid) = some (r0 tG) ∧ a4.glRun 0 = some (r0 a4) ∧
    a4.glint.runs.find? (fun x => x.jid = (r0 a4).jid) = some (r0 a4) ∧ (r0 a4).meas = some (mm a4) ∧ (r0 a4).gateLen ≠ 0 ∧
    (mm a4).wend = none ∧ a3.glRun 0 = some (r0 a3) ∧ (r0 a3).meas = some (mm a3) ∧ (mm a3).cycles = [S1] ∧
    S1 + (r0 a3).span ≤ (mm a3).lim ∧ 0 < (r0 a3).limit ∧ (r0 a3).armed = true := by decide +kernel
def c0 : State := rdy.wr F.GLINT_INn_CTRL_ENABLE 1 7
def c1 : State := ex (.glintCommit 1) c0
def c3 : State := tG.wr F.GLINT_INn_CTRL_SLOPE 2 1
theorem wit_GlintResultsAndSetUp : a5.dead = false ∧ a5.glint.runs = [r0 a5] ∧ (r0 a5).group = 0 ∧ (r0 a5).ended ≠ [] ∧
    (r0 a5).isOver = false ∧ c0.dead = false ∧ (1 : Word).getLsbD 0 = true ∧
    (c0.shadow glLo glHi == lastPend c0.glint.pend (c0.active glLo glHi)) = false ∧ c0.glOffender = none ∧ c1.glint.pend.isSome = true ∧
    (c3.shadow glLo glHi == lastPend c3.glint.pend (c3.active glLo glHi)) = false ∧ c3.glOffender = some 0 := by decide +kernel
/-- R252: the edge 100 ticks after the first takes interpolator B, and the next one is lost. -/
theorem test_third_edge_lost : e2.rd F.GLINT_INn_STAMP_CNT_COUNT 5 = 2 ∧
    (ex (.glintEdge 5 true false (T + 200)) e2).rd F.GLINT_INn_LOSS_CNT_COUNT 5 = 1 := by decide +kernel
/-- R269: the first record of a group shows SEQ 1 and NEW. -/
theorem test_first_record : (ex (.glintResult 0 [] false false) a5).rd F.GLINT_Gg_RES_HDR_SEQ 0 = 1 ∧
    (ex (.glintResult 0 [] false false) a5).rd F.GLINT_Gg_RES_HDR_NEW 0 = 1 := by decide +kernel
end T10

/-! ### Lumen tiles -/
namespace T11
open Sys2Proof.Tests.T04 (sRun rb L)
def tR : State := ex (.tileRun (some rb)) sRun
def run : RunSt := tR.lumen.runs.getD 0 (runCfg (L sRun) rb 0)
/-- A bundle with CODE, FD, FA, FB and FM, and one with CODE, FD and IMM (R284). -/
def w0 (code fd fa fb fm : Nat) : Nat := code * 2 ^ 56 + fd * 2 ^ 50 + fa * 2 ^ 44 + fb * 2 ^ 38 + fm * 2 ^ 36
def wl (code fd im : Nat) : Nat := code * 2 ^ 56 + fd * 2 ^ 50 + im
def tl0 : TileSt :=
  { tR.tile 1 with
    regs := [(1, 0x0005FFF300070009#64), (2, 0x7FFF000280030004#64), (35, 77#64)], accM := [(3, 1000)], accS := [(3, -100000), (2, 7)]
    aregs := [(1, { addr := 10, base := 4, len := 16, step := 2 })], x := [(10, 0x8001#16)], cyc := 50 }
/-- Unit 1 of the run is about to issue bundle `w`. -/
def sw (w : Nat) : State := tR.setTile 1 { tl0 with imem := [(tl0.pc, BitVec.ofNat 64 w)] }
/-- The bundle of each operation that the statement names. -/
def words : List Nat :=
  [w0 0 0 0 0 0, w0 1 3 1 2 0, w0 2 4 1 2 2, w0 3 3 1 0 0, w0 4 5 3 0 0, w0 5 5 3 5 2, w0 6 5 1 61 0, w0 7 5 1 60 0, w0 8 5 1 0 0,
    w0 9 5 1 2 0, w0 0xA 5 1 2 0, w0 0xB 5 1 2 0, w0 0xC 5 1 2 0, w0 0xD 5 1 2 0, w0 0xE 5 1 2 1, w0 0xF 5 1 2 0,
    w0 0x10 0 1 2 0, w0 0x11 5 1 1 0, w0 0x12 5 1 0 0, w0 0x13 5 1 0 3, w0 0x14 5 4 0 0, w0 0x15 2 1 0 0, w0 0x16 5 0 9 0,
    w0 0x17 0 1 1 1, wl 0x20 5 0xFFFFFFF0, wl 0x21 35 0x12345678, wl 0x22 33 100, wl 0x23 1 0x3FFF, w0 0x37 0 0 0 0,
    w0 0x38 0 0 0 0]
def issues (w : Nat) : Bool :=
  let s := sw w
  !s.dead && decide (s.run? (s.tile 1).run = some run) && decide (0 < run.g) && s.canIssue run 1 &&
    decide (opc (s.tile 1).bundle = w / 2 ^ 56) && !illegal (s.tile 1).bundle && !placement (s.tile 1).now (s.tile 1).bundle &&
    decide ((s.tile 1).loops = []) && decide ((s.tile 1).delay = none) && decide ((s.tile 1).rep = none) &&
    decide ((s.tile 1).since + 1 ≤ run.maxCycles) && (run.unit 1).all (fun m => decide ((s.tile m).pend = []))
theorem wit_TileOperationsGiveTheirResults : words.all issues = true ∧ words.map (· / 2 ^ 56) =
    List.range 24 ++ [0x20, 0x21, 0x22, 0x23, 0x37, 0x38] := by decide +kernel
theorem wit_issues_is_UnitIssues : UnitIssues (sw (w0 9 5 1 2 0)) 1 run 9 ∧ UnitQuiet (sw (w0 9 5 1 2 0)) 1 run 1 := by
  unfold UnitIssues UnitQuiet; decide +kernel
theorem wit_TileOperationsGiveTheirResults_illegal : (sw (wl 0x3A 0 0)).dead = false ∧
    (sw (wl 0x3A 0 0)).run? ((sw (wl 0x3A 0 0)).tile 1).run = some run ∧ (sw (wl 0x3A 0 0)).canIssue run 1 = true ∧ 0 < run.g ∧
    (opRow (opc ((sw (wl 0x3A 0 0)).tile 1).bundle)).isSome = false ∧ illegal ((sw (wl 0x3A 0 0)).tile 1).bundle = true ∧
    run.unit 1 ⊆ List.range 256 := by decide +kernel
def T1 (c : Instr) (w : Nat) : TileSt := (ex c (sw w)).tile 1
/-- R287: the 64-bit sum of the registers. -/
theorem test_add : kget (T1 (.add 1) (w0 9 5 1 2 0)).regs 5 0 = 0x8004FFF5800A000D#64 := by decide +kernel
/-- R287: ADD4 works lane by lane: 9+4, 7-32765, -13+2, 5+32767 wrapped. -/
theorem test_add4_wraps : kget (T1 (.add4 1) (w0 0xE 5 1 2 0)).regs 5 0 = 0x8004FFF5800A000D#64 := by decide +kernel
/-- R287: with saturation the last lane is 32767. -/
theorem test_add4_saturates : kget (T1 (.add4 1) (w0 0xE 5 1 2 1)).regs 5 0 = 0x7FFFFFF5800A000D#64 := by decide +kernel
/-- R291: 1000 + 9·4 + 7·(-32765) + (-13)·2 + 5·32767 = -64510. -/
theorem test_mac4 : kget (T1 (.mac4 1) (w0 1 3 1 2 0)).accM 3 0 = -64510 := by decide +kernel
/-- R284: a code that no operation has is ILLEGAL. -/
theorem test_illegal_code : (ex (.add 1) (sw (wl 0x3A 0 0))).rd F.LUMEN_Tt_FAULT_CODE 1 = 1 := by decide +kernel
end T11

/-! ### Control, items and pool accesses -/
namespace T12
open Sys2Proof.Tests.T11 (tR run w0 wl tl0 sw)
def swi (w : Nat) (f : TileSt → TileSt) : State := (sw w).setTile 1 (f ((sw w).tile 1))
/-- Unit 1 of run `r` issues bundle `w`, alone and quiet. -/
def ready (s : State) (r : RunSt) (w : Nat) : Bool :=
  !s.dead && decide (s.run? (s.tile 1).run = some r) && decide (0 < r.g) && s.canIssue r 1 &&
    decide ((s.tile 1).bundle = w) && !illegal w && !placement (s.tile 1).now w && decide ((s.tile 1).loops = []) &&
    decide ((s.tile 1).delay = none) && decide ((s.tile 1).rep = none) && decide ((s.tile 1).since + 1 ≤ r.maxCycles) &&
    (r.unit 1).all (fun m => decide ((s.tile m).pend = [])) && decide (1 ∈ r.leads) && decide (r.unit 1 = [1])
theorem wit_TileControlItemsAndPool_control :
    [wl 0x24 0 (9 * 2 ^ 36), wl 0x25 0 (9 * 2 ^ 36), wl 0x26 0 0, wl 0x27 0 0, wl 0x28 1 (9 * 2 ^ 36), wl 0x29 5 7, wl 0x2A 0 0, 0].all
      (fun w => ready (sw w) run w) = true := by decide +kernel
def it : Item := { slot := 1, hdr := [], data := [], time := 0, flagged := false }
def wWaitin : Nat := w0 0x30 5 0 0 0
def hasItem : State := swi wWaitin (fun t => { t with held := [it] })
def taken : State := swi (w0 0x31 0 0 0 0) (fun t => { t with held := [{ it with taken := true }] })
theorem wit_TileControlItemsAndPool_items : ready hasItem run wWaitin = true ∧ (hasItem.tile 1).commits = [] ∧
    hasItem.unitHasItem run 1 = true ∧ ready (sw wWaitin) run wWaitin = true ∧ (sw wWaitin).unitHasItem run 1 = false ∧
    ready taken run (w0 0x31 0 0 0 0) = true ∧ (taken.tile 1).held.any (·.taken) = true := by decide +kernel
def full : State := swi (w0 0x33 0 0 0 0) (fun t => { t with outBusy := 2 })
theorem wit_TileControlItemsAndPool_outputs : ready (sw (w0 0x32 0 0 0 0)) run (w0 0x32 0 0 0 0) = true ∧
    ((sw (w0 0x32 0 0 0 0)).tile 1).outBusy < run.outSlots ∧ ((sw (w0 0x32 0 0 0 0)).tile 1).outs < run.outPerIn ∧
    ready (sw (w0 0x33 0 0 0 0)) run (w0 0x33 0 0 0 0) = true ∧ (sw (w0 0x33 0 0 0 0)).unitHasSlot run 1 = true ∧
    ready full run (w0 0x33 0 0 0 0) = true ∧ full.unitHasSlot run 1 = false := by decide +kernel
def rp : RunSt := { run with poolSize := 4096, poolBase := 8192 }
def swp (w : Nat) : State :=
  let s := swi w (fun t => { t with regs := [(1, 0x2000010#64), (2, 99#64)] })
  { s with lumen := { s.lumen with runs := [rp] } }
/-- Register 1 of tile 1 addresses word 2 of the window's second half, inside POOL_SIZE. -/
def poolOk (s : State) : Bool :=
  let a := ((s.tile 1).get 1).toNat
  decide ((s.tile 1).reqs.length < 4 ∧ a < 2 ^ 27 ∧ a / 2 ^ 25 ≠ 3 ∧ a % 8 = 0 ∧ a % 2 ^ 25 < rp.poolSize)
def stored : State := ex (.pst 1) (swp (w0 0x35 0 1 2 0))
def waits : State :=
  stored.setTile 1 { stored.tile 1 with imem := [((stored.tile 1).pc, BitVec.ofNat 64 (w0 0x36 0 0 0 0))] }
theorem wit_TileControlItemsAndPool_pool : ready (swp (w0 0x34 5 1 0 0)) rp (w0 0x34 5 1 0 0) = true ∧
    poolOk (swp (w0 0x34 5 1 0 0)) = true ∧ ready (swp (w0 0x35 0 1 2 0)) rp (w0 0x35 0 1 2 0) = true ∧
    poolOk (swp (w0 0x35 0 1 2 0)) = true ∧ ready (sw (w0 0x36 0 0 0 0)) run (w0 0x36 0 0 0 0) = true ∧
    (sw (w0 0x36 0 0 0 0)).unitPoolDone run 1 = true ∧ ((sw (w0 0x36 0 0 0 0)).tile 1).poolBad = false ∧
    ready waits rp (w0 0x36 0 0 0 0) = true ∧ waits.unitPoolDone rp 1 = false := by decide +kernel
theorem wit_TileControlItemsAndPool_halt : ready (sw (w0 0x3F 0 0 0 0)) run (w0 0x3F 0 0 0 0) = true ∧
    (sw (w0 0x3F 0 0 0 0)).job? run.jid ≠ none ∧ ((sw (w0 0x3F 0 0 0 0)).tile 1).skip = 0 := by decide +kernel
/-- R288: a taken branch to 9 has two delay slots. -/
theorem test_branch : ((ex (.b 1) (sw (wl 0x24 0 (9 * 2 ^ 36)))).tile 1).delay = some (2, .to 9) := by decide +kernel
/-- R309: the stored word waits for the pool with its data. -/
theorem test_pst : (stored.tile 1).reqs.map (fun q => (q.addr, q.data)) = [(8192 + 0x10, 99#64)] := by decide +kernel
end T12

/-! ### Events of tiles, the pool, march tests -/
namespace T13
open Sys2Proof.Tests.T11 (tR run w0)
open Sys2Proof.Tests.T12 (it)
def st (f : TileSt → TileSt) : State := tR.setTile 1 (f (tR.tile 1))
/-- Unit 1, the lead of its run `r`, is live. -/
def unitLive (s : State) (r : RunSt) : Bool :=
  !s.dead && decide (s.run? (s.tile 1).run = some r) && (s.tile 1).live && decide ((s.tile 1).lead = 1) && decide (r.unit 1 = [1])
def quiet (s : State) (n : Nat) : Bool :=
  decide ((s.tile 1).loops = []) && decide ((s.tile 1).delay = none) && decide ((s.tile 1).rep = none) &&
    decide ((s.tile 1).since + n ≤ run.maxCycles) && decide ((s.tile 1).pend = [])
def h1 : State := (st fun u => { u with stall := .hold, cyc := 10 }).wr F.LUMEN_Tt_STAT_WAITING 1 1
def h2 : State := st fun u => { u with stall := .waitout, cyc := 10, pend := [], imem := [(u.pc, BitVec.ofNat 64 (w0 0x33 0 0 0 0))] }
def h3 : State :=
  st fun u => { u with stall := .waitin, held := [it], cyc := 10, pend := [], imem := [(u.pc, BitVec.ofNat 64 (w0 0x30 0 0 0 0))] }
theorem wit_TileEventsTakeEffect_release : unitLive h1 run = true ∧ (h1.tile 1).stall = .hold ∧ (h1.tile 1).reqs.length < 4 ∧
    (h1.tile 1).since + 7 ≤ run.maxCycles ∧ unitLive h2 run = true ∧ (h2.tile 1).stall = .waitout ∧
    h2.unitHasSlot run 1 = true ∧ quiet h2 8 = true ∧ unitLive h3 run = true ∧ (h3.tile 1).stall = .waitin ∧
    h3.unitHasItem run 1 = true ∧ quiet h3 8 = true := by decide +kernel
def i1 : State := st fun u => { u with sr := 1, ipend := 8, imask := 8, vec := 77, roff := 3, pend := [] }
def t1 : State := st fun u => { u with stall := .waitin, tcmp := 500, cyc := 10 }
def o1 : State := st fun u => { u with stall := .waitout, timed := true, since := 10 }
theorem wit_TileEventsTakeEffect_irq : unitLive i1 run = true ∧ (i1.tile 1).stall = .none ∧ i1.irqDue run 1 = true ∧
    (i1.tile 1).since + 5 ≤ run.maxCycles ∧ (i1.tile 1).pend = [] ∧ unitLive t1 run = true ∧ (t1.tile 1).stall = .waitin ∧
    (t1.tile 1).since ≤ run.maxCycles ∧ unitLive o1 run = true ∧ (o1.tile 1).stall = .waitout ∧ (o1.tile 1).timed = true ∧
    (o1.tile 1).since ≤ run.maxCycles := by decide +kernel
def run2 : RunSt := { run with src := 2 }
def r2 (s : State) : State := { s with lumen := { s.lumen with runs := [run2] } }
def d1 : State := r2 (st fun u => { u with dry := true, arrived := [{ data := [1, 2, 3] }], lostNext := true })
def d2 : State := r2 (st fun u => { u with dry := true, arrived := [{ data := [1, 2, 3] }], held := [it, it, it, it] })
theorem wit_TileEventsTakeEffect_items : unitLive d1 run2 = true ∧ run2.src = 2 ∧ (d1.tile 1).dry = true ∧
    (d1.tile 1).arrived.length = 1 ∧ (d1.tile 1).held.length < run2.inSlots ∧ unitLive d2 run2 = true ∧
    (d2.tile 1).dry = true ∧ (d2.tile 1).arrived.length = 1 ∧ run2.inSlots ≤ (d2.tile 1).held.length := by decide +kernel
def run3 : RunSt := { run with recomp := true }
def p1 : State :=
  let s := st fun u => { u with stall := .parity, image := 9, held := [{ it with taken := true }], cyc := 42 }
  { s with lumen := { s.lumen with images := [⟨9, leBytes 8 0x4E4D554C ++ zeros 120, [0]⟩], runs := [run3] } }
def p2 : State := { p1 with lumen := { p1.lumen with runs := [run] } }
theorem wit_TileEventsTakeEffect_parity : unitLive p1 run3 = true ∧ (p1.tile 1).stall = .parity ∧ run3.recomp = true ∧
    (p1.lumen.images.find? (fun (i : ImageSt) => i.id = (p1.tile 1).image)).isSome = true ∧ unitLive p2 run = true ∧
    (p2.tile 1).stall = .parity ∧ run.recomp = false := by decide +kernel
def q1 : State := st fun u => { u with reqs := [⟨none, 4096, 0, 0x1122334455667788#64⟩, ⟨some 3, 4096, 0, 0⟩] }
def q2 : State := ex (.poolAccessComplete 1 20 false) q1
def g1 : State := ex (.poolMarchGo 5) rdy
theorem wit_MailPoolAndMarch : tR.dead = false ∧ q1.dead = false ∧
    (q1.tile 1).reqs.map (fun q => (q.target, q.view)) = [(none, 0), (some 3, 0)] ∧ q2.dead = false ∧
    (q2.tile 1).reqs.map (·.target) = [some 3] ∧ rdy.dead = false ∧ (5 : Word).toNat.testBit 0 = true ∧ rdy.poolJobs = 0 ∧
    rdy.pool.march = none ∧ rdy.heldPages = 0 ∧ g1.pool.march ≠ none ∧
    g1.pool.march.all (fun m => !m.startup && !m.preserving && decide (g1.phys ≤ m.began + g1.marchTicks m) &&
      g1.marchCovers m (4200 / 4096)) = true ∧ 4200 / 4096 ∉ g1.pool.retired ∧
    (ex (.poolMarchGo 7) rdy).pool.march.all (·.preserving) = true := by decide +kernel
/-- R326: the word that PST stored is the word that PLD then reads. -/
theorem test_pool_round_trip : ((ex (.poolAccessComplete 1 20 false) q2).tile 1).got = [(3, 0x1122334455667788#64)] := by
  decide +kernel
/-- R299: the interrupt enters at VEC with IE clear. -/
theorem test_interrupt_entry : ((ex (.tileInterrupt 1) i1).tile 1).pc = 77 ∧ ((ex (.tileInterrupt 1) i1).tile 1).sr = 0 := by
  decide +kernel
end T13

/-! ### Data movers -/
namespace T14
def wc (j : Job) (x : Chan) : State :=
  { rdy with host := { rdy.host with jobs := [{ j with admitted := true, decided := true }], chans := [(9, x)], nextJid := 2 } }
def jA : Job := { mkJob (mkDesc 0x05 5 0 []) with elems := [(9, .toHost 0x1000 [1, 2, 3, 4])] }
def s1 : State := wc jA { st := .held, jid := 1, rate := 100, creditAt := 2 ^ 40 - 1000 }
def t1 : State := ex (.moverElementReady 9) s1
def jB : Job := { mkJob (mkDesc 0x71 5 0 []) with elems := [(9, .produced 0x1000 64)], produced := [1, 2, 3], prodAt := 2 ^ 40 - 5 }
def s2 : State := wc jB { st := .held, jid := 1, rate := 100, credit := 10 ^ 9, creditAt := 2 ^ 40 - 1000 }
def t3 : State := ex (.moverGrant 1) t1
def jC : Job := mkJob (mkDesc 0x40 5 0 [(8,1,4),(16,8,0x10000)])
def s5 : State :=
  wc jC { st := .active, jid := 1, rate := 100, credit := 10 ^ 9, creditAt := 2 ^ 40, count := 8, cur := some (.move 0 0x2000 0x1000 8) }
theorem wit_MoversMoveElements_ready : s1.dead = false ∧ (s1.chan 9).st = .held ∧
    (s1.nextElem 9).all (fun x => !x.1.elemProduced x.2 && decide (x.2.len ≤ 262144)) = true ∧ (s1.nextElem 9).isSome = true ∧
    0 < (s1.chan 9).rate ∧ (s1.chan 9).creditAt ≤ s1.phys := by decide +kernel
theorem wit_MoversMoveElements_flush : s2.dead = false ∧ (s2.chan 9).st = .held ∧ (s2.nextElem 9).isSome = true ∧
    (s2.nextElem 9).all (fun x => x.1.elemProduced x.2 && decide (x.1.produced ≠ [] ∧ x.1.produced.length ≤ 262144) &&
      !x.1.prodClosed && decide (((x.1.produced.length * 6553600 : Nat) : Int) ≤ s2.creditOf 9)) = true ∧
    (s2.chan 9).creditAt ≤ s2.phys := by decide +kernel
theorem wit_MoversMoveElements_grant : t1.dead = false ∧ t1.activeChan 1 = none ∧ t1.nextReady 1 = some 9 := by decide +kernel
theorem wit_MoversMoveElements_end : t3.dead = false ∧ t3.activeChan 1 = some 9 ∧
    (t3.chan 9).cur = some (.toHost 0x1000 [1, 2, 3, 4]) ∧ (t3.chan 9).count = 4 ∧
    (t3.job? (t3.chan 9).jid).any (fun j => decide (j.cut = 0 ∧ j.elems = [] ∧ j.kind ≠ 0x31) && !j.autoEnd && !j.ending) = true := by
  decide +kernel
theorem wit_MoversMoveElements_move : s5.dead = false ∧ s5.activeChan 1 = some 9 ∧ (s5.chan 9).st = .active ∧
    (s5.chan 9).cur = some (.move 0 0x2000 0x1000 8) ∧ (s5.chan 9).count = 8 ∧ 0x1000 + 8 ≤ 2 ^ 25 ∧
    (s5.job? (s5.chan 9).jid).any (fun j => decide (j.cut = 0 ∧ j.kind = 0x40 ∧ j.srcSpace = 0 ∧ j.dstSpace = 1) &&
      !j.ending && !s5.cqOpen j.cq) = true := by decide +kernel
/-- R340: the element's bytes go to host memory as they are. -/
theorem test_element_written : (ex (.moverElementEnd 1 0 [] 0 []) t3).out = [.hostWrite 0x1000 [1, 2, 3, 4]] := by decide +kernel
end T14

/-! ### The record-store memory controllers -/
namespace T15
def lk : State := rdy.setf F.CLOCK_MPLL_STAT_LOCKED
def ok : Nat × BitVec 128 × BitVec 128 := (0, BitVec.ofNat 128 (2 ^ 60 - 2 ^ 20), BitVec.ofNat 128 (2 ^ 60 - 2 ^ 30))
def lanes : List (Nat × BitVec 128 × BitVec 128) := List.replicate 128 ok
def bad : List (Nat × BitVec 128 × BitVec 128) := List.replicate 127 ok ++ [(2, 0, 0)]
def b1 : State := ex (.hbmTrainingDone 1 500 lanes) lk
def b4 : State := ex (.hbmRefresh 33 4 true) b1
def A : Nat := 0x600000000 + 64 * 5
def D : Bytes := (List.range 64).map (fun i => BitVec.ofNat 8 (3 * i))
def b1on : State := b1.wr F.HBMC_Ss_STAT_OFFLINE 0 1
def c1 : State := ex (.hbmRequest 1 3 true (A + 7) (BitVec.allOnes 64) D true) b1on
def pp : Nat := 32 + (c1.place A).pc
def P : Fin 64 := Fin.ofNat 64 pp
def c4 : State := ex (.commandSlot P [] 65535) c1
def c5 : State := ex (.commandSlot P [] 65535) c4
def c6 : State := ex (.hbmRequest 1 4 false A 0 [] true) c5
def c7 : State := ex (.commandSlot P [] 65535) c6
def c10 : State :=
  { c6 with hbm := { c6.hbm with pcs := kset c6.hbm.pcs pp { c6.pc pp with rows := [((c1.place A).bank, 9)] } {} } }
theorem wit_HbmControllersServe_training : lk.dead = false ∧ lk.flag F.HBMC_Ss_STAT_TRAINED 1 = false ∧
    lk.flag F.CLOCK_MPLL_STAT_LOCKED = true ∧ lanes.length = 128 ∧ failedPcs lanes = 0 ∧ bad.length = 128 ∧ failedPcs bad ≠ 0 ∧
    (lanes[3]?).any (fun l => decide (24 ≤ (longestTaps l.2.1).2)) = true ∧ b1.dead = false ∧ b1.hbmPaused = false ∧
    b1.flag F.HBMC_Ss_STAT_TRAINED 1 = true ∧ (b4.pc 33).due = [(4, true)] := by decide +kernel
/-- One request `q` waits in its queue, alone, at the head of a command slot. -/
def slotReady (s : State) (write : Bool) (row : Nat) : Bool :=
  let c := s.pc P
  !s.dead && !s.hbmPaused && decide (c.due = [] ∧ c.nr = [] ∧ c.priv = [] ∧ c.held = []) &&
    (if write then decide (c.rd = [] ∧ c.wr.length = 1) else decide (c.wr = [] ∧ c.rd.length = 1)) &&
    (c.rd ++ c.wr).all (fun q => decide (q.addr / stackBytes = P / 32 ∧ (s.place q.addr).pc = P % 32 ∧ q.write = write ∧
      kget c.rows (s.place q.addr).bank 0 = row))
theorem wit_HbmControllersServe_slots : slotReady c1 true 0 = true ∧ slotReady c4 true ((c1.place A).row + 1) = true ∧
    slotReady c6 false ((c1.place A).row + 1) = true ∧ slotReady c10 false 9 = true ∧ 9 ≠ (c1.place A).row + 1 ∧
    (c4.pc P).wr.all (fun q => decide (q.mask = BitVec.allOnes 64 ∧ q.data.length = 64) && q.crc) = true := by decide +kernel
theorem wit_HbmControllersServe_requests : A / stackBytes = 1 ∧ b1on.flag F.HBMC_Ss_STAT_OFFLINE 1 = false ∧
    b1on.flag F.HBMC_Ss_STAT_TRAINED 1 = true ∧ b1on.hbmPaused = false ∧ (b1on.pc P).held = [] ∧
    (b1on.pc P).pendingWrite A = none ∧ (b1on.pc P).rd.length < 32 ∧ (b1on.pc P).wr.length < 64 ∧ (b1on.pc P).priv.length < 32 ∧
    ((c1.pc P).pendingWrite A).any (fun e => decide ((c1.pc P).wr = [e] ∧ e.mask = BitVec.allOnes 64 ∧ e.data.length = 64)) = true ∧
    (c1.pc P).priv = [] ∧ (c7.pc P).flight.map (fun f => (f.1.port, f.1.addr / stackBytes)) = [(4, 1)] := by decide +kernel
def d1 : State := rdy.wr F.HBMC_Ss_CTRL_GRAIN 3 1
def d2 : State := ex (.hbmcCommit 1 1) d1
def d4 : State := rdy.wr F.HBMC_Ss_CTRL_GRAIN 15 1
def d5 : State := { d1 with host := { d1.host with kept := [(1, { hbm1 := 64 })] } }
def e1 : State := lk.hbmSelfRefresh
theorem wit_HbmControllersServe_commit : d1.dead = false ∧ (1 : Word).toNat.testBit 0 = true ∧
    d1.shadow (hbmcLo 1) (hbmcHi 1) ≠ lastPend (kget d1.hbm.pend 1 none) (d1.active (hbmcLo 1) (hbmcHi 1)) ∧ d1.hbmReserved 1 = false ∧
    d1.hbmOccupied 1 = false ∧ hbmcBad (d1.shadow (hbmcLo 1) (hbmcHi 1)) 1 = false ∧
    hbmcBad (d4.shadow (hbmcLo 1) (hbmcHi 1)) 1 = true ∧ d4.hbmReserved 1 = false ∧ d4.hbmOccupied 1 = false ∧
    d5.hbmReserved 1 = true ∧ (kget d2.hbm.pend 1 none).isSome = true ∧ e1.dead = false ∧ e1.hbm.mpllHold = true ∧
    e1.hbm.stopHold = false ∧ e1.flag F.CLOCK_MPLL_STAT_LOCKED = true := by decide +kernel
/-- R372: a read of a block whose whole write still waits is forwarded. -/
theorem test_forwarded_read : (ex (.hbmRequest 1 4 false A 0 [] true) c1).hbm.last = some ⟨4, A, D, 0⟩ := by decide +kernel
/-- R375: the block written is the block read, undamaged. -/
theorem test_write_then_read : (ex (.hbmReadComplete P []) c7).hbm.last = some ⟨4, A, D, 0⟩ := by decide +kernel
end T15

/-! ### Clocks -/
namespace T16
/-- References present and every loop locked. -/
def run0 : State :=
  [F.CLOCK_REF_STAT_XIN, F.CLOCK_REF_STAT_REFIN, F.CLOCK_REF_STAT_ERN, F.CLOCK_SSYN_STAT_LOCKED, F.CLOCK_CPLL_STAT_LOCKED,
    F.CLOCK_MPLL_STAT_LOCKED].foldl (fun s f => s.setf f) rdy
def un : State :=
  ((run0.wr F.CLOCK_SSYN_STAT_LOCKED 0).wr F.CLOCK_CPLL_STAT_LOCKED 0).wr F.CLOCK_MPLL_STAT_LOCKED 0
def un7 : State := un.onClk (fun c => { c with loops := [(0, ⟨7, false⟩), (1, ⟨7, false⟩), (2, ⟨7, false⟩)] })
def one1 : State := run0.onClk (fun c => { c with loops := [(0, ⟨0, true⟩)] })
theorem wit_ClocksFollowTheirReferences_lock (l : Fin 3) : un.dead = false ∧ un.comparing l = true ∧
    un.flag (lockedFld l) = false ∧ (kget un.clk.loops l {}).eq < 7 ∧ un7.comparing l = true ∧ un7.flag (lockedFld l) = false ∧
    7 ≤ (kget un7.clk.loops l {}).eq := by revert l; decide +kernel
theorem wit_ClocksFollowTheirReferences_loss : run0.dead = false ∧ run0.comparing 0 = true ∧ run0.flag (lockedFld 0) = true ∧
    run0.running = true ∧ (kget run0.clk.loops 0 {}).one = false ∧ one1.comparing 0 = true ∧ one1.flag (lockedFld 0) = true ∧
    (kget one1.clk.loops 0 {}).one = true ∧ run0.rd F.CLOCK_PHASE_TOL_PS < 60000 ∧ NothingRuns run0 := by
  unfold NothingRuns; decide +kernel
def fb : State := run0.setf F.CLOCK_CPLL_STAT_FALLBACK
theorem wit_ClocksFollowTheirReferences_core : run0.present 0 = true ∧ run0.flag F.CLOCK_CPLL_STAT_LOCKED = true ∧
    fb.flag F.CLOCK_CPLL_STAT_FALLBACK = true ∧ fb.flag F.CLOCK_CPLL_STAT_LOCKED = true ∧
    run0.flag F.CLOCK_MPLL_STAT_LOCKED = true ∧ run0.hbmPaused = false ∧ rdy.present 0 = false ∧ rdy.dead = false := by
  decide +kernel
theorem wit_ClocksFollowTheirReferences_presence : run0.selRef = 0 ∧ run0.present 1 = true ∧ run0.present 2 = true ∧
    refinMhz.getD (run0.ract F.CLOCK_SSYN_CTRL_REFIN_FREQ) 100 = 100 ∧ 9 * (100 * 31250) ≤ 10 * 3125000 ∧
    10 * 3125000 ≤ 11 * (100 * 31250) ∧ run0.flag F.CLOCK_CPLL_STAT_FALLBACK = false ∧ run0.amu.seq = none ∧
    run0.amu.slot = none ∧ run0.effRef < 3 ∧ run0.flag F.CLOCK_SSYN_STAT_COASTING = false := by decide +kernel
def co : State := (run0.wr F.CLOCK_SSYN_STAT_COASTING 1).onClk (fun c => { c with unmeasured := true, coastAt := some 5 })
def r2 : State := ex (.referenceReturn 100000000) co
def cl : State := ((co.wact F.CLOCK_SSYN_CTRL_AUTO_XIN 1).wact F.CLOCK_SSYN_CTRL_SRC 1).wr F.CLOCK_COAST_LIMIT_S 1
theorem wit_ClocksFollowTheirReferences_coast : co.dead = false ∧ co.clk.unmeasured = true ∧ co.inLoss = false ∧
    (-3 : Int).natAbs ≤ 256 * co.rd F.CLOCK_REFRET_WINDOW_WINDOW ∧
    256 * co.rd F.CLOCK_REFRET_WINDOW_WINDOW < (100000000 : Int).natAbs ∧ (1 : Word).toNat.testBit 0 = true ∧
    r2.flag F.CLOCK_SSYN_STAT_RETURN_WAIT = true ∧ run0.flag F.CLOCK_SSYN_STAT_RETURN_WAIT = false ∧ cl.coastLimited = true ∧
    cl.present 0 = true ∧ cl.inLoss = false ∧ cl.clk.coastAt = some 5 := by decide +kernel
def k0 : State := run0.wr F.ERNOS_CTRL_ROLE 1
def k1 : State := ex (.clockCommit 1) k0
def k2 : State := (run0.wr F.CLOCK_SSYN_CTRL_SRC 1).wr F.CLOCK_SSYN_CTRL_REFIN_FREQ 3
def k3 : State := ex (.clockCommit 1) k2
def bad : State := run0.wr F.CLOCK_SSYN_CTRL_SRC 3
theorem wit_ClocksFollowTheirReferences_commit : k0.shadow clkLo clkHi ≠ lastPend k0.clk.pend (k0.active clkLo clkHi) ∧ k0.host.jobs = [] ∧
    k0.flag F.CLOCK_SSYN_STAT_STEPPING = false ∧ clkBad (k0.shadow clkLo clkHi) = false ∧
    bad.shadow clkLo clkHi ≠ lastPend bad.clk.pend (bad.active clkLo clkHi) ∧ clkBad (bad.shadow clkLo clkHi) = true ∧ bad.host.jobs = [] ∧
    (k0.setf F.CLOCK_SSYN_STAT_STEPPING).flag F.CLOCK_SSYN_STAT_STEPPING = true ∧
    k1.clk.pend.any (fun p => decide (ssynCfg (k1.applyShadow clkLo clkHi p.snap).act = ssynCfg k1.act)) = true ∧
    k3.clk.pend.any (fun p => decide (ssynCfg (k3.applyShadow clkLo clkHi p.snap).act ≠ ssynCfg k3.act)) = true ∧
    k3.running = true ∧ NothingRuns k3 := by unfold NothingRuns; decide +kernel
/-- R383: the eighth equal window locks. -/
theorem test_eighth_window_locks : (ex (.lockWindow 0 0) un7).flag F.CLOCK_SSYN_STAT_LOCKED = true := by decide +kernel
end T16

/-! ### Device time and the array -/
namespace T17
open Sys2Proof.Tests.T16 (run0)
def al : AlignRun := { jid := 1, t := 2 ^ 40 + 2 ^ 20, devs := 1 }
def sA : State := run0.onClk (fun c => { c with align := some al })
def sB : State := (sA.setf F.CLOCK_SSYN_STAT_RETURN_WAIT).wr F.CLOCK_REFRET_STEP_STEP 20000000
def mem : State := (run0.wact F.ERNOS_CTRL_ROLE 2).wact F.ERNOS_CTRL_PORT_EN 3
def m1 : State := ex (.ernLinkUp 1 true) mem
def jA : Job := { mkJob (mkDesc 0x61 8 0 [(12,4,0)]) with admitted := true, decided := true }
def sD : State :=
  { (run0.wact F.ERNOS_CTRL_ROLE 1) with
    host := { run0.host with jobs := [jA], nextJid := 2 }
    clk := { run0.clk with align := some { al with passed := true, stepped := true } } }
def oth : List AlignEntry := [⟨0, 1, false, 900000, 5, 10, 3, 100⟩, ⟨1, 2, true, 0, 5, 10, 3, 100⟩]
theorem wit_DeviceTimeIsReadUntorn : rdy.dead = false ∧ rdy.boundary = 2 ^ 40 := by decide +kernel
theorem wit_DeviceTimeAndErnos_instant : run0.dead = false ∧ run0.running = true ∧ sA.isMember = false ∧
    sA.clk.align = some al ∧ al.passed = false ∧ sA.devTime ≤ al.t ∧ sB.clk.align = some al ∧ NothingRuns sB ∧
    sA.rd F.ERNOS_ALIGN_TOL_TICKS ≥ sA.ownOffset.natAbs ∧ sB.rd F.ERNOS_ALIGN_TOL_TICKS < sB.ownOffset.natAbs ∧
    al.t < ({ sA with devTime := 2 ^ 41 } : State).devTime := by unfold NothingRuns; decide +kernel
theorem wit_DeviceTimeAndErnos_links : (mem.ract F.ERNOS_CTRL_PORT_EN).testBit 1 = true ∧ mem.isMember = true ∧
    mem.clk.upstream = false ∧ m1.flag F.ERNOS_STAT_DN_UP = true ∧ mem.flag F.ERNOS_STAT_DN_UP = false ∧ m1.isMember = true ∧
    m1.clk.upstream = true ∧ m1.rd F.ERNOS_STAT_UPSTREAM = 1 ∧ (-5 : Int).natAbs < 2 ^ 31 := by decide +kernel
theorem wit_DeviceTimeAndErnos_end : sD.dead = false ∧ sD.clk.align = some { al with passed := true, stepped := true } ∧
    sD.inLoss = false ∧ sD.clk.holdEnd = none ∧ sD.ract F.ERNOS_CTRL_ROLE = 1 ∧ oth.length < 32 ∧ sD.job? 1 = some jA ∧
    jA.fld 24 8 = 0 ∧ jA.ending = false ∧ sD.cqOpen jA.cq = false := by decide +kernel
/-- R398: one of three devices stepped by its offset, the head stepped, one failed. -/
theorem test_align_detail :
    ((ex (.arrayAlignDone oth 1000) sD).job? 1).map (fun k => (k.detail / 2 ^ 16 % 2 ^ 15, k.detail / 2 ^ 8 % 2 ^ 8, k.detail % 2 ^ 8)) =
      some (3, 2, 1) := by decide +kernel
end T17

/-! ### The auxiliary measurement unit and the loops -/
namespace T18
def g0 : State := rdy.wr F.AMU_INJ_CFG_OSR 2048
def g1 : State := ex (.amuCommit 1) g0
def gBad : State := rdy.wr F.AMU_INJ_CFG_OSR 16
def inUse (s : State) : Bool := s.host.jobs.any (fun j => j.kind = 0x51)
def gBusy : State := { g0 with host := { g0.host with jobs := [mkJob (mkDesc 0x51 1 0 [])] } }
theorem wit_AmuMeasuresAndLoopsDrive_commit : g0.dead = false ∧ (1 : Word).toNat.testBit 0 = true ∧
    g0.shadow 0x360000C 0x3600010 ≠ lastPend g0.amu.pend (g0.active 0x360000C 0x3600010) ∧ inUse g0 = false ∧
    (g0.shadow 0x360000C 0x3600010).rd F.AMU_INJ_CFG_ORDER 0 0 ≠ 3 ∧ (g0.shadow 0x360000C 0x3600010).rd F.AMU_INJ_CFG_OSR 0 0 = 2048 ∧
    (gBad.shadow 0x360000C 0x3600010).rd F.AMU_INJ_CFG_OSR 0 0 < 32 ∧ inUse gBad = false ∧ inUse gBusy = true ∧
    gBad.shadow 0x360000C 0x3600010 ≠ lastPend gBad.amu.pend (gBad.active 0x360000C 0x3600010) ∧ g1.amu.pend.isSome = true := by decide +kernel
def en : AmuEntry := { input := 1, osr := 32, order := 0, dwell := 1, gain := 0 }
def q0 : AmuSeq :=
  { jid := 1, entries := [en, { en with isrcMode := 2, dwell := 2 }], passes := 0, interval := 1000, resAddr := 0, slots := 0
    start := 2 ^ 40 + 77 }
def sq : State := rdy.onAmu (fun a => { a with seq := some q0 })
def p1 : State := ex .amuPassStart sq
def next (s : State) : State := ex (.amuOutput 1250000000 0) s
def qOf (s : State) : AmuSeq := s.amu.seq.getD q0
def p4 : State := next (next (next p1))
def p6 : State := next (next (next p4))
/-- Visit `n` of the sequence is in progress. -/
def visits (s : State) (n : Nat) : Bool :=
  !s.dead && decide (s.amu.seq = some (qOf s)) && decide ((qOf s).visit = some n) && decide (n < 16) &&
    (qOf s).entries[n]?.isSome && !(qOf s).broken && !s.flag F.AMU_STAT_XIN_HOLD && decide ((qOf s).resAddr = 0 ∧ (qOf s).passes = 0)
def settles (s : State) (n : Nat) : Nat := (((qOf s).entries[n]?).getD en).settle
theorem wit_AmuMeasuresAndLoopsDrive_pass : sq.amu.seq = some q0 ∧ q0.visit = none ∧ sq.flag F.AMU_STAT_XIN_HOLD = false ∧
    q0.passes = 0 ∧ sq.amu.slot = none := by decide +kernel
theorem wit_AmuMeasuresAndLoopsDrive_outputs : visits p1 0 = true ∧ (qOf p1).outs + 1 < settles p1 0 ∧ (qOf p1).unsettled = 0 ∧
    visits (next (next p1)) 0 = true ∧ settles (next (next p1)) 0 ≤ (qOf (next (next p1))).outs + 1 ∧ en.isrcMode ≠ 3 ∧
    en.dwell ≤ (qOf (next (next p1))).posted + 1 ∧ visits p4 1 = true := by decide +kernel
theorem wit_AmuMeasuresAndLoopsDrive_dwell : visits (next (next p4)) 1 = true ∧
    settles (next (next p4)) 1 ≤ (qOf (next (next p4))).outs + 1 ∧ (qOf (next (next p4))).posted + 1 < 2 ∧ visits p6 1 = true ∧
    settles p6 1 ≤ (qOf p6).outs + 1 ∧ 2 ≤ (qOf p6).posted + 1 := by decide +kernel
def ij : AmuInj := { jid := 1, cal := false, entry := { en with input := 2 } }
def jb : Job := { mkJob (mkDesc 0x51 1 0 []) with admitted := true, decided := true }
def hold (s : State) : State := ({ s with host := { s.host with jobs := [jb] } } : State).onAmu (fun a => { a with slot := some ij })
def p8 : State := ex .injectStart (hold p1)
theorem wit_AmuMeasuresAndLoopsDrive_inject : (hold p1).amu.slot = some ij ∧ ij.started = none ∧
    (hold p1).flag F.AMU_STAT_XIN_HOLD = false ∧ (hold p1).amu.seq = some (qOf p1) ∧ (qOf p1).visit = some 0 ∧
    (qOf p1).broken = false ∧ (hold rdy).amu.seq = none ∧ (hold rdy).amu.slot = some ij ∧ p8.dead = false ∧
    p8.amu.slot.any (fun i => i.started.isSome && !i.cal && decide (p8.job? i.jid = some jb)) = true ∧
    p8.flag F.AMU_STAT_XIN_HOLD = false ∧ p8.amu.waitCal = [] ∧ p8.amu.waitHost = none ∧ jb.fld 40 8 = 0 ∧
    jb.ending = false ∧ p8.cqOpen jb.cq = false := by decide +kernel
def le : State := rdy.wr F.LOOPk_CTRL_ENABLE 1 1
def l1 : State := ex (.loopSet 1 22000) le
def l2 : State := l1.setLoop 1 { l1.loopDrv 1 with miss := 19 }
theorem wit_AmuMeasuresAndLoopsDrive_loops : (22000 : Word).toNat % 2 ^ 15 > 20500 ∧ l1.flag F.LOOPk_CTRL_ENABLE 1 = true ∧
    20400 ≤ l1.loopUa 1 + 200 ∧ l1.loopUa 1 ≤ 20400 + 200 ∧ l2.loopUa 1 + 200 < 21000 ∧ (l2.loopDrv 1).miss = 19 ∧
    (l1.wr F.LOOPk_CTRL_WDOG_MS 5 1).rd F.LOOPk_CTRL_WDOG_MS 1 ≠ 0 ∧
    (l1.wr F.LOOPk_CTRL_WDOG_MS 5 1).flag F.LOOPk_STAT_WDOG 1 = false := by decide +kernel
/-- R423: a SET of 22,000 µA is held to 20,500 µA and shows CLAMP. -/
theorem test_loop_clamp : l1.rd F.LOOPk_SET_UA 1 = 20500 ∧ l1.flag F.LOOPk_STAT_CLAMP 1 = true := by decide +kernel
end T18

/-! ### The management core -/
namespace T19
/-- An image of version 7 with its header only (R428). -/
def img : Bytes :=
  leBytes 4 0x4B58494D ++ leBytes 4 7 ++ leBytes 4 0 ++ leBytes 2 0 ++ leBytes 2 0xFFFF ++ leBytes 2 1 ++ leBytes 2 0x9400 ++ zeros 236
def b0 : State := { State.reset with mgmt := { State.reset.mgmt with mail := [(0, 0xAB#8)] } }
def b2 : State := ex (.bootImageArrival 1 0 img) b0
def r0 : State :=
  { (rdy.setf F.GLOBAL_STATUS_IMAGE).setf F.GLOBAL_BOOT_CTRL_SERVE with mgmt := { rdy.mgmt with slotA := img } }
def sOffer : State :=
  T04.add (rdy.wr F.HBMC_STAT_OFFLINE 0) (mkDesc 0x70 9 0 [(12,4,10),(16,8,0x10000),(24,4,256)])
theorem wit_BootOffersAndHandovers_offer : Decides sOffer (T04.L sOffer) 0x70 ∧
    granted (sOffer.judge (T04.L sOffer) (sOffer.offerPlan (some img) (T04.L sOffer))) = true ∧ sOffer.mgmt.offers = [] := by
  unfold Decides; decide +kernel
theorem wit_BootOffersAndHandovers_boot : b0.dead = false ∧ b0.flag F.GLOBAL_STATUS_IMAGE = false ∧ b0.mgmt.mailClosed = false ∧
    (b0.rd F.GLOBAL_BOOT_CTRL_SRC_MASK).testBit 0 = true ∧ (b0.rd F.GLOBAL_BOOT_CTRL_SRC_MASK).testBit 1 = true ∧
    (0x80000100 : Word).toNat.testBit 31 = true ∧ r0.dead = false ∧ r0.flag F.GLOBAL_STATUS_IMAGE = true ∧
    r0.flag F.GLOBAL_BOOT_CTRL_SERVE = true ∧ (b0.setf F.MGMT_STAT_HANDOVER).flag F.GLOBAL_STATUS_IMAGE = false ∧ b2.mgmt.verifying = [(1, img)] ∧
    b2.mgmt.lostCore = false := by decide +kernel
def of1 : Offer := { src := 1, jid := 0, version := 7, digest := imgComputed img, size := 256, forward := true }
def wo (o : Offer) (s : State) : State := { s with mgmt := { s.mgmt with offers := [o] } }
def f0 : State := r0.wr F.HBMC_STAT_OFFLINE 0
def locked : State := f0.setf F.GLOBAL_OWNER_LOCK_LOCK
def of0 : Offer := { of1 with src := 0, jid := 1 }
def q3 : State :=
  { wo of0 f0 with host := { f0.host with jobs := [{ mkJob (mkDesc 0x70 1 0 []) with anchor := some 5 }] } }
theorem wit_BootOffersAndHandovers_neighbour : f0.offerRefused img = false ∧ f0.openOffer = none ∧ locked.offerRefused img = true ∧
    (wo of1 f0).openOffer = some of1 ∧ of1.stage = .download ∧ imgComputed img = of1.digest ∧
    imgComputed (zeros 256) ≠ of1.digest ∧ of1.joined = [] := by decide +kernel
theorem wit_BootOffersAndHandovers_reports : (wo of0 f0).mgmt.offers.find? (·.forward) = some of0 ∧ of0.src = 0 ∧
    of0.stage ≠ .reporting ∧ (wo of1 f0).mgmt.offers.find? (·.forward) = some of1 ∧ of1.src ≠ 0 ∧ of1.src ≠ 1 + 1 ∧
    q3.mgmt.offers.find? (fun o => o.forward && o.src = 0 && !o.allIn) = some of0 ∧
    (q3.job? 1).any (fun j => decide (j.anchor = some 5)) = true := by decide +kernel
def ofC : Offer := { of1 with image := img, stage := .checked }
def s1 : State := wo ofC f0
def h1 : State := ex .handover s1
theorem wit_BootOffersAndHandovers_handover : s1.dead = false ∧ s1.openOffer = some ofC ∧ ofC.stage = .checked ∧
    s1.heldOffer = none ∧ s1.ledger.burning = none ∧ s1.offerRefusedCore ofC.image = false := by decide +kernel
def ofH : Offer := { ofC with stage := .handover }
def frozen : State := { wo ofH f0 with
  host := { f0.host with frozen := true }, mgmt := { (wo ofH f0).mgmt with recY := some { layout := 1, writer := 1 } } }
def ofD : Offer := { ofH with due := some 2 }
def frozenD : State := { wo ofD f0 with host := { f0.host with frozen := true } }
def a1 : State := ex (.admissionResume false false) { frozen with phys := frozen.phys + 100000000 }
theorem wit_BootOffersAndHandovers_resume : frozen.dead = false ∧ frozen.host.frozen = true ∧ frozen.mgmt.lostCore = false ∧
    frozen.heldOffer = some ofH ∧ ofH.due = none ∧ frozen.power.linkDue = false ∧ ofH.struck = false ∧ frozen.mgmt.recY ≠ none ∧
    (wo ofH f0).heldOffer = some ofH ∧ (wo ofH f0).mgmt.recY = none ∧ (wo ofH f0).mgmt.verifying = [] ∧ (wo ofH f0).dead = false ∧
    frozen.mgmt.verifying = [] ∧ frozenD.heldOffer = some ofD ∧ ofD.due = some 2 ∧ ofD.src ≠ 0 ∧ ofD.joined = [] ∧
    a1.dead = false ∧ a1.probed.any (fun o => decide (o.src = 1 ∧ o.joined = [])) = true := by decide +kernel
theorem wit_BootOffersAndHandovers_words : rdy.flag F.HOST_CTRL_ENABLE = false ∧ rdy.host.jobs = [] ∧
    (0x1000100 : Word).toNat % 65536 = 0x0100 ∧ rdy.activeImage = [] ∧ (0x200 : Word).toNat % 65536 ≠ 0x0100 ∧
    (1 : Word).toNat.testBit 0 = true ∧ (2 : Word).toNat.testBit 0 = false := by decide +kernel
/-- R449: an owner lock does not clear. -/
theorem test_owner_lock_stays : (ex (.ownerLock 0) (ex (.ownerLock 1) rdy)).flag F.GLOBAL_OWNER_LOCK_LOCK = true := by
  decide +kernel
end T19

/-! ### The ledger, power and start-up -/
namespace T20
def se : State := { rdy with ledger := { rdy.ledger with session := true, nextSecond := 2 ^ 40 + 100 } }
def se2 : State := { se with ledger := { se.ledger with fine := [(3, 921599)], queue := [2] } }
def hot : State := se2.wr F.THERM_TJ_T (75 * 64)
def cool : State := se2.wr F.THERM_TJ_T (40 * 64)
def l3 : State := ex .ledgerBurnStart cool
theorem wit_LedgerPowerAndStartUp_ledger : se.dead = false ∧ se.ledger.session = true ∧ kget se.ledger.fine 3 0 + 1 < 921600 ∧
    kget se.ledger.fine 8 0 + 1 < 921600 ∧ { se with host := { se.host with frozen := true } }.ledgerHeld = true ∧
    cool.ledgerHeld = false ∧ cool.ledger.burning = none ∧ cool.ledger.queue = [2] ∧ (cool.ledgerNext 2).isSome = true ∧
    l3.ledger.burning.isSome = true := by decide +kernel
def tm : List Int := (List.range 36).map (fun i => if i = 7 then 6500 else 3000)
theorem wit_LedgerPowerAndStartUp_heat : (hottest 0 ((List.range 36).map (fun i => tm.getD i 0))).2 = 6500 ∧
    (hottest 0 ((List.range 36).map (fun i => ([] : List Int).getD i 0))).2 < 6400 ∧
    rdy.flag F.POWER_STAT_THERM_WARN = false ∧ rdy.flag F.POWER_STAT_THERM_EMERG = false := by decide +kernel
def up : State := { rdy with host := { rdy.host with started := true } }
def w1 : State := ex (.supplyWarning 0 6553600) up
def volts (r : Fin 11) (mv : Nat) : State := { up with power := { up.power with volts := kset up.power.volts r (some mv) none } }
theorem wit_LedgerPowerAndStartUp_supply : up.dead = false ∧ up.power.supplyHold = false ∧ (volts 1 770).railOff 1 5 true = false ∧
    w1.dead = false ∧ w1.power.supplyHold = true ∧ w1.railsOut = false ∧ w1.flag F.POWER_STAT_THERM_EMERG = false ∧
    w1.power.starting = false ∧ w1.host.started = true ∧ (∀ c ∈ w1.hbm.pcs, c.1 < 64) := by decide +kernel
def g0 : State :=
  { rdy.wr F.HBMC_STAT_TRAINED 3 with power := { rdy.power with starting := true, poolDone := true, startAt := 2 ^ 40 } }
def g1 : State := ex .warmupEnd g0
def g2 : State := { g1 with power := { g1.power with calDone := true }, ledger := { g1.ledger with session := true } }
theorem wit_LedgerPowerAndStartUp_startup : g0.dead = false ∧ g0.startupGoes = true ∧ g0.power.warmDone = false ∧
    g0.power.poolDone = true ∧ g0.rd F.HBMC_STAT_TRAINED = 3 ∧ g2.startupGoes = true ∧ g2.power.calDone = true ∧
    g2.dead = false := by decide +kernel
/-- R461, R462: sensor 7 at 101.56 °C is the hottest, and starts the thermal warning. -/
theorem test_thermal_warning : (ex (.thermalSample tm 50 60) rdy).rd F.THERM_TJ_SENSOR = 7 ∧
    (ex (.thermalSample tm 50 60) rdy).flag F.POWER_STAT_THERM_WARN = true := by decide +kernel
/-- R470: READY ends start-up. -/
theorem test_ready : (ex .readySet g2).flag F.GLOBAL_STATUS_READY = true := by decide +kernel
end T20

end Sys2Proof.Tests
end

section
/-! PROOFS. The statements of the scope family: reset, access types, bad accesses, register pairs, register writes, and the
array's device time. -/
namespace Sys2Proof.Machine

/-! ### Access types, bit by bit (R13) -/

/-- The mask of a field holds exactly the field's bits. -/
theorem FieldDef.getElem_mask {f : FieldDef} {i : Nat} (hf : f.lo ≤ f.hi) (hi : i < 32) :
    f.mask[i] = decide (f.lo ≤ i ∧ i ≤ f.hi) := by
  have hw : i - f.lo < f.hi + 1 - f.lo ↔ i ≤ f.hi := by omega
  rw [← BitVec.getLsbD_eq_getElem hi, FieldDef.mask, BitVec.getLsbD_ofNat, Nat.testBit_mul_two_pow,
    Nat.testBit_two_pow_sub_one]
  by_cases hl : f.lo ≤ i <;> simp [hi, hl, hw]

/-- A written word covers a field's mask where it holds 1 in every bit of the field. -/
theorem FieldDef.and_mask_eq_mask {f : FieldDef} (hf : f.lo ≤ f.hi) (new : Word) :
    new &&& f.mask = f.mask ↔ (List.range 32).all (fun k => decide (k < f.lo ∨ f.hi < k) || new.getLsbD k) = true := by
  have hbit : ∀ k < 32, ((new &&& f.mask).getLsbD k = f.mask.getLsbD k ↔
      (decide (k < f.lo ∨ f.hi < k) || new.getLsbD k) = true) := by
    intro k hk
    have hm : f.mask.getLsbD k = _ := (BitVec.getLsbD_eq_getElem hk).trans (f.getElem_mask hf hk)
    rw [BitVec.getLsbD_and, hm]
    by_cases hin : f.lo ≤ k ∧ k ≤ f.hi
    · have hout : ¬(k < f.lo ∨ f.hi < k) := by omega
      simp [hin, hout]
    · have hout : k < f.lo ∨ f.hi < k := by omega
      simp [hin, hout]
  simp only [List.all_eq_true, List.mem_range]
  constructor
  · intro h k hk
    exact (hbit k hk).1 (by rw [h])
  · intro h
    exact BitVec.eq_of_getLsbD_eq fun k hk => (hbit k hk).2 (h k hk)

/-- Outside the field a write changes nothing, whatever the access type. -/
theorem FieldDef.getLsbD_write_out {f : FieldDef} {i : Nat} (hf : f.lo ≤ f.hi) (hi : i < 32)
    (hout : i < f.lo ∨ f.hi < i) (old new : Word) : (f.write old new).getLsbD i = old.getLsbD i := by
  have hm : f.mask[i] = false := by
    rw [f.getElem_mask hf hi]
    exact decide_eq_false (by omega)
  cases hacc : f.acc with
  | w1c =>
    simp only [FieldDef.write, hacc]
    split
    · simp [hm, hi]
    · split <;> simp [hm, hi]
  | _ => simp [FieldDef.write, hacc, hm, hi]

/-- Settles O13: outside the field by `FieldDef.getLsbD_write_out`; inside it the mask's bit is 1, and each access type
combines the old and the written bit. -/
theorem accessTypesActBitwise : Obligations.AccessTypesActBitwise := by
  intro f old new i hf _ hi
  split
  · next hout => exact FieldDef.getLsbD_write_out hf hi hout old new
  · next hin =>
    have hm : f.mask[i] = true := by
      rw [f.getElem_mask hf hi]
      exact decide_eq_true (by omega)
    cases hacc : f.acc with
    | w1c =>
      simp only [FieldDef.write, hacc, f.and_mask_eq_mask hf]
      split
      · simp [hm, hi]
      · split <;> simp [hm, hi]
    | _ => simp [FieldDef.write, hacc, hm, hi]

/-! ### Reset and bad accesses -/

/-- Settles O3: every clause is read off `State.reset`, whose register file and latches list nothing. -/
theorem resetLeavesTheResetValues : Obligations.ResetLeavesTheResetValues :=
  ⟨fun _ _ _ => rfl, fun _ _ => ⟨rfl, rfl⟩, rfl, rfl, rfl, rfl, rfl, rfl, rfl, rfl⟩

/-- A field write keeps every word but that of its register. -/
theorem State.wr_keepsWords (s : State) (f : Fld) (v i j : Nat) : KeepsWords s (s.wr f v i j) [f.addr i j] :=
  fun _ d ha => State.word_wr (by simpa using ha) s v d

/-- A bad write is counted, and nothing else. -/
theorem exec_badWrite {s : State} {a n : Nat} (hs : s.dead = false) (hbad : goodAccess a n = false) :
    exec (.badWidthAccess true a n) s = .next (s.count F.HOST_BADACC_CNT_COUNT) := by
  change live s (fun s => if goodAccess a n then s else s.count F.HOST_BADACC_CNT_COUNT) = _
  rw [live_alive hs, hbad]
  rfl

/-- A bad read is counted and answered with all ones. -/
theorem exec_badRead {s : State} {a n : Nat} (hs : s.dead = false) (hbad : goodAccess a n = false) :
    exec (.badWidthAccess false a n) s =
      .next ((s.count F.HOST_BADACC_CNT_COUNT).emit (.readData a 0xFFFFFFFF)) := by
  change liveRead s a (fun s =>
    if goodAccess a n then s else (s.count F.HOST_BADACC_CNT_COUNT).emit (.readData a 0xFFFFFFFF)) = _
  rw [liveRead_alive hs, hbad]
  rfl

/-- Settles O10: both forms count in HOST_BADACC_CNT, whose word is the only one written. -/
theorem badAccessIsCountedAndIgnored : Obligations.BadAccessIsCountedAndIgnored := by
  intro s a n hs hbad
  have hcount : (s.count F.HOST_BADACC_CNT_COUNT).rd F.HOST_BADACC_CNT_COUNT = _ := State.rd_count rfl s 1 0 0
  have hkeep : KeepsWords s (s.count F.HOST_BADACC_CNT_COUNT) [0x100014] := s.wr_keepsWords F.HOST_BADACC_CNT_COUNT _ 0 0
  exact ⟨⟨_, exec_badWrite hs hbad, rfl, hkeep, hcount⟩, _, exec_badRead hs hbad, rfl, hkeep, rfl, hcount⟩

/-! ### Outcomes -/

/-- A running device's outcome is the meaning's state, where that keeps the queue. -/
theorem live_eq {s t : State} (hs : s.dead = false) (f : State → State) (hf : f s = t) (hp : t.pending = s.pending) :
    live s f = .next t := by
  rw [live_alive hs, hf, ← hp]

theorem liveRead_eq {s t : State} (hs : s.dead = false) {a : Nat} (f : State → State) (hf : f s = t)
    (hp : t.pending = s.pending) : liveRead s a f = .next t := by
  rw [liveRead_alive hs, hf, ← hp]

/-! ### Where a row's registers lie -/

/-- Quotient and remainder by a stride put an offset together again, a stride of 0 giving quotient 0. -/
theorem stride_split (x n : Nat) : (if n = 0 then 0 else x / n) * n + (if n = 0 then x else x % n) = x := by
  split
  · simp
  · exact Nat.div_add_mod' x n

/-- A row that covers an address places it by its two indices. -/
theorem RegDef.hit_addr {r : RegDef} {a j : Nat} (h : r.hit a = some j) :
    ∃ i < r.n1, j < r.n2 ∧ a = r.base + i * r.s1 + j * r.s2 := by
  unfold RegDef.hit at h
  obtain ⟨hb, h⟩ := Option.ite_none_left_eq_some.1 h
  obtain ⟨⟨hi, hj, hz⟩, hjj⟩ := Option.ite_none_right_eq_some.1 h
  obtain rfl := Option.some.inj hjj
  refine ⟨_, hi, hj, ?_⟩
  have h1 := stride_split (a - r.base) r.s1
  have h2 := stride_split (if r.s1 = 0 then a - r.base else (a - r.base) % r.s1) r.s2
  omega

/-- The row that `findReg` answers is one of the list, and covers the address. -/
theorem findReg_some {rs : List RegDef} {a : Nat} {x : RegDef × Nat} (h : findReg rs a = some x) :
    x.1 ∈ rs ∧ x.1.hit a = some x.2 := by
  induction rs with
  | nil => simp [findReg] at h
  | cons r rs ih =>
    unfold findReg at h
    split at h
    · next j hj =>
      obtain rfl := Option.some.inj h
      exact ⟨by simp, hj⟩
    · exact ⟨List.mem_cons_of_mem r (ih h).1, (ih h).2⟩

/-- The addresses of a row's registers. -/
def RegDef.addrs (r : RegDef) : List Nat :=
  (List.range r.n1).flatMap fun i => (List.range r.n2).map fun j => r.base + i * r.s1 + j * r.s2

/-- Every LO register of a pair is one of the finitely many that the rows of `pairRows` place. -/
theorem isPairLo_mem {a : Nat} (h : isPairLo a = true) : a ∈ pairRows.flatMap RegDef.addrs := by
  obtain ⟨x, hx⟩ := Option.isSome_iff_exists.1 h
  obtain ⟨hrow, hhit⟩ := findReg_some hx
  obtain ⟨i, hi, hj, ha⟩ := RegDef.hit_addr hhit
  refine List.mem_flatMap.2 ⟨x.1, hrow, List.mem_flatMap.2 ⟨i, List.mem_range.2 hi, ?_⟩⟩
  exact List.mem_map.2 ⟨x.2, List.mem_range.2 hj, ha.symm⟩

/-- What the table of pairs shows of every pair: both words lie below BAR2, HI is not itself a LO nor LO a HI, and a read of
either has no side effect of its own. -/
structure PairPlace (a : Nat) : Prop where
  below : a + 4 < bar2
  notLo : isPairLo (a + 4) = false
  notHi : isPairHi a = false
  plainLo : ReadsPlain a
  plainHi : ReadsPlain (a + 4)

/-- The finite check behind `pairPlace`, over the table's addresses. -/
theorem pairRows_apart : ∀ a ∈ pairRows.flatMap RegDef.addrs,
    a + 4 < bar2 ∧ isPairLo (a + 4) = false ∧ isPairHi a = false ∧
    ∀ b ∈ [a, a + 4],
      b ≠ 0x3400030 ∧ (∀ n : Fin 17, hdrAddr n.val ≠ b) ∧ ¬(0x1880000 ≤ b ∧ b < 0x1880200) := by decide +kernel

theorem pairPlace {a : Nat} (h : isPairLo a = true) : PairPlace a := by
  obtain ⟨hb, hlo, hhi, hplain⟩ := pairRows_apart a (isPairLo_mem h)
  have plain : ∀ b ∈ [a, a + 4], ReadsPlain b := fun b hb' =>
    have ⟨hclk, hhdr, hres⟩ := hplain b hb'
    ⟨hclk, hhdr, fun hr => hres ⟨hr.1, hr.2.1⟩⟩
  exact ⟨hb, hlo, hhi, plain _ (by simp), plain _ (by simp)⟩

theorem isPairHi_add_four (a : Nat) : isPairHi (a + 4) = isPairLo a := by simp [isPairHi]

theorem isMail_below {a : Nat} (h : a < bar2) : isMail a = false := by
  refine decide_eq_false ?_
  omega

/-! ### Reads of a pair (R12) -/

/-- A read without a side effect of its own is a plain read. -/
theorem State.busRead_plain {a : Nat} (h : ReadsPlain a) (s : State) : s.busRead a = s.plainRead a := by
  obtain ⟨hclk, hhdr, hres⟩ := h
  have hfind : (List.finRange 17).find? (fun n : Fin 17 => decide (hdrAddr n.val = a)) = none :=
    List.find?_eq_none.2 fun n _ => by simpa using hhdr n
  have h8 : ¬(0x1880000 ≤ a ∧ a < 0x1880200 ∧ a % 16 = 8) := fun hr => hres ⟨hr.1, hr.2.1, .inl hr.2.2⟩
  have h12 : ¬(0x1880000 ≤ a ∧ a < 0x1880200 ∧ a % 16 = 12) := fun hr => hres ⟨hr.1, hr.2.1, .inr hr.2.2⟩
  simp only [State.busRead, if_neg hclk, hfind, if_neg h8, if_neg h12]

/-- A read of LO answers the low word, and latches the high word of the same value. -/
theorem State.plainRead_lo {a : Nat} (h : isPairLo a = true) (s : State) :
    s.plainRead a = { s with out := s.out ++ [.readData a (s.regNow a)], rlatch := kset s.rlatch a (s.regNow (a + 4)) 0 } := by
  have hp := pairPlace h
  have hbelow := hp.below
  simp [State.plainRead, State.readReg, State.emit, h, hp.notHi, isMail_below (show a < bar2 by omega)]

/-- A read of HI answers the read latch. -/
theorem State.plainRead_hi {a : Nat} (h : isPairLo a = true) (s : State) :
    s.plainRead (a + 4) = { s with out := s.out ++ [.readData (a + 4) (kget s.rlatch a 0)] } := by
  have hp := pairPlace h
  simp [State.plainRead, State.readReg, State.emit, isPairHi_add_four, h, hp.notLo, isMail_below hp.below]

/-- Reads of a pair's two words. -/
theorem exec_pairRead {s : State} (hs : s.dead = false) {a : Nat} (h : isPairLo a = true) :
    exec (.pairLoRead a) s =
      .next { s with out := s.out ++ [.readData a (s.regNow a)], rlatch := kset s.rlatch a (s.regNow (a + 4)) 0 } ∧
    exec (.pairLoRead (a + 4)) s = .next { s with out := s.out ++ [.readData (a + 4) (kget s.rlatch a 0)] } := by
  have hp := pairPlace h
  constructor
  · exact liveRead_eq hs (·.busRead a) ((State.busRead_plain hp.plainLo s).trans (State.plainRead_lo h s)) rfl
  · exact liveRead_eq hs (·.busRead (a + 4)) ((State.busRead_plain hp.plainHi s).trans (State.plainRead_hi h s)) rfl

/-! ### Writes by the access types of the fields -/

/-- The registers of HOST that are held in some states, and otherwise follow their fields (R74). -/
def heldRegs : List Nat := [0x100020, 0x100024, 0x1000A0, 0x1000A4, 0x1000A8]

/-- A write at `a`, where it is not held, does what the register's fields say and no more. -/
def FieldsOnly (a : Nat) : Prop := SpecialWrite a = false ∨ a ∈ heldRegs

/-- What it says of an address that its write is not special: it is none of the special registers, no MSI-X word, none of
Prism's enable, trim, commit and calibration registers, and no tile's mailbox register. -/
structure PlainWrite (a : Nat) : Prop where
  ne : ∀ b, SpecialWrite b = true → a ≠ b
  msix : isMsix a = false
  prism : 0x400000 ≤ a → a < 0x440000 → (a - 0x400000) % 0x10000 ∉ [0x0, 0x4, 0x8, 0x28]
  mail : ¬(0x2000000 ≤ a ∧ a < 0x2100000 ∧ a % 0x1000 = 0x10)

theorem plainWrite_of {a : Nat} (h : SpecialWrite a = false) : PlainWrite a := by
  have hne : ∀ b, SpecialWrite b = true → a ≠ b := by
    rintro b hb rfl
    simp [h] at hb
  simp only [SpecialWrite, Bool.or_eq_false_iff, Bool.and_eq_false_imp, decide_eq_true_eq] at h
  obtain ⟨⟨⟨-, hmsix⟩, hprism⟩, hmail⟩ := h
  refine ⟨hne, hmsix, fun hlo hhi => by simpa using hprism ⟨hlo, hhi⟩, fun ⟨hlo, hhi, hm⟩ => ?_⟩
  simp [hm, hlo, hhi] at hmail

/-- A write that is not special is held in no state. -/
theorem State.writeHeld_plain {a : Nat} (h : SpecialWrite a = false) (s : State) : s.writeHeld a = false := by
  have hp := plainWrite_of h
  simp (disch := decide) only [State.writeHeld, hp.ne, decide_false, Bool.or_self, Bool.false_eq_true, if_false]
  split
  · next hr =>
    have hout := hp.prism hr.1 hr.2
    simp only [List.mem_cons, not_or] at hout
    simp [hout]
  · rfl

theorem State.writeHost_plain {a : Nat} (h : SpecialWrite a = false) (s : State) (v : Word) : s.writeHost a v = none := by
  have hp := plainWrite_of h
  simp (disch := decide) [State.writeHost, hp.ne, hp.msix]

theorem State.writeCommit_plain {a : Nat} (h : SpecialWrite a = false) (s : State) (v : Word) : s.writeCommit a v = none := by
  have hp := plainWrite_of h
  have hfind : (List.finRange 4).find? (fun n : Fin 4 => decide (a = 0x400008 + 0x10000 * n.val)) = none := by
    refine List.find?_eq_none.2 fun n _ hn => ?_
    have ha : a = 0x400008 + 0x10000 * n.val := of_decide_eq_true hn
    refine hp.prism (by omega) (by omega) ?_
    rw [show (a - 0x400000) % 0x10000 = 0x8 by omega]
    decide
  simp (disch := decide) [State.writeCommit, hfind, hp.ne]

theorem State.writeOther_plain {a : Nat} (h : SpecialWrite a = false) (s : State) (v : Word) : s.writeOther a v = none := by
  have hp := plainWrite_of h
  have hcal : ¬(0x400000 ≤ a ∧ a < 0x440000 ∧ a % 0x10000 = 0x28) := by
    intro ⟨hlo, hhi, hm⟩
    refine hp.prism hlo hhi ?_
    rw [show (a - 0x400000) % 0x10000 = 0x28 by omega]
    decide
  simp (disch := decide) only [State.writeOther, hcal, hp.mail, hp.ne, if_false]

/-- No effect beyond the fields stands at such a register. -/
theorem State.no_command {a : Nat} (h : FieldsOnly a) (s : State) (v : Word) :
    s.writeHost a v = none ∧ s.writeCommit a v = none ∧ s.writeOther a v = none := by
  rcases h with h | h
  · exact ⟨s.writeHost_plain h v, s.writeCommit_plain h v, s.writeOther_plain h v⟩
  · simp only [heldRegs, List.mem_cons, List.not_mem_nil, or_false] at h
    rcases h with rfl | rfl | rfl | rfl | rfl <;> exact ⟨rfl, rfl, rfl⟩

/-- Such a register is none of those that a command of its own writes. -/
theorem FieldsOnly.ne {a b : Nat} (h : FieldsOnly a) (hb : SpecialWrite b = true) (hh : b ∉ heldRegs) : a ≠ b := by
  rintro rfl
  exact h.elim (fun h => by simp [h] at hb) hh

/-- Where it is not held, a write of such a register follows the register's fields. -/
theorem State.writeOne_fields {a : Nat} {s : State} (h : FieldsOnly a) (hh : s.writeHeld a = false) (v : Word) :
    s.writeOne a v = s.writeFields a v := by
  obtain ⟨hhost, hcommit, hother⟩ := s.no_command h v
  simp [State.writeOne, hh, hhost, hcommit, hother]

theorem State.writeOne_held {a : Nat} {s : State} (hh : s.writeHeld a = true) (v : Word) : s.writeOne a v = s := by
  simp [State.writeOne, hh]

/-- A command of GLOBAL and HOST at `a` is the whole effect of a write there. -/
theorem State.writeOne_host {s t : State} {a : Nat} {v : Word} (hh : s.writeHeld a = false) (h : s.writeHost a v = some t) :
    s.writeOne a v = t := by simp [State.writeOne, hh, h]

/-- The state with the register of row `r`, inner index `j`, at `a` written by its fields' access types. -/
def State.withFields (s : State) (r : RegDef) (j a : Nat) (v : Word) : State :=
  let d : Word := BitVec.ofNat 32 (r.rsts.getD j 0)
  { s with regs := kset s.regs a (r.write (kget s.regs a d) v) d }

theorem State.writeFields_some {a j : Nat} {r : RegDef} (h : FieldsOnly a) (hr : findReg regTable a = some (r, j))
    (s : State) (v : Word) : s.writeFields a v = s.withFields r j a v := by
  have h1 : a ≠ 0x410000 := h.ne (by decide) (by decide)
  have h3 : a ≠ 0x430000 := h.ne (by decide) (by decide)
  simp [State.writeFields, State.withFields, State.word, hr, h1, h3]

theorem State.writeFields_none {a : Nat} (hr : findReg regTable a = none) (s : State) (v : Word) : s.writeFields a v = s := by
  simp [State.writeFields, hr]

/-- The word written, and the words kept. -/
theorem State.withFields_word (s : State) (r : RegDef) (j a : Nat) (v : Word) :
    let d : Word := BitVec.ofNat 32 (r.rsts.getD j 0)
    kget (s.withFields r j a v).regs a d = r.write (kget s.regs a d) v := kget_kset_same ..

theorem State.withFields_word_ne (s : State) (r : RegDef) (j : Nat) {a b : Nat} (h : b ≠ a) (v d : Word) :
    kget (s.withFields r j a v).regs b d = kget s.regs b d := kget_kset_ne _ _ _ _ h

theorem State.withFields_rd (s : State) (r : RegDef) (j : Nat) (f : Fld) {a : Nat} (h : f.addr 0 0 ≠ a) (v : Word) :
    (s.withFields r j a v).rd f = s.rd f := by
  simp only [State.rd, Regs.rd, State.withFields_word_ne _ _ _ h]

/-! ### Writes of a pair (R12) -/

theorem exec_pairLoWrite {s : State} (hs : s.dead = false) {a : Nat} (h : isPairLo a = true) (lo : Word) :
    exec (.pairLoWrite a lo) s = .next (s.latchLo a lo) := live_eq hs _ (if_pos h) rfl

theorem exec_pairHiWrite {s t : State} (hs : s.dead = false) {a : Nat} (h : isPairLo a = true) {hi : Word}
    (ht : s.commitPair a hi = t) (hp : t.pending = s.pending) : exec (.pairHiWrite (a + 4) hi) s = .next t := by
  refine live_eq hs (fun s => if isPairHi (a + 4) then s.commitPair (a + 4 - 4) hi else s) ?_ hp
  rw [if_pos ((isPairHi_add_four a).trans h), Nat.add_sub_cancel, ht]

/-- A pair whose words have no effect beyond their fields, and that the enables of HOST_CTRL do not hold in `s`. -/
structure PairFree (s : State) (a : Nat) : Prop where
  lo : FieldsOnly a
  hi : FieldsOnly (a + 4)
  free : ∀ t : State, t.rd F.HOST_CTRL_ENABLE = s.rd F.HOST_CTRL_ENABLE →
    t.rd F.HOST_CTRL_EVQ_EN = s.rd F.HOST_CTRL_EVQ_EN → t.writeHeld a = false ∧ t.writeHeld (a + 4) = false

theorem pairFree_of {s : State} {a : Nat} (h : SpecialWrite a = false ∧ SpecialWrite (a + 4) = false ∨
    (a = 0x100020 ∧ s.rd F.HOST_CTRL_ENABLE = 0 ∧ s.rd F.HOST_CTRL_EVQ_EN = 0) ∨
    (a = 0x1000A0 ∧ s.rd F.HOST_CTRL_EVQ_EN = 0)) : PairFree s a := by
  rcases h with ⟨hlo, hhi⟩ | ⟨rfl, hen, hev⟩ | ⟨rfl, hev⟩
  · exact ⟨.inl hlo, .inl hhi, fun t _ _ => ⟨t.writeHeld_plain hlo, t.writeHeld_plain hhi⟩⟩
  · refine ⟨.inr (by decide), .inr (by decide), fun t h1 h2 => ?_⟩
    have : (t.flag F.HOST_CTRL_ENABLE || t.flag F.HOST_CTRL_EVQ_EN) = false := by simp [State.flag, h1, h2, hen, hev]
    exact ⟨this, this⟩
  · refine ⟨.inr (by decide), .inr (by decide), fun t _ h2 => ?_⟩
    have : t.flag F.HOST_CTRL_EVQ_EN = false := by simp [State.flag, h2, hev]
    exact ⟨this, this⟩

/-- HI and the latched LO commit together, each by its fields' access types. -/
theorem PairFree.commitPair {s : State} {a i j : Nat} {r q : RegDef} (h : PairFree s a)
    (hr : findReg regTable a = some (r, i)) (hq : findReg regTable (a + 4) = some (q, j)) (hi : Word) :
    s.commitPair a hi = (s.withFields r i a (kget s.wlatch a 0)).withFields q j (a + 4) hi := by
  have hctrl : 0x100000 ≠ a := (h.lo.ne (by decide) (by decide)).symm
  have hheld := (h.free (s.withFields r i a (kget s.wlatch a 0)) (s.withFields_rd r i F.HOST_CTRL_ENABLE hctrl _)
    (s.withFields_rd r i F.HOST_CTRL_EVQ_EN hctrl _)).2
  rw [State.commitPair, State.writeOne_fields h.lo (h.free s rfl rfl).1, State.writeFields_some h.lo hr,
    State.writeOne_fields h.hi hheld, State.writeFields_some h.hi hq]

/-- The base of a ring stays while the ring is enabled (R74). -/
theorem State.writeSqBase_enabled {s : State} (h : (s.sq (s.rd F.HOST_SQ_SEL_RING)).enable = true) (half : Bool) (v : Word) :
    s.writeSqBase half v = s := if_pos h

theorem State.writeSqBase_disabled {s : State} {n : Nat} (hsel : s.rd F.HOST_SQ_SEL_RING = n)
    (h : (s.sq n).enable = false) (half : Bool) (v : Word) :
    s.writeSqBase half v = s.setSq n { s.sq n with base := halfBase (s.sq n).base 64 half v } := by
  subst hsel
  exact if_neg (by rw [h]; exact Bool.false_ne_true)

theorem State.writeOne_sqBaseLo (s : State) (v : Word) : s.writeOne 0x100104 v = s.writeSqBase false v :=
  State.writeOne_host rfl rfl

theorem State.writeOne_sqBaseHi (s : State) (v : Word) : s.writeOne 0x100108 v = s.writeSqBase true v :=
  State.writeOne_host rfl rfl

theorem State.writeCqBase_enabled {s : State} (h : (s.cq (s.rd F.HOST_CQ_SEL_RING)).enable = true) (half : Bool) (v : Word) :
    s.writeCqBase half v = s := if_pos h

theorem State.writeCqBase_disabled {s : State} {m : Nat} (hsel : s.rd F.HOST_CQ_SEL_RING = m)
    (h : (s.cq m).enable = false) (half : Bool) (v : Word) :
    s.writeCqBase half v = s.setCq m { s.cq m with base := halfBase (s.cq m).base 32 half v } := by
  subst hsel
  exact if_neg (by rw [h]; exact Bool.false_ne_true)

theorem State.writeOne_cqBaseLo (s : State) (v : Word) : s.writeOne 0x100144 v = s.writeCqBase false v :=
  State.writeOne_host rfl rfl

theorem State.writeOne_cqBaseHi (s : State) (v : Word) : s.writeOne 0x100148 v = s.writeCqBase true v :=
  State.writeOne_host rfl rfl

theorem State.commitPair_heldWords {s : State} (a : Nat) (hlo : s.writeHeld a = true)
    (hhi : s.writeHeld (a + 4) = true) (hi : Word) : s.commitPair a hi = s := by
  rw [State.commitPair, State.writeOne_held hlo, State.writeOne_held hhi]

/-- A held pair changes nothing (R74). -/
theorem State.commitPair_held {s : State} {a : Nat}
    (h : (a = 0x100020 ∧ (s.rd F.HOST_CTRL_ENABLE = 1 ∨ s.rd F.HOST_CTRL_EVQ_EN = 1)) ∨
      (a = 0x1000A0 ∧ s.rd F.HOST_CTRL_EVQ_EN = 1) ∨
      (a = 0x100104 ∧ (s.sq (s.rd F.HOST_SQ_SEL_RING)).enable = true) ∨
      (a = 0x100144 ∧ (s.cq (s.rd F.HOST_CQ_SEL_RING)).enable = true)) (hi : Word) : s.commitPair a hi = s := by
  rcases h with ⟨rfl, hen⟩ | ⟨rfl, hev⟩ | ⟨rfl, hsq⟩ | ⟨rfl, hcq⟩
  · have hh : (s.flag F.HOST_CTRL_ENABLE || s.flag F.HOST_CTRL_EVQ_EN) = true := by
      rcases hen with h | h <;> simp [State.flag, h]
    exact State.commitPair_heldWords 0x100020 hh hh hi
  · have hh : s.flag F.HOST_CTRL_EVQ_EN = true := by simp [State.flag, hev]
    exact State.commitPair_heldWords 0x1000A0 hh hh hi
  · rw [State.commitPair, State.writeOne_sqBaseLo, State.writeSqBase_enabled hsq, State.writeOne_sqBaseHi,
      State.writeSqBase_enabled hsq]
  · rw [State.commitPair, State.writeOne_cqBaseLo, State.writeCqBase_enabled hcq, State.writeOne_cqBaseHi,
      State.writeCqBase_enabled hcq]

/-! ### The ring windows (R74) -/

/-- The two halves of a base, written one after the other, make the 64-bit value with its low bits cleared. -/
theorem halfBase_pair (base align : Nat) (lo hi : Word) :
    halfBase (halfBase base align false lo) align true hi = hi.toNat * 2 ^ 32 + lo.toNat / align * align := by
  have hlt : lo.toNat / align * align < 2 ^ 32 := Nat.lt_of_le_of_lt (Nat.div_mul_le_self _ _) lo.isLt
  simp only [halfBase, Bool.false_eq_true, if_false, if_true]
  omega

theorem State.sq_setSq_same (s : State) (n : Nat) (r : SqRing) : (s.setSq n r).sq n = r := kget_kset_same ..

theorem State.sq_setSq_ne (s : State) {n k : Nat} (h : k ≠ n) (r : SqRing) : (s.setSq n r).sq k = s.sq k :=
  kget_kset_ne _ _ _ _ h

/-- Replacing ring `n` leaves every other ring and all else as it was. -/
theorem State.setSq_frame (s : State) (n : Nat) (r : SqRing) :
    s.setSq n r = { s with host := (s.setSq n r).host } ∧
    (s.setSq n r).host = { s.host with sqs := (s.setSq n r).host.sqs } ∧
    (∀ k, k ≠ n → (s.setSq n r).sq k = s.sq k) ∧ (s.setSq n r).sq n = r :=
  ⟨rfl, rfl, fun _ hk => s.sq_setSq_ne hk r, s.sq_setSq_same n r⟩

theorem State.cq_setCq_same (s : State) (m : Nat) (r : CqRing) : (s.setCq m r).cq m = r := kget_kset_same ..

theorem State.cq_setCq_ne (s : State) {m k : Nat} (h : k ≠ m) (r : CqRing) : (s.setCq m r).cq k = s.cq k :=
  kget_kset_ne _ _ _ _ h

theorem State.setCq_frame (s : State) (m : Nat) (r : CqRing) :
    s.setCq m r = { s with host := (s.setCq m r).host } ∧
    (s.setCq m r).host = { s.host with cqs := (s.setCq m r).host.cqs } ∧
    (∀ k, k ≠ m → (s.setCq m r).cq k = s.cq k) ∧ (s.setCq m r).cq m = r :=
  ⟨rfl, rfl, fun _ hk => s.cq_setCq_ne hk r, s.cq_setCq_same m r⟩

theorem State.setSq_rd (s : State) (n : Nat) (r : SqRing) (f : Fld) (i j : Nat) : (s.setSq n r).rd f i j = s.rd f i j := rfl

theorem State.setSq_setSq_frame (s : State) (n : Nat) (r q : SqRing) :
    (s.setSq n r).setSq n q = { s with host := ((s.setSq n r).setSq n q).host } ∧
    ((s.setSq n r).setSq n q).host = { s.host with sqs := ((s.setSq n r).setSq n q).host.sqs } ∧
    (∀ k, k ≠ n → ((s.setSq n r).setSq n q).sq k = s.sq k) ∧ ((s.setSq n r).setSq n q).sq n = q :=
  ⟨rfl, rfl, fun _ hk => (State.sq_setSq_ne _ hk q).trans (s.sq_setSq_ne hk r), State.sq_setSq_same _ n q⟩

theorem State.setCq_rd (s : State) (m : Nat) (r : CqRing) (f : Fld) (i j : Nat) : (s.setCq m r).rd f i j = s.rd f i j := rfl

theorem State.setCq_setCq_frame (s : State) (m : Nat) (r q : CqRing) :
    (s.setCq m r).setCq m q = { s with host := ((s.setCq m r).setCq m q).host } ∧
    ((s.setCq m r).setCq m q).host = { s.host with cqs := ((s.setCq m r).setCq m q).host.cqs } ∧
    (∀ k, k ≠ m → ((s.setCq m r).setCq m q).cq k = s.cq k) ∧ ((s.setCq m r).setCq m q).cq m = q :=
  ⟨rfl, rfl, fun _ hk => (State.cq_setCq_ne _ hk q).trans (s.cq_setCq_ne hk r), State.cq_setCq_same _ m q⟩

/-- HOST_SQ_BASE of a disabled ring: LO replaces the low half of its base, then HI the high half. -/
theorem State.commitPair_sqBase {s : State} (h : (s.sq (s.rd F.HOST_SQ_SEL_RING)).enable = false) (hi : Word) :
    let n := s.rd F.HOST_SQ_SEL_RING
    let lo := kget s.wlatch 0x100104 0
    let u := s.setSq n { s.sq n with base := halfBase (s.sq n).base 64 false lo }
    s.commitPair 0x100104 hi = u.setSq n { s.sq n with base := hi.toNat * 2 ^ 32 + lo.toNat / 64 * 64 } := by
  intro n lo u
  have hu : u.sq n = _ := s.sq_setSq_same n _
  have hsel : u.rd F.HOST_SQ_SEL_RING = n := s.setSq_rd n _ _ 0 0
  have hen : (u.sq n).enable = false := (congrArg SqRing.enable hu).trans h
  rw [State.commitPair, State.writeOne_sqBaseLo, State.writeSqBase_disabled rfl h, State.writeOne_sqBaseHi,
    State.writeSqBase_disabled hsel hen, hu, halfBase_pair]

/-- HOST_CQ_BASE of a disabled ring, likewise. -/
theorem State.commitPair_cqBase {s : State} (h : (s.cq (s.rd F.HOST_CQ_SEL_RING)).enable = false) (hi : Word) :
    let m := s.rd F.HOST_CQ_SEL_RING
    let lo := kget s.wlatch 0x100144 0
    let u := s.setCq m { s.cq m with base := halfBase (s.cq m).base 32 false lo }
    s.commitPair 0x100144 hi = u.setCq m { s.cq m with base := hi.toNat * 2 ^ 32 + lo.toNat / 32 * 32 } := by
  intro m lo u
  have hu : u.cq m = _ := s.cq_setCq_same m _
  have hsel : u.rd F.HOST_CQ_SEL_RING = m := s.setCq_rd m _ _ 0 0
  have hen : (u.cq m).enable = false := (congrArg CqRing.enable hu).trans h
  rw [State.commitPair, State.writeOne_cqBaseLo, State.writeCqBase_disabled rfl h, State.writeOne_cqBaseHi,
    State.writeCqBase_disabled hsel hen, hu, halfBase_pair]

/-- A write of HI to a free pair: HI and the latched LO by their fields' access types, and no other word. -/
theorem exec_pairHiWrite_free {s : State} (hs : s.dead = false) {a i j : Nat} {r q : RegDef} (h : isPairLo a = true)
    (hfree : PairFree s a) (hr : findReg regTable a = some (r, i)) (hq : findReg regTable (a + 4) = some (q, j)) (hi : Word) :
    ∃ t, exec (.pairHiWrite (a + 4) hi) s = .next t ∧ t = { s with regs := t.regs } ∧ KeepsWords s t [a, a + 4] ∧
      (let d : Word := BitVec.ofNat 32 (r.rsts.getD i 0)
       kget t.regs a d = r.write (kget s.regs a d) (kget s.wlatch a 0)) ∧
      (let d : Word := BitVec.ofNat 32 (q.rsts.getD j 0)
       kget t.regs (a + 4) d = q.write (kget s.regs (a + 4) d) hi) := by
  refine ⟨_, exec_pairHiWrite hs h (hfree.commitPair hr hq hi) rfl, ?_⟩
  refine ⟨rfl, fun b d hb => ?_, ?_, ?_⟩
  · simp only [List.mem_cons, List.not_mem_nil, or_false, not_or] at hb
    exact (State.withFields_word_ne _ q j hb.2 hi d).trans (s.withFields_word_ne r i hb.1 _ d)
  · exact (State.withFields_word_ne _ q j (by omega) hi _).trans (s.withFields_word r i a _)
  · refine (State.withFields_word _ q j (a + 4) hi).trans ?_
    rw [s.withFields_word_ne r i (by omega)]

/-- A write of HI that writes the two halves of ring `n`'s base leaves every other ring and all else as it was. -/
theorem exec_pairHiWrite_setSq {s : State} (hs : s.dead = false) {a n : Nat} (h : isPairLo a = true) {hi : Word} {r q : SqRing}
    (hc : s.commitPair a hi = (s.setSq n r).setSq n q) :
    ∃ t, exec (.pairHiWrite (a + 4) hi) s = .next t ∧ t = { s with host := t.host } ∧
      t.host = { s.host with sqs := t.host.sqs } ∧ (∀ k, k ≠ n → t.sq k = s.sq k) ∧ t.sq n = q :=
  ⟨_, exec_pairHiWrite hs h hc rfl, s.setSq_setSq_frame n r q⟩

/-- A write of HI that writes the two halves of ring `m`'s base leaves every other ring and all else as it was. -/
theorem exec_pairHiWrite_setCq {s : State} (hs : s.dead = false) {a m : Nat} (h : isPairLo a = true) {hi : Word} {r q : CqRing}
    (hc : s.commitPair a hi = (s.setCq m r).setCq m q) :
    ∃ t, exec (.pairHiWrite (a + 4) hi) s = .next t ∧ t = { s with host := t.host } ∧
      t.host = { s.host with cqs := t.host.cqs } ∧ (∀ k, k ≠ m → t.cq k = s.cq k) ∧ t.cq m = q :=
  ⟨_, exec_pairHiWrite hs h hc rfl, s.setCq_setCq_frame m r q⟩

/-- Settles O11: reads by `exec_pairRead`; a write of LO by `State.latchLo`; and a write of HI by what `State.commitPair` does
to a free pair, a held pair and the two ring bases. -/
theorem pairsAreOneValue : Obligations.PairsAreOneValue := by
  refine ⟨fun _ => ⟨rfl, rfl⟩, fun s a hs h => ?_, fun s a lo hi hs h =>
    ⟨?_, fun hfree r q i j hr hq => ?_, fun hheld => ?_, ?_, ?_⟩⟩
  · obtain ⟨hlo, hhi⟩ := exec_pairRead hs h
    exact ⟨_, _, hlo, hhi, rfl, kget_kset_same .., fun b d hb => kget_kset_ne _ _ _ _ hb, rfl⟩
  · exact ⟨_, exec_pairLoWrite hs h lo, rfl, kget_kset_same .., fun b d hb => kget_kset_ne _ _ _ _ hb⟩
  · exact exec_pairHiWrite_free hs h (pairFree_of hfree) hr hq hi
  · exact exec_pairHiWrite hs h (State.commitPair_held hheld hi) rfl
  · rintro n rfl hen
    exact exec_pairHiWrite_setSq hs h (State.commitPair_sqBase hen hi)
  · rintro m rfl hen
    exact exec_pairHiWrite_setCq hs h (State.commitPair_cqBase hen hi)

/-! ### Writes of one register (R13, R30) -/

/-- An address of BAR0 that is no half of a pair. -/
abbrev Single (a : Nat) : Prop := a < bar2 ∧ isPairLo a = false ∧ isPairHi a = false

theorem Single.busWrite {a : Nat} (h : Single a) (s : State) (v : Word) : s.busWrite a v = s.writeOne a v := by
  obtain ⟨hb, hlo, hhi⟩ := h
  simp [State.busWrite, hlo, hhi, Nat.not_le.2 hb]

/-- A write whose whole effect is `f` is the command of meaning `f`. -/
theorem exec_registerWrite_live {a : Nat} (h : Single a) {v : Word} {f : State → State} (hf : ∀ s, s.writeOne a v = f s)
    (s : State) : exec (.registerWrite a v) s = live s f :=
  congrArg (live s) (funext fun s => (h.busWrite s v).trans (hf s))

/-- A write of one register, where it keeps the queue. -/
theorem exec_registerWrite {s t : State} (hs : s.dead = false) {a : Nat} (h : Single a) {v : Word} (ht : s.writeOne a v = t)
    (hp : t.pending = s.pending) : exec (.registerWrite a v) s = .next t :=
  live_eq hs (·.busWrite a v) ((h.busWrite s v).trans ht) hp

/-- A COMMIT register at `a`, likewise. -/
theorem State.writeOne_commit {s t : State} {a : Nat} {v : Word} (hh : s.writeHeld a = false) (h0 : s.writeHost a v = none)
    (h : s.writeCommit a v = some t) : s.writeOne a v = t := by simp [State.writeOne, hh, h0, h]

theorem State.writeOne_other {s t : State} {a : Nat} {v : Word} (hh : s.writeHeld a = false) (h0 : s.writeHost a v = none)
    (h1 : s.writeCommit a v = none) (h : s.writeOther a v = some t) : s.writeOne a v = t := by
  simp [State.writeOne, hh, h0, h1, h]

/-- A defined register without an effect of its own follows its fields, and nothing else changes. -/
theorem exec_registerWrite_fields {s : State} (hs : s.dead = false) {a j : Nat} {r : RegDef} (h : Single a) (hf : FieldsOnly a)
    (hh : s.writeHeld a = false) (hr : findReg regTable a = some (r, j)) (v : Word) :
    ∃ t, exec (.registerWrite a v) s = .next t ∧ t = { s with regs := t.regs } ∧ KeepsWords s t [a] ∧
      (let d : Word := BitVec.ofNat 32 (r.rsts.getD j 0)
       kget t.regs a d = r.write (kget s.regs a d) v) := by
  have ht : s.writeOne a v = s.withFields r j a v := (State.writeOne_fields hf hh v).trans (State.writeFields_some hf hr s v)
  refine ⟨_, exec_registerWrite hs h ht rfl, rfl, fun b d hb => ?_, s.withFields_word r j a v⟩
  exact s.withFields_word_ne r j (by simpa using hb) v d

/-! ### The ring windows' flags (R74) -/

theorem bit_toNat (v : Word) (i : Nat) : bit v.toNat i = v.getLsbD i := by
  simp [bit, BitVec.getLsbD, Nat.testBit_eq_decide_div_mod_eq]

/-- A write that replaces the selected submission ring. -/
theorem exec_registerWrite_setSq {s : State} (hs : s.dead = false) {a n : Nat} (h : Single a) {v : Word} {r : SqRing}
    (ht : s.writeOne a v = s.setSq n r) :
    ∃ t, exec (.registerWrite a v) s = .next t ∧ t = { s with host := t.host } ∧
      t.host = { s.host with sqs := t.host.sqs } ∧ (∀ k, k ≠ n → t.sq k = s.sq k) ∧ t.sq n = r :=
  ⟨_, exec_registerWrite hs h ht rfl, s.setSq_frame n r⟩

/-- A write that replaces the selected completion ring. -/
theorem exec_registerWrite_setCq {s : State} (hs : s.dead = false) {a m : Nat} (h : Single a) {v : Word} {r : CqRing}
    (ht : s.writeOne a v = s.setCq m r) :
    ∃ t, exec (.registerWrite a v) s = .next t ∧ t = { s with host := t.host } ∧
      t.host = { s.host with cqs := t.host.cqs } ∧ (∀ k, k ≠ m → t.cq k = s.cq k) ∧ t.cq m = r :=
  ⟨_, exec_registerWrite hs h ht rfl, s.setCq_frame m r⟩

theorem State.writeOne_sqStat (s : State) (v : Word) :
    let n := s.rd F.HOST_SQ_SEL_RING
    let r := s.sq n
    s.writeOne 0x100114 v = s.setSq n { r with
      disabled := r.disabled && !v.getLsbD 2, ownWait := r.ownWait && !v.getLsbD 1, badTail := r.badTail && !v.getLsbD 0 } := by
  refine (show s.writeOne 0x100114 v = s.writeSqStat v from State.writeOne_host rfl rfl).trans ?_
  simp only [State.writeSqStat, bit_toNat]

theorem State.writeOne_cqStat (s : State) (v : Word) :
    let m := s.rd F.HOST_CQ_SEL_RING
    let r := s.cq m
    s.writeOne 0x100158 v = s.setCq m { r with
      badHead := r.badHead && !v.getLsbD 1, fullStall := r.fullStall && !v.getLsbD 0 } := by
  refine (show s.writeOne 0x100158 v = s.writeCqStat v from State.writeOne_host rfl rfl).trans ?_
  simp only [State.writeCqStat, bit_toNat]

theorem State.writeOne_coal (s : State) (v : Word) :
    let m := s.rd F.HOST_CQ_SEL_RING
    s.writeOne 0x100150 v = s.setCq m { s.cq m with
      coalTime := v.toNat / 2 ^ 16 % 2 ^ 12, coalCount := v.toNat % 2 ^ 8 } := by
  refine (show s.writeOne 0x100150 v = s.writeCoal v from State.writeOne_host rfl rfl).trans ?_
  simp [State.writeCoal, bits]

/-! ### Registers with a command of their own (R30) -/

/-- Above the MSI-X pending bits no command of GLOBAL or HOST stands. -/
theorem State.writeHost_above {a : Nat} (h : 0x188100 ≤ a) (s : State) (v : Word) : s.writeHost a v = none := by
  have hmsix : isMsix a = false := decide_eq_false (by unfold msixTable msixPba; omega)
  simp (disch := omega) only [State.writeHost, if_neg, hmsix, Bool.false_eq_true, if_false]

/-- Prism's COMMIT registers are held in no state. -/
theorem State.writeHeld_prismCommit (s : State) (n : Fin 4) : s.writeHeld (0x400008 + 0x10000 * n) = false := by
  have hoff : (0x400008 + 0x10000 * n.val - 0x400000) % 0x10000 = 0x8 := by omega
  simp (disch := omega) only [State.writeHeld, if_neg, if_pos, hoff, Bool.or_eq_true, decide_eq_true_eq]
  exact Bool.and_false _

/-- Each of Prism's COMMIT registers is found by its channel. -/
theorem find_prismCommit : ∀ n : Fin 4,
    (List.finRange 4).find? (fun m : Fin 4 => decide (0x400008 + 0x10000 * n.val = 0x400008 + 0x10000 * m.val)) = some n := by
  decide

theorem State.writeOne_prismCommit (s : State) (n : Fin 4) (v : Word) :
    s.writeOne (0x400008 + 0x10000 * n) v = s.prismCommitWrite n v := by
  refine State.writeOne_commit (s.writeHeld_prismCommit n) (s.writeHost_above (by omega) v) ?_
  simp only [State.writeCommit, find_prismCommit]

theorem State.writeOne_tileMail (s : State) (l : Fin 256) (v : Word) :
    s.writeOne (0x2000010 + 0x1000 * l) v = s.mailWrite l v := by
  obtain ⟨a, ha⟩ : ∃ a, a = 0x2000010 + 0x1000 * l.val := ⟨_, rfl⟩
  have hfind : (List.finRange 4).find? (fun n : Fin 4 => decide (a = 0x400008 + 0x10000 * n.val)) = none := by
    refine List.find?_eq_none.2 fun n _ hn => ?_
    have : a = 0x400008 + 0x10000 * n.val := of_decide_eq_true hn
    omega
  rw [← ha]
  apply State.writeOne_other
  · simp (disch := omega) only [State.writeHeld, if_neg, Bool.or_eq_true, decide_eq_true_eq]
  · exact s.writeHost_above (by omega) v
  · simp (disch := omega) only [State.writeCommit, hfind, if_neg]
  · simp (disch := omega) only [State.writeOther, if_neg, if_pos]
    rw [show (a - 0x2000000) / 0x1000 = l.val by omega]

/-- No tile's mailbox register is half of a pair. -/
theorem single_tileMail : ∀ l : Fin 256, Single (0x2000010 + 0x1000 * l) := by
  decide +kernel

section
/-! At a literal address the checks below are evaluations, so they are filled in by default. -/
variable {a : Nat} {v : Word}

/-- A command register of GLOBAL or HOST. -/
theorem exec_write_host (f : State → State) (s : State) (hs : Single a := by decide)
    (hh : ∀ s : State, s.writeHeld a = false := by exact fun _ => rfl)
    (h : ∀ s : State, s.writeHost a v = some (f s) := by exact fun _ => rfl) :
    exec (.registerWrite a v) s = live s f :=
  exec_registerWrite_live hs (fun s => State.writeOne_host (hh s) (h s)) s

/-- A COMMIT register. -/
theorem exec_write_commit (f : State → State) (s : State) (hs : Single a := by decide)
    (hh : ∀ s : State, s.writeHeld a = false := by exact fun _ => rfl)
    (h0 : ∀ s : State, s.writeHost a v = none := by exact fun _ => rfl)
    (h : ∀ s : State, s.writeCommit a v = some (f s) := by exact fun _ => rfl) :
    exec (.registerWrite a v) s = live s f :=
  exec_registerWrite_live hs (fun s => State.writeOne_commit (hh s) (h0 s) (h s)) s

/-- A command register of another block. -/
theorem exec_write_other (f : State → State) (s : State) (hs : Single a := by decide)
    (hh : ∀ s : State, s.writeHeld a = false := by exact fun _ => rfl)
    (h0 : ∀ s : State, s.writeHost a v = none := by exact fun _ => rfl)
    (h1 : ∀ s : State, s.writeCommit a v = none := by exact fun _ => rfl)
    (h : ∀ s : State, s.writeOther a v = some (f s) := by exact fun _ => rfl) :
    exec (.registerWrite a v) s = live s f :=
  exec_registerWrite_live hs (fun s => State.writeOne_other (hh s) (h0 s) (h1 s) (h s)) s
end

theorem exec_write_prismCommit (s : State) (n : Fin 4) (v : Word) :
    exec (.registerWrite (0x400008 + 0x10000 * n) v) s = exec (.prismCommit n v) s :=
  exec_registerWrite_live (by revert n; decide) (fun s => s.writeOne_prismCommit n v) s

theorem exec_write_tileMail (s : State) (l : Fin 256) (v : Word) :
    exec (.registerWrite (0x2000010 + 0x1000 * l) v) s = exec (.tileMailWrite l v) s :=
  exec_registerWrite_live (single_tileMail l) (fun s => s.writeOne_tileMail l v) s

theorem exec_write_beaconCommit (s : State) (b : Fin 2) (v : Word) :
    exec (.registerWrite (0x1002004 + 0x100 * b) v) s = exec (.beaconCommit b v) s := by
  match b with
  | 0 | 1 => exact exec_write_commit (·.beaconCommitWrite _ v) s

theorem exec_write_hbmcCommit (s : State) (k : Fin 2) (v : Word) :
    exec (.registerWrite (0x3201008 + 0x100 * k) v) s = exec (.hbmcCommit k v) s := by
  match k with
  | 0 | 1 => exact exec_write_commit (·.hbmcCommitWrite _ v) s

theorem exec_write_loopSet (s : State) (k : Fin 2) (v : Word) :
    exec (.registerWrite (0x3600204 + 0x20 * k) v) s = exec (.loopSet k v) s := by
  match k with
  | 0 | 1 => exact exec_write_other (·.loopSetWrite _ v) s

/-- A register without an effect beyond its fields, or HOST_EVQ_CTRL while EVQ_EN is 0, is held in no way and has no command. -/
theorem fieldsOnly_of {s : State} {a : Nat} (h : SpecialWrite a = false ∨ (a = 0x1000A8 ∧ s.rd F.HOST_CTRL_EVQ_EN = 0)) :
    FieldsOnly a ∧ s.writeHeld a = false := by
  rcases h with h | ⟨rfl, hev⟩
  · exact ⟨.inl h, s.writeHeld_plain h⟩
  · have hev : s.flag F.HOST_CTRL_EVQ_EN = false := by simp [State.flag, hev]
    exact ⟨.inr (by decide), hev⟩

/-- Settles O12: a register without an effect of its own by `exec_registerWrite_fields`; the ring windows by what
`State.writeOne` does at each; a command register by `exec_registerWrite_live`, with the command's meaning. -/
theorem registerWriteFollowsItsFields : Obligations.RegisterWriteFollowsItsFields := by
  intro s a v hs
  refine ⟨fun hb hlo hhi hplain => ?_, fun hev => ?_, ?_, ⟨?_, ?_⟩, ?_⟩
  · obtain ⟨hf, hheld⟩ := fieldsOnly_of hplain
    have hsingle : Single a := ⟨hb, hlo, hhi⟩
    refine ⟨fun r j hr => exec_registerWrite_fields hs hsingle hf hheld hr v, fun hr => ?_⟩
    exact exec_registerWrite hs hsingle ((State.writeOne_fields hf hheld v).trans (State.writeFields_none hr s v)) rfl
  · have hh : s.flag F.HOST_CTRL_EVQ_EN = true := by simp [State.flag, hev]
    exact exec_registerWrite hs (by decide) (State.writeOne_held (show s.writeHeld 0x1000A8 = true from hh) v) rfl
  · exact exec_registerWrite_setSq hs (by decide) (s.writeOne_sqStat v)
  · exact exec_registerWrite_setCq hs (by decide) (s.writeOne_cqStat v)
  · exact exec_registerWrite_setCq hs (by decide) (s.writeOne_coal v)
  · refine ⟨
      exec_write_host (·.resetWrite v) s,
      exec_write_host (·.compatWrite v) s,
      exec_write_host (·.writeSqCtrl v) s,
      exec_write_host (·.writeCqCtrl v) s,
      rfl,
      fun n => exec_write_prismCommit s n v,
      exec_write_commit (·.lanternCommitWrite v) s,
      exec_write_commit (·.afterglowCommitWrite v) s,
      fun b => exec_write_beaconCommit s b v,
      exec_write_commit (·.glintCommitWrite v) s,
      fun k => exec_write_hbmcCommit s k v,
      exec_write_commit (·.clockCommitWrite v) s,
      exec_write_commit (·.amuCommitWrite v) s,
      exec_write_other (·.recordSyncGoWrite v) s,
      fun l => exec_write_tileMail s l v,
      exec_write_other (·.poolMarchGoWrite v) s,
      exec_write_other (·.buildOutWrite v) s,
      exec_write_other (·.amuSwapWrite v) s,
      fun k => exec_write_loopSet s k v⟩

/-! ### The end of an alignment, beside an ABORT whose ring holds a vector out of range (R396, R398) -/

/-- A job at the end of its ARRAY_ALIGN, whose final record its ring holds back. -/
def alignJob : Job := { jid := 1, sq := 0, cq := 0, desc := [] }

/-- An ABORT that is complete and waits for a job that has gone, on ring 1. -/
def waitingAbort : Job := { jid := 2, sq := 0, cq := 1, desc := [], ending := true, waits := [3] }

/-- The run of `alignJob` once the step's instant has passed. -/
def passedRun : AlignRun := { jid := 1, t := 0, devs := 1, passed := true }

/-- An array head at the end of an alignment of one device. Ring 1, which is open, names a vector far beyond the 2,048 of
the MSI-X table, so that its pending bit falls on bit 17 of ERNOS_INDEX, a bit of SIZE. -/
def strayVectorState : State :=
  { act := [(0x3401000, 1)]
    clk := { align := some passedRun }
    host := { jobs := [alignJob, waitingAbort], cqs := [(1, { enable := true, vector := 8 * (0x3401008 - msixPba) + 17 })] } }

/-- ERNOS_INDEX.SIZE in the state that an outcome answers. -/
def indexSizeOf : Host.Outcome State Fault Refusal → Nat
  | .next t => t.rd F.ERNOS_INDEX_SIZE
  | .fault _ => 0
  | .refused _ => 0

/-- The one device is counted; then the ABORT's final record signals its ring, and the pending bit makes SIZE 3. -/
theorem arrayAlignDone_strayVector : indexSizeOf (exec (.arrayAlignDone [] 0) strayVectorState) = 3 := by decide +kernel

/-- Refutes O57: the clause on the end of an alignment quantifies over every state, so also over those whose completion ring
names a vector that HOST_CQ_CTRL.VECTOR, 11 bits wide, cannot give it. There the signal of a final record that waited
(R70, R72) writes its pending bit over ERNOS_INDEX, and SIZE is not the count of devices. -/
theorem not_deviceTimeAndErnos : ¬ Obligations.DeviceTimeAndErnos := by
  intro h
  obtain ⟨-, -, -, -, -, halign, -⟩ := h strayVectorState rfl
  obtain ⟨t, k, ht, -, -, hsize, -⟩ := halign passedRun alignJob [] 0 rfl rfl (by decide) rfl (by decide) (by decide)
    rfl (by decide) rfl (by decide)
  have hstray := arrayAlignDone_strayVector
  rw [ht] at hstray
  exact absurd (hsize.symm.trans hstray) (by decide)

end Sys2Proof.Machine
end

section
/-! PROOFS. The statement of the architecture family: the step of an empty queue. -/
namespace Sys2Proof.Machine

/-- On an empty queue a device that has its clocks steps to the same state one SCLK cycle later (assumption 1). -/
theorem step_idle {s : State} (hq : s.pending = []) (hs : s.dead = false) : step s = .next (s.elapse cycle) := by
  have hstep : step s = idle s := by simp only [step, hq]
  exact hstep.trans (live_eq hs (·.elapse cycle) rfl (s.elapse_pending cycle))

/-- Settles O2: the idle step is one SCLK cycle of `State.elapse`, whose laws give both clocks (R27), the Glare bucket (R60)
and the frame. -/
theorem idleStepAdvancesOneCycle : Obligations.IdleStepAdvancesOneCycle := by
  intro s hq hs
  have hbucket : (s.elapse cycle).host.bucket = s.bucketAfter cycle := s.elapse_bucket cycle
  exact ⟨s.elapse cycle, step_idle hq hs, s.elapse_phys cycle, s.elapse_devTime cycle, hbucket, s.elapse_frame cycle⟩

end Sys2Proof.Machine
end

section
/-! PROOFS. The statements of the Prism family: the admission of the measurement jobs, and the instants of a set-up. -/
namespace Sys2Proof.Machine

/-! ### What the admission record changes (R52, R53, R55) -/

/-- From `s` to `u` only register words, the output record and the host interface change, and the job table stays. -/
structure JobsKept (s u : State) : Prop where
  frame : u = { s with regs := u.regs, out := u.out, host := u.host }
  jobs : u.host.jobs = s.host.jobs

theorem JobsKept.refl (s : State) : JobsKept s s := ⟨rfl, rfl⟩

theorem JobsKept.trans {s u v : State} (h : JobsKept s u) (h' : JobsKept u v) : JobsKept s v :=
  ⟨by rw [h'.frame, h.frame], h'.jobs.trans h.jobs⟩

theorem State.emit_jobsKept (s : State) (o : Output) : JobsKept s (s.emit o) := ⟨rfl, rfl⟩

theorem State.setCq_jobsKept (s : State) (m : Nat) (q : CqRing) : JobsKept s (s.setCq m q) := ⟨rfl, rfl⟩

theorem State.setChan_jobsKept (s : State) (c : Nat) (x : Chan) : JobsKept s (s.setChan c x) := ⟨rfl, rfl⟩

theorem State.signal_jobsKept (s : State) (v : Nat) : JobsKept s (s.signal v) :=
  ⟨by rw [State.signal_frame], by rw [State.signal_host]⟩

theorem State.signalCq_jobsKept (s : State) (m : Nat) : JobsKept s (s.signalCq m) :=
  (s.setCq_jobsKept m _).trans (State.signal_jobsKept _ _)

/-- Claiming channels keeps the job table. -/
theorem State.foldl_setChan_jobsKept (s : State) (x : State → Nat × Nat → Chan) (chans : List (Nat × Nat)) :
    JobsKept s (chans.foldl (fun s c => s.setChan c.1 (x s c)) s) := by
  induction chans generalizing s with
  | nil => exact .refl s
  | cons c chans ih => exact (s.setChan_jobsKept _ _).trans (ih _)

/-- The issue of a record that is not final ends no job. -/
theorem State.issueRec_jobsKept (s : State) (m : Nat) {r : Rec} (hr : r.final = false) : JobsKept s (s.issueRec m r) := by
  unfold State.issueRec
  cases s.job? r.jid with
  | none => exact .refl s
  | some j =>
    simp only [hr, Bool.false_and, Bool.false_eq_true, if_false]
    have hwrite := fun q o o' => ((s.emit_jobsKept o).trans (State.emit_jobsKept _ o')).trans (State.setCq_jobsKept _ m q)
    split
    · exact (hwrite _ _ _).trans (State.signalCq_jobsKept _ m)
    · exact hwrite _ _ _

/-- A record that is not final is issued or held, and ends no job. -/
theorem State.sendRec_jobsKept (s : State) {r : Rec} (hr : r.final = false) : JobsKept s (s.sendRec r) := by
  unfold State.sendRec State.putRec
  simp only [hr, Bool.false_eq_true, if_false]
  cases s.job? r.jid with
  | none => exact .refl s
  | some j =>
    dsimp only
    split
    · exact s.issueRec_jobsKept _ hr
    · exact s.setCq_jobsKept _ _

/-! ### An admitted job in the table (R53, R63) -/

theorem JobsKept.job? {s u : State} (h : JobsKept s u) (jid : Nat) : u.job? jid = s.job? jid := by
  unfold State.job?
  rw [h.jobs]

/-- The job looked up after an update of it is the updated job. -/
theorem State.job?_updJob {s : State} {j : Job} (h : s.job? j.jid = some j) {f : Job → Job}
    (hf : ∀ x, (f x).jid = x.jid) :
    (s.updJob j.jid f).job? j.jid = some (f j) := by
  let g (x : Job) : Job := if x.jid = j.jid then f x else x
  have hjid (x : Job) : (g x).jid = x.jid := by
    by_cases hx : x.jid = j.jid
    · rw [show g x = f x from if_pos hx, hf]
    · rw [show g x = x from if_neg hx]
  have hsame : (fun x : Job => decide (x.jid = j.jid)) ∘ g = fun x => decide (x.jid = j.jid) :=
    funext fun x => congrArg (fun n => decide (n = j.jid)) (hjid x)
  have hfind : (s.host.jobs.map g).find? (fun x => decide (x.jid = j.jid)) = some (g j) := by
    rw [List.find?_map, hsame]
    exact congrArg (Option.map g) h
  exact hfind.trans (congrArg some (if_pos rfl))

/-- A granted verdict reserves in the job's entry; the channels and the admission record that follow keep the job table. -/
theorem State.carryOut_granted (s : State) (j : Job) (d : Demand) (rd rh b : Nat) (dur : Option Nat)
    (chans : List (Nat × Nat)) :
    ∃ u, s.carryOut j.jid (.granted d rd rh b dur chans) = (u, true) ∧
      JobsKept (s.updJob j.jid (admittedAs s · d rd rh b dur)) u :=
  ⟨_, rfl, (State.foldl_setChan_jobsKept _ _ chans).trans (State.sendRec_jobsKept _ rfl)⟩

/-- An admission, as a unit's start finds it: only register words, the output record and the host interface have changed, and
the job stands in the table as it was admitted. -/
theorem State.admission_granted {s : State} {j : Job} {kind : Nat} {plan : Job → Plan} {d : Demand} {rd rh b : Nat}
    {dur : Option Nat} {chans : List (Nat × Nat)} (hdec : Decides s j kind)
    (hgrant : s.judge j (plan j) = .granted d rd rh b dur chans) :
    ∃ regs out host, { s with regs := regs, out := out, host := host }.job? j.jid = some (admittedAs s j d rd rh b dur) ∧
      ∀ start, s.admission kind plan start =
        start { s with regs := regs, out := out, host := host } (admittedAs s j d rd rh b dur) := by
  obtain ⟨-, hnext, hjob, hkind⟩ := hdec
  obtain ⟨u, hcarry, hkept⟩ := s.carryOut_granted j d rd rh b dur chans
  have hu : u.job? j.jid = some (admittedAs s j d rd rh b dur) :=
    (hkept.job? j.jid).trans (State.job?_updJob hjob fun _ => rfl)
  have hframe : u = { s with regs := u.regs, out := u.out, host := u.host } := hkept.frame
  refine ⟨u.regs, u.out, u.host, hframe ▸ hu, fun start => ?_⟩
  rw [← hframe]
  simp only [State.admission, hnext, hkind, ne_eq, not_true_eq_false, if_false, hgrant, hcarry, if_true, hu]

/-! ### The injected slot (R415) -/

/-- AMU_STAT shows the slot in its own bits; nothing but the register file changes. -/
theorem State.showSlot_frame (s : State) : s.showSlot = { s with regs := s.showSlot.regs } := by
  unfold State.showSlot State.wr
  rfl

/-- The host conversion that waits alone takes the free slot. -/
theorem State.fillSlot_host {s : State} {i : AmuInj} (hslot : s.amu.slot = none) (hcal : s.amu.waitCal = [])
    (hhost : s.amu.waitHost = some i) :
    s.fillSlot = { s with
      regs := s.fillSlot.regs, amu := { s.amu with slot := some i, waitHost := none, jumped := false } } := by
  have h : s.fillSlot = (s.onAmu fun a => { a with slot := some i, waitHost := none, jumped := false }).showSlot := by
    simp only [State.fillSlot, hslot, hcal, hhost, Option.isSome_none, Bool.false_eq_true, if_false]
  rw [h, State.showSlot_frame]
  rfl

/-- The calibration-source conversion that waits alone takes the free slot. -/
theorem State.fillSlot_cal {s : State} {i : AmuInj} (hslot : s.amu.slot = none) (hcal : s.amu.waitCal = [i])
    (hhost : s.amu.waitHost = none) :
    s.fillSlot = { s with
      regs := s.fillSlot.regs, amu := { s.amu with slot := some i, waitCal := [], jumped := false } } := by
  have h : s.fillSlot = (s.onAmu fun a => { a with slot := some i, waitCal := [], jumped := false }).showSlot := by
    simp only [State.fillSlot, hslot, hcal, hhost, Option.isSome_none, Bool.false_and, Bool.false_eq_true, if_false]
  rw [h, State.showSlot_frame]
  rfl

/-- A request for the source level takes the slot where nothing holds it and nothing waits for it (R99, R415). -/
theorem State.calRequest_free {s : State} (hslot : s.amu.slot = none) (hcal : s.amu.waitCal = [])
    (hhost : s.amu.waitHost = none) (jid : Nat) :
    s.calRequest jid = { s with
      regs := (s.calRequest jid).regs
      amu := { s.amu with slot := some { jid := jid, cal := true, entry := calEntry }, waitCal := [], jumped := false } } :=
  State.fillSlot_cal (s := s.onAmu _) hslot (congrArg (· ++ [_]) hcal) hhost

/-! ### The sequence (R418, R425) -/

/-- AMU_STAT and AMU_SEQ_JOB once a sequence stands: SEQ_RUNNING, and the job's ring and TAG. -/
def State.showSequence (s : State) (sq tag : Nat) : State :=
  ((s.setf F.AMU_STAT_SEQ_RUNNING).wr F.AMU_SEQ_JOB_SQ sq).wr F.AMU_SEQ_JOB_TAG tag

theorem State.showSequence_running {s t : State} {sq tag : Nat} (h : t.regs = (s.showSequence sq tag).regs) :
    t.rd F.AMU_STAT_SEQ_RUNNING = 1 := by
  have hrd : t.rd F.AMU_STAT_SEQ_RUNNING = (s.showSequence sq tag).rd F.AMU_STAT_SEQ_RUNNING := by
    rw [State.rd, h, State.rd]
  rw [hrd, State.showSequence, State.rd_wr_addr (by decide), State.rd_wr_addr (by decide), State.setf,
    State.rd_wr_same (by decide)]
  rfl

/-- A sequence that begins takes the sequencer with the outputs on, and shows in the registers. -/
theorem State.startSequence_eq (s : State) (q : AmuSeq) (sq tag : Nat) :
    (((s.onAmu (fun a => { a with seq := some q, outputsOff := false })).setf F.AMU_STAT_SEQ_RUNNING).wr
        F.AMU_SEQ_JOB_SQ sq).wr F.AMU_SEQ_JOB_TAG tag =
      { s with regs := (s.showSequence sq tag).regs, amu := { s.amu with seq := some q, outputsOff := false } } := by
  unfold State.showSequence State.setf State.wr State.onAmu
  rfl

/-! ### The four measurement jobs (R99, R395, R415, R418) -/

section
variable {s : State} {j : Job} {d : Demand} {rd rh b : Nat} {dur : Option Nat} {chans : List (Nat × Nat)}

/-- A job that is anchored at its admission stays in the table with its reservation and its bound. -/
theorem holdsJob_anchored {u t : State} {a : Job → Option Nat} (hu : u.job? j.jid = some (admittedAs s j d rd rh b dur))
    (ht : t.job? j.jid = (u.updJob j.jid (fun x => { x with anchor := a x })).job? j.jid) : HoldsJob t j.jid d b :=
  ⟨_, ht.trans (State.job?_updJob (j := admittedAs s j d rd rh b dur) hu fun _ => rfl), rfl, rfl, rfl⟩

theorem exec_amuSequence_def (table : Option Bytes) (s : State) :
    exec (.amuSequence table) s = execAmuSequence table s := rfl

theorem exec_amuInject_def (s : State) : exec .amuInject s = execAmuInject s := rfl

theorem exec_calibrate_def (s : State) : exec .calibrate s = execCalibrate s := rfl

theorem exec_arrayAlign_def (devs : Fin 33) (s : State) : exec (.arrayAlign devs) s = execArrayAlign devs s := rfl

/-- AMU_SEQUENCE, admitted (R418). -/
theorem exec_amuSequence_granted (table : Option Bytes) (hdec : Decides s j 0x50)
    (hgrant : s.judge j (s.amuSeqPlan table j) = .granted d rd rh b dur chans) :
    ∃ t q, exec (.amuSequence table) s = .next t ∧
      t = { s with regs := t.regs, out := t.out, host := t.host, amu := t.amu } ∧
      t.amu = { s.amu with seq := some q, outputsOff := false } ∧ t.job? j.jid = some (admittedAs s j d rd rh b dur) ∧
      q.jid = j.jid ∧ q.passes = j.fld 36 4 ∧ q.resAddr = j.fld 24 8 ∧ q.start = s.phys + 131072000 ∧
      q.entries.length = j.bits 8 1 4 0 ∧ t.rd F.AMU_STAT_SEQ_RUNNING = 1 := by
  obtain ⟨regs, out, host, hjob, hadm⟩ := State.admission_granted hdec hgrant
  rw [exec_amuSequence_def]
  refine ⟨_, _, live_eq hdec.1 _ ((hadm _).trans (State.startSequence_eq _ _ _ _)) (by rfl), rfl, rfl, hjob, rfl, rfl, rfl,
    rfl, ?_, ?_⟩
  · exact (List.length_map _).trans List.length_range
  · exact State.showSequence_running (s := { s with regs := regs, out := out, host := host }) (sq := j.sq)
      (tag := j.tag) rfl

/-- AMU_INJECT, admitted while the slot is empty (R415). -/
theorem exec_amuInject_granted (hdec : Decides s j 0x51) (hgrant : s.judge j (s.amuInjPlan j) = .granted d rd rh b dur chans)
    (hslot : s.amu.slot = none) (hcal : s.amu.waitCal = []) :
    ∃ t i, exec .amuInject s = .next t ∧
      t = { s with regs := t.regs, out := t.out, host := t.host, amu := t.amu } ∧
      t.amu = { s.amu with slot := some i, waitHost := none, jumped := false } ∧
      t.job? j.jid = some (admittedAs s j d rd rh b dur) ∧ i.jid = j.jid ∧ i.cal = false := by
  obtain ⟨regs, out, host, hjob, hadm⟩ := State.admission_granted hdec hgrant
  rw [exec_amuInject_def]
  exact ⟨_, _, live_eq hdec.1 _ ((hadm _).trans (State.fillSlot_host hslot hcal (by rfl))) (by rfl), rfl, rfl, hjob, rfl,
    rfl⟩

/-- CALIBRATE, admitted while the slot is empty and nothing waits for it (R99). -/
theorem exec_calibrate_granted (hdec : Decides s j 0x60) (hgrant : s.judge j (s.calPlan j) = .granted d rd rh b dur chans)
    (hslot : s.amu.slot = none) (hcal : s.amu.waitCal = []) (hhost : s.amu.waitHost = none) :
    ∃ t i, exec .calibrate s = .next t ∧
      t = { s with regs := t.regs, out := t.out, host := t.host, amu := t.amu, prism := t.prism } ∧
      t.prism = { s.prism with cal := s.prism.cal ++ [{ jid := j.jid, keepOnFail := decide (j.bits 9 1 0 0 = 1)
                                                        mask := j.bits 8 1 3 0, todo := maskList (j.bits 8 1 3 0) }] } ∧
      t.amu = { s.amu with slot := some i, waitCal := [], jumped := false } ∧ i.jid = j.jid ∧ i.cal = true ∧
      HoldsJob t j.jid d b := by
  obtain ⟨regs, out, host, hjob, hadm⟩ := State.admission_granted hdec hgrant
  rw [exec_calibrate_def]
  refine ⟨_, _, live_eq hdec.1 _ ((hadm _).trans (State.calRequest_free ?_ ?_ ?_ _)) (by rfl), rfl, rfl, rfl, rfl, rfl,
    holdsJob_anchored hjob rfl⟩
  · exact hslot
  · exact hcal
  · exact hhost

/-- ARRAY_ALIGN, admitted (R395). -/
theorem exec_arrayAlign_granted (devs : Fin 33) (hdec : Decides s j 0x61)
    (hgrant : s.judge j (s.alignPlan devs j) = .granted d rd rh b dur chans) :
    ∃ t, exec (.arrayAlign devs) s = .next t ∧
      t = { s with regs := t.regs, out := t.out, host := t.host, clk := t.clk } ∧
      t.clk = { s.clk with align := some { jid := j.jid, t := s.alignTime j, devs := s.arraySize devs } } ∧
      HoldsJob t j.jid d b := by
  obtain ⟨regs, out, host, hjob, hadm⟩ := State.admission_granted hdec hgrant
  rw [exec_arrayAlign_def]
  exact ⟨_, live_eq hdec.1 _ (hadm _) (by rfl), rfl, rfl, holdsJob_anchored hjob rfl⟩

end

/-- Settles O35: each of the four jobs starts in its unit, from the state that its admission leaves. -/
theorem measurementJobsStart : Obligations.MeasurementJobsStart := by
  intro s j d rd rh b dur chans
  exact ⟨exec_amuSequence_granted, exec_amuInject_granted, exec_calibrate_granted, exec_arrayAlign_granted⟩

/-! ### The host's stall while a commit waits (R67, R79) -/

/-- A job in the table, with its records on ring 0. -/
def waitingJob : Job := { jid := 1, sq := 0, cq := 0, desc := [] }

/-- Channel 0 waits for the instant of a commit that enables it, 2 µs away, while the host grants no posted-write credit. -/
def stalledCommitState : State :=
  { running := true
    prism := { chs := [(0, { cfgPend := some ⟨1, 0, 0, 131072000⟩ })] }
    host := { credit := false, jobs := [waitingJob], cqs := [(0, { enable := true })] } }

/-- The job table of the state that an outcome answers. -/
def jobsOf : Host.Outcome State Fault Refusal → List Job
  | .next t => t.host.jobs
  | .fault _ => []
  | .refused _ => []

/-- The clock runs 2 µs to the commit's instant, all of which the job's ring is stopped by the host. -/
theorem prismConfigApply_stalls :
    jobsOf (exec (.prismConfigApply 0) stalledCommitState) = [{ waitingJob with stalls := [(0, 131072000)] }] := by
  decide +kernel

/-- Refutes O37: the clause on PRISM_CONFIG_APPLY says that the job table stays as it was, but the command first runs the
clock to the configuration's instant (R79), and the time that passes is host stall time of every job whose completion ring
the host holds back (R67). -/
theorem not_prismSetUpTakesEffect : ¬ Obligations.PrismSetUpTakesEffect := by
  intro h
  obtain ⟨-, happly, -⟩ := h stalledCommitState 0 rfl
  obtain ⟨t, ht, -, -, -, -, -, -, -, -, -, hjobs⟩ := happly ⟨1, 0, 0, 131072000⟩ rfl (by decide) (by decide)
    (by decide)
  have hstalls := prismConfigApply_stalls
  rw [ht] at hstalls
  exact absurd (hjobs.symm.trans hstalls) (by decide)

end Sys2Proof.Machine
end

section
/-! PROOFS. The statements of the Lantern family: set-up, inputs, timeouts and sequences, and the lines. -/
namespace Sys2Proof.Machine

/-! ### What Lantern's work leaves alone -/

/-- From `s` to `t` Lantern works: register words, the output record and its working state may change; its commits, the
set-up they left, the comparator levels, the hold and the lines' last events stay, as does every other block. -/
structure LanWorks (s t : State) : Prop where
  frame : t = { s with regs := t.regs, out := t.out, lan := t.lan }
  kept : t.lan = { s.lan with
    unitAct := t.lan.unitAct, chs := t.lan.chs, conds := t.lan.conds, units := t.lan.units, queue := t.lan.queue
    lastExport := t.lan.lastExport }

/-- From `s` to `t` the units take events: Lantern works, and of the conditions only patterns with edges not yet judged
change (R112). -/
structure LanFlows (s t : State) : Prop where
  works : LanWorks s t
  clean : ∀ c, (s.cond c).dirty = none → t.cond c = s.cond c

theorem LanWorks.refl (s : State) : LanWorks s s := ⟨rfl, rfl⟩

theorem LanWorks.trans {s u t : State} (h : LanWorks s u) (h' : LanWorks u t) : LanWorks s t :=
  ⟨by rw [h'.frame, h.frame], by rw [h'.kept, h.kept]⟩

theorem LanWorks.act {s t : State} (h : LanWorks s t) : t.act = s.act := by rw [h.frame]

theorem LanWorks.pending {s t : State} (h : LanWorks s t) : t.pending = s.pending := by rw [h.frame]

theorem LanWorks.levels {s t : State} (h : LanWorks s t) : t.lan.levels = s.lan.levels := by rw [h.kept]

theorem LanWorks.pend {s t : State} (h : LanWorks s t) : t.lan.pend = s.lan.pend := by rw [h.kept]

theorem LanWorks.applyT {s t : State} (h : LanWorks s t) : t.lan.applyT = s.lan.applyT := by rw [h.kept]

theorem LanFlows.refl (s : State) : LanFlows s s := ⟨.refl s, fun _ _ => rfl⟩

theorem LanFlows.trans {s u t : State} (h : LanFlows s u) (h' : LanFlows u t) : LanFlows s t :=
  ⟨h.works.trans h'.works, fun c hc => (h'.clean c (h.clean c hc ▸ hc)).trans (h.clean c hc)⟩

/-- A fold of steps that keep a reflexive and transitive relation keeps it. -/
theorem foldl_relates {α : Type} {R : State → State → Prop} (hrefl : ∀ s, R s s)
    (htrans : ∀ {s u t}, R s u → R u t → R s t) {f : State → α → State} (hf : ∀ s a, R s (f s a)) (l : List α)
    (s : State) : R s (l.foldl f s) :=
  List.foldlRecOn (motive := R s) l f (hrefl s) fun u hu a _ => htrans hu (hf u a)

theorem foldl_works {α : Type} {f : State → α → State} (hf : ∀ s a, LanWorks s (f s a)) (l : List α) (s : State) :
    LanWorks s (l.foldl f s) := foldl_relates .refl .trans hf l s

theorem foldl_flows {α : Type} {f : State → α → State} (hf : ∀ s a, LanFlows s (f s a)) (l : List α) (s : State) :
    LanFlows s (l.foldl f s) := foldl_relates .refl .trans hf l s

/-! ### One update of Lantern's state -/

theorem State.cond_setCond_same (s : State) (c : Nat) (x : CondSt) : (s.setCond c x).cond c = x := kget_kset_same ..

theorem State.cond_setCond_ne (s : State) {c k : Nat} (x : CondSt) (h : k ≠ c) : (s.setCond c x).cond k = s.cond k :=
  kget_kset_ne _ _ _ _ h

theorem State.unit_setUnit_same (s : State) (u : Nat) (x : UnitSt) : (s.setUnit u x).unit u = x := kget_kset_same ..

theorem State.unit_setUnit_ne (s : State) {u w : Nat} (x : UnitSt) (h : w ≠ u) : (s.setUnit u x).unit w = s.unit w :=
  kget_kset_ne _ _ _ _ h

theorem State.wr_flows (s : State) (f : Fld) (v i j : Nat) : LanFlows s (s.wr f v i j) := ⟨⟨rfl, rfl⟩, fun _ _ => rfl⟩

theorem State.count_flows (s : State) (f : Fld) (n i j : Nat) : LanFlows s (s.count f n i j) := s.wr_flows f _ i j

theorem State.setf_flows (s : State) (f : Fld) (i j : Nat) : LanFlows s (s.setf f i j) := s.wr_flows f 1 i j

theorem State.setUnit_flows (s : State) (u : Nat) (x : UnitSt) : LanFlows s (s.setUnit u x) :=
  ⟨⟨rfl, rfl⟩, fun _ _ => rfl⟩

theorem State.setLanCh_flows (s : State) (n : Nat) (x : LanCh) : LanFlows s (s.setLanCh n x) :=
  ⟨⟨rfl, rfl⟩, fun _ _ => rfl⟩

theorem State.pushEvents_flows (s : State) (evs : List LEv) : LanFlows s (s.pushEvents evs) :=
  ⟨⟨rfl, rfl⟩, fun _ _ => rfl⟩

theorem State.pushCtl_flows (s : State) (x : LItem) : LanFlows s (s.pushCtl x) := ⟨⟨rfl, rfl⟩, fun _ _ => rfl⟩

theorem State.setQueue_flows (s : State) (q : List LItem) : LanFlows s { s with lan := { s.lan with queue := q } } :=
  ⟨⟨rfl, rfl⟩, fun _ _ => rfl⟩

theorem State.setUnitAct_flows (s : State) (a : Regs) : LanFlows s { s with lan := { s.lan with unitAct := a } } :=
  ⟨⟨rfl, rfl⟩, fun _ _ => rfl⟩

theorem State.setCond_works (s : State) (c : Nat) (x : CondSt) : LanWorks s (s.setCond c x) := ⟨rfl, rfl⟩

/-- A condition with edges not yet judged is free to change. -/
theorem State.setCond_flows {s : State} {c d : Nat} (hd : (s.cond c).dirty = some d) (x : CondSt) :
    LanFlows s (s.setCond c x) := by
  refine ⟨s.setCond_works c x, fun k hk => s.cond_setCond_ne x ?_⟩
  rintro rfl
  exact absurd (hd.symm.trans hk) nofun

theorem State.toDev_cond (s : State) (t c : Nat) : (s.toDev t).cond c = s.cond c := by
  rw [State.cond, State.toDev_lan, State.cond]

theorem State.toDev_unit (s : State) (t u : Nat) : (s.toDev t).unit u = s.unit u := by
  rw [State.unit, State.toDev_lan, State.unit]

/-! ### The units (R117-R121, R127) -/

theorem State.startUnit_flows (s : State) (u : Nat) : LanFlows s (s.startUnit u) := s.setUnit_flows u _

theorem State.exportMark_flows (s : State) (u : Nat) (m : Mark) : LanFlows s (s.exportMark u m) := by
  unfold State.exportMark
  dsimp only
  split
  · exact .refl s
  · split
    · exact s.count_flows _ _ _ _
    · exact ⟨⟨rfl, rfl⟩, fun _ _ => rfl⟩

theorem State.issueMark_flows (s : State) (u : Nat) (e : LEv) (word : Nat) : LanFlows s (s.issueMark u e word) := by
  unfold State.issueMark
  dsimp only
  split
  · exact ((s.setUnit_flows u _).trans (State.count_flows _ _ _ _ _)).trans (State.exportMark_flows _ u _)
  · exact ((s.setUnit_flows u _).trans (State.count_flows _ _ _ _ _)).trans (State.setf_flows _ _ _ _)

theorem State.qualify_flows (s : State) (u : Nat) (e : LEv) : LanFlows s (s.qualify u e) := by
  unfold State.qualify
  extract_lets a r s'
  refine (s.setUnit_flows u r.2).trans ?_
  split
  · exact s'.count_flows _ _ _ _
  · split
    · exact (s'.count_flows _ _ _ _).trans (State.setf_flows _ _ _ _)
    · exact s'.issueMark_flows u e _

theorem State.unitEvents_flows (s : State) (u t : Nat) (evs : List LEv) : LanFlows s (s.unitEvents u t evs) := by
  induction evs generalizing s with
  | nil => exact .refl s
  | cons e es ih =>
    unfold State.unitEvents
    dsimp only
    refine LanFlows.trans ?_ (ih _)
    split
    · exact .refl s
    · split
      · exact (s.setUnit_flows u _).trans (State.qualify_flows _ u e)
      · exact s.setUnit_flows u _

theorem State.unitTick_flows (s : State) (u t : Nat) (evs : List LEv) : LanFlows s (s.unitTick u t evs) := by
  unfold State.unitTick
  extract_lets a x tmax stage reset s'
  have hstage : LanFlows s s' := s.setUnit_flows u _
  split
  · exact .refl s
  · split
    · exact hstage
    · exact hstage.trans (s'.unitEvents_flows u t evs)

theorem State.unitCtl_flows (s : State) (x : LItem) : LanFlows s (s.unitCtl x) := by
  cases x with
  | ev e => exact .refl s
  | apply t a us => exact (s.setUnitAct_flows a).trans (foldl_flows State.startUnit_flows us _)
  | hold t => exact foldl_flows (fun s u => s.setUnit_flows u _) _ s
  | start t => exact foldl_flows (fun s u => (s.setUnit_flows u _).trans (State.startUnit_flows _ u)) _ s

theorem State.runUnits_flows (s : State) (lim n : Nat) : LanFlows s (s.runUnits lim n) := by
  induction n generalizing s with
  | zero => exact .refl s
  | succ n ih =>
    unfold State.runUnits
    split
    · exact .refl s
    · split
      · exact .refl s
      · split
        · exact ((s.setQueue_flows _).trans (State.unitCtl_flows _ _)).trans (ih _)
        · exact ((s.setQueue_flows _).trans (foldl_flows (fun s u => s.unitTick_flows u _ _) _ _)).trans (ih _)

/-! ### Patterns with edges not yet judged (R112) -/

theorem State.judgePattern_flows {s : State} {c d : Nat} (hd : (s.cond c).dirty = some d) (t : Nat) :
    LanFlows s (s.judgePattern c t) := by
  unfold State.judgePattern
  dsimp only
  split
  · exact State.setCond_flows hd _
  · split
    · exact (State.setCond_flows hd _).trans (State.pushEvents_flows _ _)
    · exact (State.setCond_flows hd _).trans (State.pushEvents_flows _ _)

theorem State.settlePatterns_flows (s : State) (t : Nat) : LanFlows s (s.settlePatterns t) := by
  refine foldl_flows (fun s c => ?_) _ s
  split
  · next d hd =>
    split
    · exact State.judgePattern_flows hd d
    · exact .refl s
  · exact .refl s

theorem State.flushUnits_flows (s : State) (lim : Nat) : LanFlows s (s.flushUnits lim) :=
  (s.settlePatterns_flows _).trans (State.runUnits_flows _ _ _)

/-- Where no condition has edges to judge, there is nothing to settle. -/
theorem State.settlePatterns_clean {s : State} (hs : ∀ k : Fin 16, (s.cond k).dirty = none) (t : Nat) :
    s.settlePatterns t = s := by
  refine List.foldlRecOn (motive := fun u => u = s) (List.range 16) _ rfl fun u hu c hc => ?_
  have hclean : (s.cond c).dirty = none := hs ⟨c, List.mem_range.1 hc⟩
  simp only [hu, hclean]

/-- Where, besides, no event waits, the units have nothing to take. -/
theorem State.flushUnits_idle {s : State} (hs : ∀ k : Fin 16, (s.cond k).dirty = none) (hq : s.lan.queue = [])
    (lim : Nat) : s.flushUnits lim = s := by
  unfold State.flushUnits
  dsimp only
  rw [State.settlePatterns_clean hs, hq]
  rfl

/-! ### A commit of the set-up (R129, R130) -/

theorem exec_lanternCommit_def (v : Word) (s : State) :
    exec (.lanternCommit v) s = live s fun s => s.lanternCommitWrite v := rfl

theorem exec_lanternCommitApply_def (s : State) : exec .lanternCommitApply s = execLanternCommitApply s := rfl

theorem exec_triginEdge_def (p : Fin 2) (rise : Bool) (t : Nat) (s : State) :
    exec (.triginEdge p rise t) s = execTriginEdge p rise t s := rfl

theorem exec_lanternTimeout_def (c : Fin 16) (s : State) : exec (.lanternTimeout c) s = execLanternTimeout c s := rfl

theorem exec_sequenceTimeout_def (u : Fin 8) (s : State) : exec (.sequenceTimeout u) s = execSequenceTimeout u s := rfl

/-- A set-up without offenders waits for the first SCLK boundary at least 64 ns later (R129). -/
def State.commitWaits (s : State) : State :=
  { s with lan := { s.lan with
    pend := addPend s.lan.pend (roundUp (s.devTime + 4194304) 32768) (s.shadow lanLo lanHi) } }

section
variable {s : State} {v : Word} (hv : v.getLsbD 0 = true)
  (hnew : (s.shadow lanLo lanHi == lastPend s.lan.pend (s.active lanLo lanHi)) = false)
include hv hnew

/-- GO is written, and the set-up differs from the last one committed. -/
theorem commit_goes :
    (!bit v.toNat 0 || s.shadow lanLo lanHi == lastPend s.lan.pend (s.active lanLo lanHi)) = false := by
  rw [bit_toNat, hv, hnew]
  rfl

theorem State.lanternCommitWrite_valid (hvalid : lanternOffender (s.shadow lanLo lanHi) = none) :
    s.lanternCommitWrite v = s.commitWaits.setf F.LANTERN_COMMIT_STAT_PENDING := by
  unfold State.lanternCommitWrite
  dsimp only
  rw [commit_goes hv hnew, hvalid]
  rfl

theorem State.lanternCommitWrite_invalid {c : Nat} (hbad : lanternOffender (s.shadow lanLo lanHi) = some c) :
    s.lanternCommitWrite v =
      (s.setf F.LANTERN_COMMIT_STAT_REJ_INVALID).wr F.LANTERN_COMMIT_STAT_REJ_WHERE c := by
  unfold State.lanternCommitWrite
  dsimp only
  rw [commit_goes hv hnew, hbad]
  rfl

/-- A commit of valid settings waits for its boundary and shows PENDING (R129). -/
theorem exec_lanternCommit_valid (hs : s.dead = false) (hvalid : lanternOffender (s.shadow lanLo lanHi) = none) :
    ∃ t, exec (.lanternCommit v) s = .next t ∧ t = { s with regs := t.regs, lan := t.lan } ∧
      t.lan = { s.lan with pend := addPend s.lan.pend (roundUp (s.devTime + 4194304) 32768) (s.shadow lanLo lanHi) } ∧
      KeepsWords s t [0x800004] ∧ t.rd F.LANTERN_COMMIT_STAT_PENDING = 1 := by
  rw [exec_lanternCommit_def]
  exact ⟨_, live_eq hs _ (State.lanternCommitWrite_valid hv hnew hvalid) rfl, rfl, rfl,
    s.commitWaits.wr_keepsWords F.LANTERN_COMMIT_STAT_PENDING 1 0 0, State.rd_wr_same rfl s.commitWaits 1 0 0⟩

/-- A commit of an invalid set-up names its offender and changes nothing else (R130). -/
theorem exec_lanternCommit_invalid (hs : s.dead = false) {c : Nat} (hc : c < 32)
    (hbad : lanternOffender (s.shadow lanLo lanHi) = some c) :
    ∃ t, exec (.lanternCommit v) s = .next t ∧ t = { s with regs := t.regs } ∧ KeepsWords s t [0x800004] ∧
      t.rd F.LANTERN_COMMIT_STAT_REJ_INVALID = 1 ∧ t.rd F.LANTERN_COMMIT_STAT_REJ_WHERE = c := by
  rw [exec_lanternCommit_def]
  refine ⟨_, live_eq hs _ (State.lanternCommitWrite_invalid hv hnew hbad) rfl, rfl, ?_, ?_, ?_⟩
  · have hflag := s.wr_keepsWords F.LANTERN_COMMIT_STAT_REJ_INVALID 1 0 0
    have hwhere := (s.setf F.LANTERN_COMMIT_STAT_REJ_INVALID).wr_keepsWords F.LANTERN_COMMIT_STAT_REJ_WHERE c 0 0
    exact fun a d ha => (hwhere a d ha).trans (hflag a d ha)
  · have hkeep : F.LANTERN_COMMIT_STAT_REJ_INVALID.hi < F.LANTERN_COMMIT_STAT_REJ_WHERE.lo ∨
        F.LANTERN_COMMIT_STAT_REJ_WHERE.hi < F.LANTERN_COMMIT_STAT_REJ_INVALID.lo := .inl (by decide)
    rw [State.rd_wr_bits (f := F.LANTERN_COMMIT_STAT_REJ_WHERE) (g := F.LANTERN_COMMIT_STAT_REJ_INVALID) (by decide)
      (by decide) rfl rfl hkeep, State.setf, State.rd_wr_same (by decide)]
    rfl
  · rw [State.rd_wr_same (by decide)]
    exact Nat.mod_eq_of_lt (Nat.lt_trans hc (by decide))

end

/-! ### The active set-up of a unit, read from Lantern's registers alone -/

/-- Whether a block's set-up from `lo` up to `hi` takes the register at `a` along: it lies there and holds RWS fields (R14). -/
def inSetUp (lo hi a : Nat) : Bool :=
  decide (lo ≤ a ∧ a < hi) && (match findReg regTable a with | some (r, _) => r.shadowed | none => false)

/-- The registers that a set-up takes along read in it as they stand. -/
theorem kget_shadowRows {lo hi a : Nat} (h : inSetUp lo hi a = true) (m : Regs) (d : Word) :
    kget (shadowRows m lo hi) a d = kget m a d := by
  change kget (m.filter fun c => inSetUp lo hi c.1) a d = kget m a d
  induction m with
  | nil => rfl
  | cons x m ih =>
    by_cases hx : inSetUp lo hi x.1 = true
    · rw [List.filter_cons_of_pos (p := fun c : Nat × Word => inSetUp lo hi c.1) hx, kget, kget, ih]
    · have hne : x.1 ≠ a := fun e => hx (e ▸ h)
      rw [List.filter_cons_of_neg (p := fun c : Nat × Word => inSetUp lo hi c.1) hx, ih, kget, if_neg hne]

/-- The fields that say whether a unit is enabled and which conditions it uses (R117, R118). -/
def unitFlds : List Fld :=
  [F.LANTERN_UNITu_CTRL_ENABLE, F.LANTERN_UNITu_CTRL_N_STAGES, F.LANTERN_UNITu_STAGES_STAGE1, F.LANTERN_UNITu_STAGES_STAGE2,
    F.LANTERN_UNITu_STAGES_STAGE3, F.LANTERN_UNITu_STAGES_STAGE4, F.LANTERN_UNITu_SEQ_RESET_EN,
    F.LANTERN_UNITu_SEQ_RESET_COND]

theorem unitFlds_inSetUp : ∀ u < 8, ∀ f ∈ unitFlds, inSetUp lanLo lanHi (f.addr u 0) = true := by decide +kernel

/-- A condition is used by the active set-up exactly where Lantern's own registers say so (R130). -/
theorem condUsed_shadowRows (a : Regs) (c : Nat) : condUsed (shadowRows a lanLo lanHi) c = condUsed a c := by
  have hrd : ∀ u < 8, ∀ f ∈ unitFlds, (shadowRows a lanLo lanHi).rd f u 0 = a.rd f u 0 := fun u hu f hf =>
    congrArg f.ofWord (kget_shadowRows (unitFlds_inSetUp u hu f hf) a _)
  have hunit : ∀ u < 8, unitOn (shadowRows a lanLo lanHi) u = unitOn a u ∧
      unitConds (shadowRows a lanLo lanHi) u = unitConds a u := fun u hu => by
    have h := hrd u hu
    simp only [unitFlds, List.forall_mem_cons] at h
    obtain ⟨hen, hn, h1, h2, h3, h4, hreset, hcond, -⟩ := h
    simp only [unitOn, unitConds, hen, hn, h1, h2, h3, h4, hreset, hcond, and_self]
  unfold condUsed
  rw [Bool.eq_iff_iff, List.any_eq_true, List.any_eq_true]
  refine exists_congr fun u => and_congr_right fun hu => ?_
  obtain ⟨hon, hconds⟩ := hunit u (List.mem_range.1 hu)
  rw [hon, hconds]

/-! ### A commit is applied (R129) -/

/-- From `s` to `t` Lantern works and touches no condition but `c`. -/
structure CondWorks (c : Nat) (s t : State) : Prop where
  works : LanWorks s t
  others : ∀ k, k ≠ c → t.cond k = s.cond k

theorem CondWorks.refl (c : Nat) (s : State) : CondWorks c s s := ⟨.refl s, fun _ _ => rfl⟩

theorem CondWorks.trans {c : Nat} {s u t : State} (h : CondWorks c s u) (h' : CondWorks c u t) : CondWorks c s t :=
  ⟨h.works.trans h'.works, fun k hk => (h'.others k hk).trans (h.others k hk)⟩

theorem State.setCond_condWorks (s : State) (c : Nat) (x : CondSt) : CondWorks c s (s.setCond c x) :=
  ⟨s.setCond_works c x, fun _ hk => s.cond_setCond_ne x hk⟩

theorem State.leaveOld_condWorks (s : State) (old : Regs) (c t : Nat) : CondWorks c s (s.leaveOld old c t) := by
  unfold State.leaveOld
  split
  · extract_lets n ch lim
    split
    · exact .refl c s
    · exact ⟨(s.setLanCh_flows _ _).works, fun _ _ => rfl⟩
  · exact .refl c s

theorem State.resetCond_condWorks (s : State) (c : Nat) : CondWorks c s (s.resetCond c) := by
  unfold State.resetCond
  split
  · exact s.setCond_condWorks c _
  · exact s.setCond_condWorks c _

theorem State.rejudge_condWorks (s : State) (c : Nat) : CondWorks c s (s.rejudge c) := by
  unfold State.rejudge
  dsimp only
  split
  · exact .refl c s
  · exact s.setCond_condWorks c _

/-- What the application of a commit at `t` does to condition `c`, from the settings `old` to `now` (R129). -/
def State.takeSetUp (old now : Regs) (t : Nat) (s : State) (c : Nat) : State :=
  if !condUsed now c then (if condUsed old c then s.leaveOld old c t else s).setCond c {}
  else if !condUsed old c then s.resetCond c
  else if condChange old now c = 2 then (s.leaveOld old c t).resetCond c
  else if condChange old now c = 1 && (condCfg now c).type = 9 then s.rejudge c
  else s

theorem State.takeSetUp_condWorks (old now : Regs) (t : Nat) (s : State) (c : Nat) :
    CondWorks c s (s.takeSetUp old now t c) := by
  unfold State.takeSetUp
  split
  · refine CondWorks.trans ?_ (State.setCond_condWorks _ c _)
    split
    · exact s.leaveOld_condWorks old c t
    · exact .refl c s
  · split
    · exact s.resetCond_condWorks c
    · split
      · exact (s.leaveOld_condWorks old c t).trans (State.resetCond_condWorks _ c)
      · split
        · exact s.rejudge_condWorks c
        · exact .refl c s

/-- A condition that the new set-up does not use is left in its reset state. -/
theorem State.takeSetUp_unused (old : Regs) {now : Regs} (t : Nat) (s : State) {c : Nat} (h : condUsed now c = false) :
    (s.takeSetUp old now t c).cond c = {} := by
  unfold State.takeSetUp
  rw [h]
  exact State.cond_setCond_same _ c _

/-- Over a list of conditions that holds `c`, the unused `c` is left in its reset state. -/
theorem foldl_takeSetUp_unused (old : Regs) {now : Regs} (t : Nat) {c : Nat} (h : condUsed now c = false) (l : List Nat)
    (s : State) (hs : c ∈ l ∨ s.cond c = {}) : (l.foldl (State.takeSetUp old now t) s).cond c = {} := by
  induction l generalizing s with
  | nil => exact hs.resolve_left (List.not_mem_nil)
  | cons k l ih =>
    refine ih _ ?_
    by_cases hk : c = k
    · exact .inr (hk ▸ s.takeSetUp_unused old t (hk ▸ h))
    · refine hs.imp (fun hmem => (List.mem_cons.1 hmem).resolve_left hk) fun hc => ?_
      exact ((State.takeSetUp_condWorks old now t s k).others c hk).trans hc

/-- Lantern records that commit `p` has been applied, after the settings `old` (R129). -/
def State.noteApplied (s : State) (old : Regs) (p : PendCommit) : State :=
  { s with lan := { s.lan with pend := p.after, oldAct := old, applyT := p.due } }

/-- The conditions and the units follow the application of commit `p`, from the settings `old` to `now` (R129). -/
def State.followSetUp (s : State) (old now : Regs) (p : PendCommit) : State :=
  let us := (List.range 8).filter (fun u => unitChange old now u ||
    (unitOn now u && (unitConds now u).any (fun c => condChange old now c = 2)))
  ((((List.range 16).foldl (State.takeSetUp old now p.due) s).pushCtl (.apply p.due now us)).flushUnits p.due).wr
    F.LANTERN_COMMIT_STAT_PENDING (b2n p.after.isSome)

/-- The state after LANTERN_COMMIT_APPLY of commit `p` (R129). -/
def State.commitApplied (s : State) (p : PendCommit) : State :=
  let u := (s.toDev p.due).settlePatterns p.due
  let v := u.applyShadow lanLo lanHi p.snap
  (v.noteApplied (u.active lanLo lanHi) p).followSetUp (u.active lanLo lanHi) (v.active lanLo lanHi) p

/-- After the conditions have taken the set-up, the units' part of a commit touches no condition without edges to judge. -/
theorem State.followSetUp_flows (s : State) (old now : Regs) (p : PendCommit) :
    LanFlows ((List.range 16).foldl (State.takeSetUp old now p.due) s) (s.followSetUp old now p) :=
  ((State.pushCtl_flows _ _).trans (State.flushUnits_flows _ _)).trans (State.wr_flows _ _ _ _ _)

theorem State.followSetUp_works (s : State) (old now : Regs) (p : PendCommit) : LanWorks s (s.followSetUp old now p) :=
  (foldl_works (fun s c => (State.takeSetUp_condWorks old now p.due s c).works) _ s).trans
    (s.followSetUp_flows old now p).works

/-- A condition that the new set-up does not use is in its reset state once the set-up is followed. -/
theorem State.followSetUp_unused (s : State) (old : Regs) {now : Regs} (p : PendCommit) {c : Nat} (hc : c < 16)
    (h : condUsed now c = false) : (s.followSetUp old now p).cond c = {} := by
  have hfold := foldl_takeSetUp_unused old p.due h (List.range 16) s (.inl (List.mem_range.2 hc))
  exact ((s.followSetUp_flows old now p).clean c (by rw [hfold])).trans hfold

/-- PENDING shows whether a further commit waits (R129). -/
theorem State.followSetUp_pending (s : State) (old now : Regs) (p : PendCommit) :
    (s.followSetUp old now p).rd F.LANTERN_COMMIT_STAT_PENDING = b2n p.after.isSome := by
  unfold State.followSetUp
  rw [State.rd_wr_same (by decide)]
  cases p.after.isSome <;> rfl

theorem execLanternCommitApply_eq (s : State) :
    execLanternCommitApply s = live s fun s => match s.lan.pend with
      | none => s
      | some p => s.commitApplied p := rfl

/-- The snapshot of the pending commit becomes the active set-up; conditions that it does not use are reset (R129). -/
theorem exec_lanternCommitApply {s : State} (hs : s.dead = false) {p : PendCommit} (hp : s.lan.pend = some p) :
    ∃ t, exec .lanternCommitApply s = .next t ∧ t.lan.pend = p.after ∧ t.lan.applyT = p.due ∧
      t.act = (s.applyShadow lanLo lanHi p.snap).act ∧ t.rd F.LANTERN_COMMIT_STAT_PENDING = b2n p.after.isSome ∧
      (∀ c : Fin 16, condUsed t.act c = false → t.cond c = {}) ∧
      t = { s.toDev p.due with regs := t.regs, act := t.act, out := t.out, lan := t.lan } := by
  let u := (s.toDev p.due).settlePatterns p.due
  let v := u.applyShadow lanLo lanHi p.snap
  have hsettle : LanWorks (s.toDev p.due) u := (State.settlePatterns_flows _ _).works
  have hfollow : LanWorks (v.noteApplied (u.active lanLo lanHi) p) (s.commitApplied p) := State.followSetUp_works _ _ _ p
  have hact : (s.commitApplied p).act = v.act := hfollow.act
  have hv : v.act = (s.applyShadow lanLo lanHi p.snap).act := by
    have hu : u.act = s.act := hsettle.act.trans (s.toDev_act p.due)
    simp only [v, State.applyShadow, hu]
  have hframe : s.commitApplied p = { s.toDev p.due with
      regs := (s.commitApplied p).regs, act := (s.commitApplied p).act, out := (s.commitApplied p).out
      lan := (s.commitApplied p).lan } := by
    rw [hfollow.frame]
    unfold State.noteApplied v State.applyShadow
    rw [hsettle.frame]
  have hpending : (s.commitApplied p).pending = s.pending := by
    rw [hframe]
    exact s.toDev_pending p.due
  have hexec : exec .lanternCommitApply s = .next (s.commitApplied p) := by
    rw [exec_lanternCommitApply_def, execLanternCommitApply_eq]
    exact live_eq hs _ (by rw [hp]) hpending
  refine ⟨_, hexec, hfollow.pend, hfollow.applyT, hact.trans hv, State.followSetUp_pending _ _ _ p, fun c hc => ?_, hframe⟩
  have hnow : condUsed (v.active lanLo lanHi) c = false := (condUsed_shadowRows v.act c).trans (hact ▸ hc)
  exact State.followSetUp_unused _ _ p c.isLt hnow

/-! ### Edges of the TRIGINs (R108) -/

/-- `s` with source level `i` at `rise`. -/
def State.setLevel (s : State) (i : Nat) (rise : Bool) : State :=
  { s with lan := { s.lan with levels := kset s.lan.levels i rise false } }

/-- What an edge of source level `i` at time `t` does to condition `c` (R108, R112). -/
def State.takeEdge (i : Nat) (rise : Bool) (t : Nat) (s : State) (c : Nat) : State :=
  let k := condCfg s.act c
  if !condUsed s.act c then s
  else if k.type = 9 then
    if k.src - 0x100 ≤ i ∧ i < k.src - 0x100 + 32 ∧ i < 256 then s.setCond c { s.cond c with dirty := some t } else s
  else if (srcOf k.src).level? = some i then
    let r := condTimeout k (s.cond c) t
    let q := condCross k r.1 false rise { t := t, flags := {} }
    let ev (x : Option Crossing) : List LEv := match x with
      | some e => [⟨e.t, c, e.t / cycle * cycle, {}⟩]
      | none => []
    (s.setCond c q.1).pushEvents (ev r.2 ++ ev q.2)
  else s

theorem State.takeEdge_works (i : Nat) (rise : Bool) (t : Nat) (s : State) (c : Nat) :
    LanWorks s (s.takeEdge i rise t c) := by
  unfold State.takeEdge
  dsimp only
  split
  · exact .refl s
  · split
    · split
      · exact s.setCond_works c _
      · exact .refl s
    · split
      · exact (s.setCond_works c _).trans (State.pushEvents_flows _ _).works
      · exact .refl s

theorem State.lanEdge_eq (s : State) (i : Nat) (rise : Bool) (t : Nat) :
    s.lanEdge i rise t =
      if ((s.settlePatterns t).setLevel i rise).lan.holding then (s.settlePatterns t).setLevel i rise
      else ((List.range 16).foldl (State.takeEdge i rise t) ((s.settlePatterns t).setLevel i rise)).flushUnits t := rfl

/-- Once the level is set, the rest of an edge is work of Lantern's. -/
theorem State.lanEdge_works (s : State) (i : Nat) (rise : Bool) (t : Nat) :
    LanWorks ((s.settlePatterns t).setLevel i rise) (s.lanEdge i rise t) := by
  rw [State.lanEdge_eq]
  split
  · exact .refl _
  · exact (foldl_works (State.takeEdge_works i rise t) _ _).trans (State.flushUnits_flows _ t).works

theorem State.lanEdge_levels (s : State) (i : Nat) (rise : Bool) (t : Nat) :
    (s.lanEdge i rise t).lan.levels = kset s.lan.levels i rise false :=
  (s.lanEdge_works i rise t).levels.trans
    (congrArg (fun m => kset m i rise false) (s.settlePatterns_flows t).works.levels)

theorem State.lanEdge_frame (s : State) (i : Nat) (rise : Bool) (t : Nat) :
    s.lanEdge i rise t = { s with
      regs := (s.lanEdge i rise t).regs, out := (s.lanEdge i rise t).out, lan := (s.lanEdge i rise t).lan } := by
  rw [(s.lanEdge_works i rise t).frame]
  unfold State.setLevel
  rw [(s.settlePatterns_flows t).works.frame]

/-- An edge of a TRIGIN sets its source's level and leaves every other (R108). -/
theorem exec_triginEdge {s : State} (hs : s.dead = false) (p : Fin 2) (rise : Bool) (t : Nat) (hrun : s.running = true) :
    ∃ r, exec (.triginEdge p rise t) s = .next r ∧ kget r.lan.levels (256 + p.val) false = rise ∧
      (∀ i, i ≠ 256 + p.val → kget r.lan.levels i false = kget s.lan.levels i false) ∧
      r = { s.toDev t with regs := r.regs, out := r.out, lan := r.lan } := by
  let r := (s.toDev t).lanEdge (256 + p.val) rise t
  have hlevels : r.lan.levels = kset s.lan.levels (256 + p.val) rise false := by
    rw [State.lanEdge_levels, State.toDev_lan]
  have hframe : r = { s.toDev t with regs := r.regs, out := r.out, lan := r.lan } := State.lanEdge_frame _ _ _ _
  have hpending : r.pending = s.pending := by
    rw [hframe]
    exact s.toDev_pending t
  have hexec : exec (.triginEdge p rise t) s = .next r := by
    rw [exec_triginEdge_def]
    exact live_eq hs _ (if_neg (by simp [hrun])) hpending
  refine ⟨r, hexec, ?_, fun i hi => ?_, hframe⟩
  · rw [hlevels]
    exact kget_kset_same ..
  · rw [hlevels]
    exact kget_kset_ne _ _ _ _ hi

/-! ### Timeouts and durations (R112) -/

/-- The state after the timeout `d` of condition `c`: it is due no more, and its event goes to the units. -/
def State.timedOut (s : State) (c d : Nat) : State :=
  ((s.setCond c { s.cond c with due := none }).pushEvents [⟨d, c, d / cycle * cycle, {}⟩]).flushUnits d

theorem State.timedOut_works (s : State) (c d : Nat) : LanWorks s (s.timedOut c d) :=
  (s.setCond_works c _).trans ((State.pushEvents_flows _ _).trans (State.flushUnits_flows _ _)).works

/-- Where no condition has edges to judge, the timeout changes the conditions by its own expiry only. -/
theorem State.timedOut_cond {s : State} (hclean : ∀ k : Fin 16, (s.cond k).dirty = none) (c : Fin 16) (d : Nat)
    (k : Fin 16) : (s.timedOut c d).cond k = (s.setCond c { s.cond c with due := none }).cond k := by
  have hflow : LanFlows (s.setCond c { s.cond c with due := none }) (s.timedOut c d) :=
    (State.pushEvents_flows _ _).trans (State.flushUnits_flows _ _)
  refine hflow.clean k ?_
  by_cases hk : k.val = c.val
  · rw [hk, State.cond_setCond_same]
    exact hclean c
  · rw [State.cond_setCond_ne _ _ hk]
    exact hclean k

/-- A timeout or a pattern's duration that expires is due no more, and no level changes (R112). -/
theorem exec_lanternTimeout {s : State} (hs : s.dead = false) {c : Fin 16} {d : Nat}
    (hsrc : (srcOf (condCfg s.act c).src).level?.isSome = true) (hdue : (s.cond c).due = some d)
    (hused : condUsed s.act c = true) (hclean : ∀ k : Fin 16, (s.cond k).dirty = none) :
    ∃ r, exec (.lanternTimeout c) s = .next r ∧ r.cond c = { s.cond c with due := none } ∧
      (∀ k : Fin 16, k ≠ c → r.cond k = s.cond k) ∧ r.lan.levels = s.lan.levels ∧
      r = { s.toDev d with regs := r.regs, out := r.out, lan := r.lan } := by
  let v := s.toDev d
  have hvclean : ∀ k : Fin 16, (v.cond k).dirty = none := fun k => by rw [s.toDev_cond d k, hclean k]
  have hworks : LanWorks v (v.timedOut c d) := v.timedOut_works c d
  have hbody : (if (!condUsed s.act c) = true then s
      else if ((v.settlePatterns (d + 1)).cond c).due ≠ some d then v.settlePatterns (d + 1)
      else (v.settlePatterns (d + 1)).timedOut c d) = v.timedOut c d := by
    have hstands : ¬ (v.cond c).due ≠ some d := fun h => h (by rw [s.toDev_cond d c, hdue])
    rw [State.settlePatterns_clean hvclean, if_neg (by rw [hused]; decide), if_neg hstands]
  have hexec : exec (.lanternTimeout c) s = .next (v.timedOut c d) := by
    rw [exec_lanternTimeout_def]
    unfold execLanternTimeout
    refine live_eq hs _ ?_ (hworks.pending.trans (s.toDev_pending d))
    dsimp only
    rw [hdue]
    cases hcase : srcOf (condCfg s.act c).src with
    | ain n => rw [hcase] at hsrc; cases hsrc
    | tl i => rw [hcase] at hsrc; cases hsrc
    | bad => rw [hcase] at hsrc; cases hsrc
    | mk i => exact hbody
    | trig i => exact hbody
    | gin n => exact hbody
  refine ⟨_, hexec, ?_, fun k hk => ?_, ?_, hworks.frame⟩
  · rw [State.timedOut_cond hvclean, State.cond_setCond_same, s.toDev_cond]
  · rw [State.timedOut_cond hvclean, State.cond_setCond_ne _ _ (fun h => hk (Fin.ext h)), s.toDev_cond]
  · rw [hworks.levels, s.toDev_lan]

/-! ### Sequences (R118) -/

/-- A sequence whose next stage does not come in time resets. -/
theorem exec_sequenceTimeout {s : State} (hs : s.dead = false) {u : Fin 8} (hstage : (s.unit u).stage ≠ 0)
    (htmax : s.lan.unitAct.rd F.LANTERN_UNITu_SEQ_TMAX_T u 0 ≠ 0) (hq : s.lan.queue = [])
    (hclean : ∀ k : Fin 16, (s.cond k).dirty = none) {e : Nat}
    (he : (s.unit u).stageT + s.lan.unitAct.rd F.LANTERN_UNITu_SEQ_TMAX_T u 0 * 256 = e)
    (hlim : e < (s.toDev e).lanHorizon.getD (s.toDev e).lanEnd) :
    ∃ r, exec (.sequenceTimeout u) s = .next r ∧ r = { s.toDev e with lan := r.lan } ∧
      r.unit u = { s.unit u with stage := 0 } ∧ (∀ w : Fin 8, w ≠ u → r.unit w = s.unit w) := by
  let v := s.toDev e
  have hidle : v.flushUnits (e + 1) = v := by
    refine State.flushUnits_idle (fun k => ?_) ?_ _
    · rw [s.toDev_cond e k, hclean k]
    · rw [s.toDev_lan, hq]
  have hexec : exec (.sequenceTimeout u) s = .next (v.setUnit u { s.unit u with stage := 0 }) := by
    rw [exec_sequenceTimeout_def]
    unfold execSequenceTimeout
    refine live_eq hs _ ?_ (s.toDev_pending e)
    simp only [he, hidle, v, s.toDev_unit, hstage, htmax, hlim, decide_true, decide_false, Bool.and_self, Bool.or_self,
      Bool.false_eq_true, if_false, if_true]
  refine ⟨_, hexec, rfl, State.unit_setUnit_same _ _ _, fun w hw => ?_⟩
  rw [State.unit_setUnit_ne _ _ (fun h => hw (Fin.ext h)), s.toDev_unit]

/-- Settles O39: each command of Lantern's set-up and inputs, from what the units' work leaves alone. -/
theorem lanternTakesSetUpAndEdges : Obligations.LanternTakesSetUpAndEdges := by
  intro s hs
  refine ⟨fun v hv hnew => ⟨exec_lanternCommit_valid hv hnew hs, fun c => exec_lanternCommit_invalid hv hnew hs⟩,
    fun p => exec_lanternCommitApply hs, exec_triginEdge hs, fun c d => exec_lanternTimeout hs, ?_⟩
  intro u hstage htmax hq hclean e v
  exact exec_sequenceTimeout hs hstage htmax hq hclean rfl

/-! ### The host's stall while a line event comes (R67, R128) -/

/-- A job in the table whose completion ring the host holds back, on a device that runs. -/
def stalledRingState : State :=
  { running := true, host := { credit := false, jobs := [waitingJob], cqs := [(0, { enable := true })] } }

/-- The clock runs 2 µs to the line event, all of which the job's ring is stopped by the host. -/
theorem lineEvent_stalls :
    jobsOf (exec (.lineEvent 0 131072000) stalledRingState) = [{ waitingJob with stalls := [(0, 131072000)] }] := by
  decide +kernel

/-- Refutes O40: the clause on LINE_EVENT says that the job table stays as it was, but the command first runs the clock to the
event's time (R128), and the time that passes is host stall time of every job whose completion ring the host holds back
(R67). -/
theorem not_lanternMarksAndLines : ¬ Obligations.LanternMarksAndLines := by
  intro h
  obtain ⟨-, -, hline, -⟩ := h stalledRingState rfl
  obtain ⟨t, ht, -, -, hjobs, -⟩ := hline 0 131072000 rfl rfl rfl
  have hstalls := lineEvent_stalls
  rw [ht] at hstalls
  exact absurd (hjobs.symm.trans hstalls) (by decide)

end Sys2Proof.Machine
end

section
/-! PROOFS. The statements of the record-store family: captures and streams from admission to end, and SYNC. -/
namespace Sys2Proof.Machine

/-! ### Admission of captures and streams (R137, R164, R166, R167) -/

/-- The writer's registers follow the writer (R170); nothing but the register file changes. -/
theorem State.writerRegs_frame (s : State) (n : Nat) : s.writerRegs n = { s with regs := (s.writerRegs n).regs } := by
  unfold State.writerRegs State.wr
  dsimp only
  split <;> rfl

section
variable {s : State} {j : Job} {d : Demand} {rd rh b : Nat} {dur : Option Nat} {chans : List (Nat × Nat)}

theorem exec_captureArm_def (s : State) : exec .captureArm s = execCaptureArm s := rfl

theorem exec_streamOpen_def (s : State) : exec .streamOpen s = execStreamOpen s := rfl

/-- CAPTURE_ARM, admitted (R137, R164). -/
theorem exec_captureArm_granted (hdec : Decides s j 0x01) (hgrant : s.judge j (s.armPlan j) = .granted d rd rh b dur chans) :
    ∃ t k, exec .captureArm s = .next t ∧
      t = { s with regs := t.regs, out := t.out, host := t.host, record := t.record } ∧
      t.record = { s.record with capts := s.record.capts ++ [k] } ∧
      t.job? j.jid = some (admittedAs s j d rd rh b dur) ∧
      k.jid = j.jid ∧ k.sq = j.sq ∧ k.tag = j.tag ∧ k.input = j.bits 8 1 1 0 ∧ k.shape = j.bits 9 1 1 0 ∧
      k.unit = j.bits 9 1 6 4 ∧ k.pre = j.fld 16 6 ∧ k.post = j.fld 24 6 ∧ k.n = j.fld 32 3 + 1 ∧
      k.due = s.devTime + 131072000 ∧ k.words = [] ∧ k.table = [] ∧ k.ended = false ∧ k.armed = none := by
  obtain ⟨regs, out, host, hjob, hadm⟩ := State.admission_granted hdec hgrant
  rw [exec_captureArm_def]
  exact ⟨_, _, live_eq hdec.1 _ ((hadm _).trans (State.writerRegs_frame _ _)) (by rfl), rfl, rfl, hjob, rfl, rfl, rfl, rfl,
    rfl, rfl, rfl, rfl, rfl, rfl, rfl, rfl, rfl, rfl⟩

/-- STREAM_OPEN, admitted (R166). -/
theorem exec_streamOpen_granted (hdec : Decides s j 0x03) (hgrant : s.judge j (s.openPlan j) = .granted d rd rh b dur chans) :
    ∃ t k, exec .streamOpen s = .next t ∧
      t = { s with regs := t.regs, out := t.out, host := t.host, record := t.record } ∧
      t.record = { s.record with capts := s.record.capts ++ [k] } ∧
      t.job? j.jid = some (admittedAs s j d rd rh b dur) ∧
      k.jid = j.jid ∧ k.sq = j.sq ∧ k.tag = j.tag ∧ k.isStream = true ∧ k.input = j.bits 8 1 1 0 ∧
      k.mode = j.bits 9 1 2 0 ∧ k.limit = j.fld 16 4 ∧ k.due = s.devTime + 131072000 ∧ k.words = [] ∧ k.ended = false := by
  obtain ⟨regs, out, host, hjob, hadm⟩ := State.admission_granted hdec hgrant
  rw [exec_streamOpen_def]
  exact ⟨_, _, live_eq hdec.1 _ ((hadm _).trans (State.writerRegs_frame _ _)) (by rfl), rfl, rfl, hjob, rfl, rfl, rfl, rfl,
    rfl, rfl, rfl, rfl, rfl, rfl⟩

end

/-- Settles O27: both kinds put their capture or stream behind the others, from the state that their admission leaves. -/
theorem capturesAndStreamsAreOpened : Obligations.CapturesAndStreamsAreOpened := by
  intro s j d rd rh b dur chans
  exact ⟨exec_captureArm_granted, exec_streamOpen_granted⟩

/-! ### A STREAM_CLOSE without a stop time (R167) -/

/-- A running stream of ring 0 and TAG 8. -/
def runningStream : Capt := { jid := 1, sq := 0, tag := 8, input := 0, isStream := true }

/-- A STREAM_CLOSE of `runningStream` with STOP 1, RELEASE 0 and STOP_TIME 0. -/
def stopNowJob : Job := { jid := 2, sq := 0, cq := 0, desc := [0, 0, 0, 0, 9, 0, 4, 0, 8, 0, 0, 1] ++ zeros 52 }

/-- A device that is READY, 2 µs after the start of its device time, where `stopNowJob` is decided next. -/
def stopNowState : State :=
  { State.reset.setf F.GLOBAL_STATUS_READY with
    running := true, devTime := 131072000, record := { capts := [runningStream] }, host := { jobs := [stopNowJob] } }

/-- Whether a verdict admits. -/
def Verdict.admits : Verdict → Bool
  | .granted _ _ _ _ _ _ => true
  | .refused _ _ _ => false

theorem Verdict.admits_iff (v : Verdict) :
    v.admits = true ↔ ∃ d rd rh b dur chans, v = .granted d rd rh b dur chans := by
  cases v with
  | granted d rd rh b dur chans => exact ⟨fun _ => ⟨d, rd, rh, b, dur, chans, rfl⟩, fun _ => rfl⟩
  | refused st a x => exact ⟨nofun, fun ⟨_, _, _, _, _, _, h⟩ => nomatch h⟩

theorem stopNowJob_decides : Decides stopNowState stopNowJob 0x04 := by
  unfold Decides
  decide +kernel

theorem stopNowJob_admits :
    (stopNowState.judge stopNowJob (stopNowState.closePlan stopNowJob)).admits = true := by decide +kernel

theorem stopNowJob_target :
    stopNowState.captOf (stopNowJob.bits 10 1 5 0) (stopNowJob.fld 8 2) = some runningStream := by decide +kernel

/-- The stop times of the captures and streams in the state that an outcome answers. -/
def stopsOf : Host.Outcome State Fault Refusal → List (Option Nat)
  | .next t => t.record.capts.map (·.stopAt)
  | .fault _ => []
  | .refused _ => []

/-- The stream is to stop at the first word after the admission, 2 µs after the start of device time. -/
theorem streamClose_stopsNow : stopsOf (exec .streamClose stopNowState) = [some 131072000] := by decide +kernel

/-- Refutes O28: the target's stop time is said to be the STOP_TIME field, but a field of 0 names the first word after the
admission (R167), here at 131,072,000 ticks. -/
theorem not_streamCloseSetsTheStop : ¬ Obligations.StreamCloseSetsTheStop := by
  intro h
  obtain ⟨d, rd, rh, b, dur, chans, hgrant⟩ := (Verdict.admits_iff _).1 stopNowJob_admits
  obtain ⟨t, ht, -, hrecord, -⟩ :=
    h stopNowState stopNowJob runningStream d rd rh b dur chans stopNowJob_decides hgrant stopNowJob_target (by decide)
  have hstops := streamClose_stopsNow
  rw [ht] at hstops
  simp only [stopsOf, hrecord] at hstops
  exact absurd hstops (by decide +kernel)

/-! ### A window with an end but no trigger sample (R137, R151) -/

/-- A mark of unit `u` at time `t`. -/
def markOf (u t : Nat) : Mark := { stamp := t, number := 0, flags := 0, cond := 0, unit := u, lost := 0 }

/-- A gated capture of ring 0 and TAG 0, with a mark of its stop unit in the inbox. Of its two gates the first is open; the
second has an end, though its trigger sample is not yet known. -/
def strayEndCapture : Capt :=
  { jid := 1, sq := 0, tag := 0, input := 0, shape := 3, stopUnit := 1, armed := some 0, inbox := [markOf 1 2]
    wins := [{ mark := markOf 0 0 }, { mark := markOf 0 1, stop := some 64 }] }

/-- `strayEndCapture` on an input with one word in Penumbra, whose samples are later than the marks. -/
def strayEndState : State :=
  { record := { capts := [strayEndCapture]
                chs := [(0, { penN := 1, pen := [{ status := 0, smps := List.replicate 64 ⟨0, 5, (0, 0, 0)⟩ }] })] } }

/-- Whether a gate of the capture of job `jid` is open in the state that an outcome answers. -/
def gateOpenIn (jid : Nat) : Host.Outcome State Fault Refusal → Option Bool
  | .next t => (t.capt? jid).map (·.gateOpen)
  | .fault _ => none
  | .refused _ => none

/-- The stop mark closes the first gate; the second is placed with its end taken back, and is open. -/
theorem captureMark_strayEnd : gateOpenIn 1 (exec (.captureMark 0 0) strayEndState) = some true := by decide +kernel

/-- Refutes O41: the clause on the stop mark quantifies over every state, so also over those where a window has its end before
its trigger sample, which no placing of a window gives (R137). Such a gate counts as closed before the mark, and as open
once `placeWin` has found its trigger sample. -/
theorem not_capturesTakeMarksAndWriteEntries : ¬ Obligations.CapturesTakeMarksAndWriteEntries := by
  intro h
  obtain ⟨-, -, hstop, -⟩ := h strayEndState 0 0 strayEndCapture rfl (by decide +kernel) (by decide +kernel) rfl rfl (by decide)
  obtain ⟨t, k, ht, hk, -, -, -, -, hclosed⟩ :=
    hstop (markOf 1 2) [] 0 rfl rfl (by decide) rfl rfl (by decide) rfl (by decide)
  have hopen := captureMark_strayEnd
  rw [ht] at hopen
  have hk1 : t.capt? 1 = some k := hk
  simp only [gateOpenIn, hk1, Option.map_some, hclosed] at hopen
  exact absurd hopen (by decide)

/-! ### What leaves the captures alone -/

/-- From `s` to `t` device time, the active set-up, the captures and streams, and the reservations of held data stay. -/
structure CaptsKept (s t : State) : Prop where
  devTime : t.devTime = s.devTime
  act : t.act = s.act
  capts : t.record.capts = s.record.capts
  kept : t.host.kept = s.host.kept

theorem CaptsKept.refl (s : State) : CaptsKept s s := ⟨rfl, rfl, rfl, rfl⟩

theorem CaptsKept.trans {s u t : State} (h : CaptsKept s u) (h' : CaptsKept u t) : CaptsKept s t :=
  ⟨h'.devTime.trans h.devTime, h'.act.trans h.act, h'.capts.trans h.capts, h'.kept.trans h.kept⟩

theorem CaptsKept.ite {c : Prop} [Decidable c] {s t u : State} (ht : CaptsKept s t) (hu : CaptsKept s u) :
    CaptsKept s (if c then t else u) := by
  split
  · exact ht
  · exact hu

theorem foldl_captsKept {α : Type} {f : State → α → State} (hf : ∀ s a, CaptsKept s (f s a)) (l : List α) (s : State) :
    CaptsKept s (l.foldl f s) := foldl_relates .refl .trans hf l s

theorem CaptsKept.capt? {s t : State} (h : CaptsKept s t) (i : Nat) : t.capt? i = s.capt? i := by
  unfold State.capt?
  rw [h.capts]

/-! #### Registers, events and the ledger -/

theorem State.wr_captsKept (s : State) (f : Fld) (v i j : Nat) : CaptsKept s (s.wr f v i j) := ⟨rfl, rfl, rfl, rfl⟩

theorem State.setf_captsKept (s : State) (f : Fld) (i j : Nat) : CaptsKept s (s.setf f i j) := s.wr_captsKept f 1 i j

theorem State.clrf_captsKept (s : State) (f : Fld) (i j : Nat) : CaptsKept s (s.clrf f i j) := s.wr_captsKept f 0 i j

theorem State.count_captsKept (s : State) (f : Fld) (n i j : Nat) : CaptsKept s (s.count f n i j) :=
  s.wr_captsKept f _ i j

theorem State.wr64_captsKept (s : State) (lo hi : Fld) (v i : Nat) : CaptsKept s (s.wr64 lo hi v i) :=
  (s.wr_captsKept lo _ i 0).trans (State.wr_captsKept _ hi _ i 0)

theorem State.emit_captsKept (s : State) (o : Output) : CaptsKept s (s.emit o) := ⟨rfl, rfl, rfl, rfl⟩

theorem State.signal_captsKept (s : State) (v : Nat) : CaptsKept s (s.signal v) :=
  ⟨s.signal_devTime v, s.signal_act v, by rw [s.signal_record v], by rw [s.signal_host v]⟩

theorem State.raise_captsKept (s : State) (sev code src d0 d1 : Nat) : CaptsKept s (s.raise sev code src d0 d1) :=
  ⟨s.raise_devTime .., s.raise_act .., by rw [s.raise_record], by rw [s.raise_host]⟩

theorem State.ledgerQueue_captsKept (s : State) (f : Nat) : CaptsKept s (s.ledgerQueue f) :=
  .ite ⟨rfl, rfl, rfl, rfl⟩ (.refl s)

theorem State.ledgerRegs_captsKept (s : State) : CaptsKept s s.ledgerRegs :=
  (((s.wr_captsKept _ _ _ _).trans (State.wr_captsKept _ _ _ _ _)).trans (State.wr_captsKept _ _ _ _ _)).trans
    (State.wr_captsKept _ _ _ _ _)

theorem State.ledgerCheck_captsKept (s : State) : CaptsKept s s.ledgerCheck :=
  (foldl_captsKept State.ledgerQueue_captsKept (List.range 27) s).trans (State.ledgerRegs_captsKept _)

theorem State.setLedger_captsKept (s : State) (l : LedgerSt) : CaptsKept s { s with ledger := l } := ⟨rfl, rfl, rfl, rfl⟩

theorem State.ledgerAdd_captsKept (s : State) (k n : Nat) : CaptsKept s (s.ledgerAdd k n) := by
  unfold State.ledgerAdd
  exact (s.setLedger_captsKept _).trans (State.ledgerCheck_captsKept _)

/-! #### Records and the end of a job -/

theorem State.updJob_captsKept (s : State) (jid : Nat) (f : Job → Job) : CaptsKept s (s.updJob jid f) :=
  ⟨rfl, rfl, rfl, rfl⟩

theorem State.setCq_captsKept (s : State) (m : Nat) (r : CqRing) : CaptsKept s (s.setCq m r) := ⟨rfl, rfl, rfl, rfl⟩

theorem State.setChan_captsKept (s : State) (c : Nat) (x : Chan) : CaptsKept s (s.setChan c x) := ⟨rfl, rfl, rfl, rfl⟩

theorem State.dropJob_captsKept (s : State) (j : Job) : CaptsKept s (s.dropJob j) := ⟨rfl, rfl, rfl, rfl⟩

theorem State.signalCq_captsKept (s : State) (m : Nat) : CaptsKept s (s.signalCq m) :=
  (s.setCq_captsKept m _).trans (State.signal_captsKept _ _)

theorem State.issueRec_captsKept (s : State) (m : Nat) (r : Rec) : CaptsKept s (s.issueRec m r) := by
  unfold State.issueRec
  split
  · exact .refl s
  · next j _ =>
    extract_lets q size late stall status w slot body word written counted dropped irq
    have hwritten : CaptsKept s written :=
      ((s.emit_captsKept _).trans (body.emit_captsKept _)).trans (word.setCq_captsKept m _)
    have hcounted : CaptsKept written counted :=
      .ite ((written.count_captsKept _ _ _ _).trans (State.ledgerAdd_captsKept _ _ _)) (.refl _)
    have hdropped : CaptsKept counted dropped := .ite (counted.dropJob_captsKept j) (.refl _)
    exact ((hwritten.trans hcounted).trans hdropped).trans (.ite (dropped.signalCq_captsKept m) (.refl _))

theorem State.putRec_captsKept (s : State) (r : Rec) : CaptsKept s (s.putRec r) := by
  unfold State.putRec
  cases s.job? r.jid with
  | none => exact .refl s
  | some j => exact .ite (s.issueRec_captsKept _ r) (s.setCq_captsKept _ _)

theorem State.abortsDone_captsKept (s : State) (n : Nat) : CaptsKept s (s.abortsDone n) := by
  induction n generalizing s with
  | zero => exact .refl s
  | succ n ih =>
    unfold State.abortsDone
    cases s.abortReady with
    | none => exact .refl s
    | some j => exact ((s.updJob_captsKept _ _).trans (State.putRec_captsKept _ _)).trans (ih _)

theorem State.sendRec_captsKept (s : State) (r : Rec) : CaptsKept s (s.sendRec r) :=
  (s.putRec_captsKept r).trans (.ite (State.abortsDone_captsKept _ _) (.refl _))

theorem State.tryFinal_captsKept (s : State) (jid : Nat) : CaptsKept s (s.tryFinal jid) := by
  unfold State.tryFinal
  cases s.job? jid with
  | none => exact .refl s
  | some j =>
    have hread := (s.updJob_captsKept jid fun j => { j with zeroRead := true }).trans (State.emit_captsKept _ .zeroRead)
    have hsent := (s.updJob_captsKept jid fun j => { j with finalSent := true }).trans
      (State.sendRec_captsKept _ j.finalRec)
    exact .ite (.refl s) (.ite (.refl s) (.ite (.refl s) (.ite hread hsent)))

theorem State.endJob_captsKept (s : State) (jid : Nat) (f : Job → Job) : CaptsKept s (s.endJob jid f) :=
  (s.updJob_captsKept jid _).trans (State.tryFinal_captsKept _ jid)

theorem State.settle_captsKept (s : State) (jid : Nat) : CaptsKept s (s.settle jid) := by
  unfold State.settle
  cases s.job? jid with
  | none => exact .refl s
  | some j => exact .ite (s.endJob_captsKept jid id) (.refl s)

/-! #### Elements and producers -/

theorem State.tryReady_captsKept (s : State) (c : Nat) : CaptsKept s (s.tryReady c) := by
  unfold State.tryReady
  refine .ite (.refl s) ?_
  cases s.nextElem c with
  | none => exact .refl s
  | some e => exact .ite ((s.setChan_captsKept c _).trans (State.updJob_captsKept _ _ _)) (.refl s)

theorem State.queueElems_captsKept (s : State) (jid c : Nat) (es : List Elem) : CaptsKept s (s.queueElems jid c es) :=
  (s.updJob_captsKept jid _).trans (State.tryReady_captsKept _ c)

theorem State.produce_captsKept (s : State) (jid : Nat) (d : Bytes) : CaptsKept s (s.produce jid d) :=
  (s.updJob_captsKept jid _).trans (foldl_captsKept State.tryReady_captsKept _ _)

theorem State.anchorNow_captsKept (s : State) (jid : Nat) : CaptsKept s (s.anchorNow jid) := s.updJob_captsKept jid _

theorem State.dryEnd_captsKept (s : State) (jid : Nat) : CaptsKept s (s.dryEnd jid) :=
  (s.updJob_captsKept jid _).trans (State.settle_captsKept _ jid)

theorem State.closeProducer_captsKept (s : State) (jid : Nat) : CaptsKept s (s.closeProducer jid) :=
  (((s.updJob_captsKept jid _).trans (State.anchorNow_captsKept _ jid)).trans
    (foldl_captsKept State.tryReady_captsKept _ _)).trans (State.dryEnd_captsKept _ jid)

/-! #### Runs of tiles that the source of a job feeds -/

theorem State.onTile_captsKept (s : State) (n : Nat) (f : TileSt → TileSt) : CaptsKept s (s.onTile n f) :=
  ⟨rfl, rfl, rfl, rfl⟩

theorem State.onRun_captsKept (s : State) (jid : Nat) (f : RunSt → RunSt) : CaptsKept s (s.onRun jid f) :=
  ⟨rfl, rfl, rfl, rfl⟩

theorem State.dropRun_captsKept (s : State) (jid : Nat) : CaptsKept s (s.dropRun jid) := by
  unfold State.dropRun
  cases s.run? jid with
  | none => exact .refl s
  | some r =>
    refine CaptsKept.trans (foldl_captsKept (fun s n => ?_) _ s) ⟨rfl, rfl, rfl, rfl⟩
    exact (s.onTile_captsKept n _).trans (State.clrf_captsKept _ _ n 0)

theorem State.settleRun_captsKept (s : State) (jid : Nat) : CaptsKept s (s.settleRun jid) := by
  unfold State.settleRun
  split
  · exact .ite ((s.dropRun_captsKept jid).trans (State.endJob_captsKept _ jid _)) (.refl s)
  · exact .refl s

theorem State.checkRun_captsKept (s : State) (jid : Nat) : CaptsKept s (s.checkRun jid) := by
  unfold State.checkRun
  cases s.run? jid with
  | none => exact .refl s
  | some r => exact .ite ((s.updJob_captsKept jid _).trans (State.settleRun_captsKept _ jid)) (.refl s)

theorem State.noteDry_captsKept (s : State) (r : RunSt) (n : Nat) : CaptsKept s (s.noteDry r n) :=
  .ite (.refl s) (((s.onTile_captsKept n _).trans (.ite (State.anchorNow_captsKept _ _) (.refl _))).trans
    (State.checkRun_captsKept _ _))

theorem State.sourceEnded_captsKept (s : State) (jid : Nat) : CaptsKept s (s.sourceEnded jid) := by
  unfold State.sourceEnded
  refine foldl_captsKept (fun s r => ?_) _ s
  exact (s.onRun_captsKept r.jid _).trans (foldl_captsKept (fun s n => s.noteDry_captsKept _ n) _ _)

/-! #### Reads of segments (R168, R169) -/

theorem State.updRead_captsKept (s : State) (jid : Nat) (f : SegRd → SegRd) : CaptsKept s (s.updRead jid f) :=
  ⟨rfl, rfl, rfl, rfl⟩

theorem State.queueSeg_captsKept (s : State) (r : SegRd) (ent len : Nat) (gap : Bool) (nwords : Nat) :
    CaptsKept s (s.queueSeg r ent len gap nwords) :=
  (s.queueElems_captsKept r.jid _ _).trans (State.updRead_captsKept _ r.jid _)

theorem State.readQueued_captsKept (s : State) (r : SegRd) : CaptsKept s (s.readQueued r) :=
  ((s.updRead_captsKept r.jid _).trans (State.updJob_captsKept _ r.jid _)).trans (State.settle_captsKept _ r.jid)

theorem State.pumpRead0_captsKept (s : State) (jid n : Nat) : CaptsKept s (s.pumpRead0 jid n) := by
  induction n generalizing s with
  | zero => exact .refl s
  | succ n ih =>
    unfold State.pumpRead0
    split
    · exact .refl s
    · next r _ =>
      refine .ite (s.readQueued_captsKept r) ?_
      split
      · exact s.readQueued_captsKept r
      · have hnext (u : State) (f : SegRd → SegRd) : CaptsKept u ((u.updRead jid f).pumpRead0 jid n) :=
          (u.updRead_captsKept jid f).trans (ih _)
        refine .ite ?_ (.ite ?_ (.refl s))
        · split
          · exact (s.queueSeg_captsKept r _ _ _ _).trans (hnext _ _)
          · exact (s.updRead_captsKept jid _).trans (hnext _ _)
        · have hmap (u : State) (c : Nat) (es : List Elem) :
              CaptsKept u (if r.mapAt = 0 then u else u.queueElems jid c es) := .ite (.refl u) (u.queueElems_captsKept jid c es)
          exact (((s.updRead_captsKept jid _).trans (hmap _ _ _)).trans (State.updRead_captsKept _ jid _)).trans (hnext _ _)

theorem State.pumpRead1_captsKept (s : State) (r : SegRd) : CaptsKept s (s.pumpRead1 r) := by
  unfold State.pumpRead1
  split
  · exact s.readQueued_captsKept r
  · split
    · exact .ite ((s.updRead_captsKept r.jid _).trans (State.readQueued_captsKept _ r)) (.refl s)
    · exact .ite (((s.updRead_captsKept r.jid _).trans (State.queueSeg_captsKept _ _ _ _ _ _)).trans
        (State.readQueued_captsKept _ r)) (.refl s)

theorem State.pumpReads_captsKept (s : State) (cap : Nat) : CaptsKept s (s.pumpReads cap) :=
  foldl_captsKept (fun s r => .ite (s.pumpRead1_captsKept r) (s.pumpRead0_captsKept r.jid _)) _ s

/-! #### Penumbra, the record registers and Afterglow -/

theorem State.setRch_captsKept (s : State) (n : Nat) (x : RecCh) : CaptsKept s (s.setRch n x) := ⟨rfl, rfl, rfl, rfl⟩

theorem State.setAg_captsKept (s : State) (n : Nat) (x : AgCh) : CaptsKept s (s.setAg n x) := ⟨rfl, rfl, rfl, rfl⟩

theorem State.recordRegs_captsKept (s : State) : CaptsKept s s.recordRegs :=
  ((s.wr_captsKept _ _ _ _).trans (State.wr_captsKept _ _ _ _ _)).trans
    (foldl_captsKept (fun s n => s.wr_captsKept _ _ n 0) _ _)

theorem State.writerRegs_captsKept (s : State) (n : Nat) : CaptsKept s (s.writerRegs n) := by
  rw [s.writerRegs_frame n]
  exact ⟨rfl, rfl, rfl, rfl⟩

theorem State.setDec_captsKept (s : State) (n mode factor bits : Nat) : CaptsKept s (s.setDec n mode factor bits) :=
  (s.setRch_captsKept n _).trans (State.writerRegs_captsKept _ n)

theorem State.agWord_captsKept (s : State) (n pre : Nat) (w : Win) (g : Nat) (x : SWord) :
    CaptsKept s (s.agWord n pre w g x) := by
  unfold State.agWord
  refine .ite (.refl s) (.ite (s.count_captsKept _ _ _ _) (.ite (.refl s) ?_))
  exact (s.setAg_captsKept n _).trans
    (.ite (.refl _) ((State.count_captsKept _ _ _ _ _).trans (State.setf_captsKept _ _ _ _)))

theorem State.raiseFree_captsKept (s : State) (code src d0 d1 : Nat) : CaptsKept s (s.raiseFree code src d0 d1) :=
  have hfresh : CaptsKept s s.fresh.2 := ⟨rfl, rfl, rfl, rfl⟩
  hfresh.trans (State.raise_captsKept _ _ _ _ _ _)

theorem State.agClose_captsKept (s : State) (n pre : Nat) (w : Win) (words : List StW) :
    CaptsKept s (s.agClose n pre w words) := by
  unfold State.agClose
  refine .ite (.refl s) ?_
  extract_lets +onlyGivenNames h counted wide widened a tested hit
  have hwidened : CaptsKept s widened := (s.count_captsKept _ _ _ _).trans (.ite (counted.count_captsKept _ _ _ _) (.refl _))
  have htested : CaptsKept s tested := hwidened.trans (widened.wr_captsKept _ _ _ _)
  refine .ite hwidened ?_
  clear_value hit
  split
  · exact htested
  · refine (htested.trans ((State.wr_captsKept _ _ _ _ _).trans (State.setf_captsKept _ _ _ _))).trans
      (CaptsKept.trans (.ite (.refl _) ?_) (State.raiseFree_captsKept _ _ _ _ _))
    exact ((((State.wr64_captsKept _ _ _ _ _).trans (State.wr_captsKept _ _ _ _ _)).trans
      (State.wr_captsKept _ _ _ _ _)).trans (State.wr_captsKept _ _ _ _ _)).trans (State.setAg_captsKept _ _ _)

/-! ### What a running capture or stream keeps -/

/-- The store's work on `k` leaves it its job, its input, its place in the store and what is to become of it. -/
structure Capt.Lasts (k k' : Capt) : Prop where
  jid : k'.jid = k.jid
  input : k'.input = k.input
  space : k'.space = k.space
  ended : k'.ended = k.ended
  release : k'.release = k.release

theorem Capt.Lasts.refl (k : Capt) : k.Lasts k := ⟨rfl, rfl, rfl, rfl, rfl⟩

theorem Capt.Lasts.trans {k l m : Capt} (h : k.Lasts l) (h' : l.Lasts m) : k.Lasts m :=
  ⟨h'.jid.trans h.jid, h'.input.trans h.input, h'.space.trans h.space, h'.ended.trans h.ended, h'.release.trans h.release⟩

theorem Capt.addEnt_lasts (k : Capt) (e : SegEnt) : k.Lasts (k.addEnt e) := by
  unfold Capt.addEnt
  dsimp only
  split
  · exact ⟨rfl, rfl, rfl, rfl, rfl⟩
  · exact ⟨rfl, rfl, rfl, rfl, rfl⟩

theorem followWord_lasts (k : Capt) (x : StW) : k.Lasts (followWord k x).1 := by
  unfold followWord
  dsimp only
  split
  · exact ⟨rfl, rfl, rfl, rfl, rfl⟩
  · exact ⟨rfl, rfl, rfl, rfl, rfl⟩

/-- From `s` to `t` the store works on the capture or stream of job `jid`, which lasts; device time, the active set-up and
the reservations of held data stay. -/
structure CaptWorks (jid : Nat) (s t : State) : Prop where
  devTime : t.devTime = s.devTime
  act : t.act = s.act
  kept : t.host.kept = s.host.kept
  lasts : ∀ k, s.capt? jid = some k → ∃ k', t.capt? jid = some k' ∧ k.Lasts k'

theorem CaptWorks.refl (jid : Nat) (s : State) : CaptWorks jid s s := ⟨rfl, rfl, rfl, fun k hk => ⟨k, hk, .refl k⟩⟩

theorem CaptWorks.trans {jid : Nat} {s u t : State} (h : CaptWorks jid s u) (h' : CaptWorks jid u t) :
    CaptWorks jid s t := by
  refine ⟨h'.devTime.trans h.devTime, h'.act.trans h.act, h'.kept.trans h.kept, fun k hk => ?_⟩
  obtain ⟨l, hl, hkl⟩ := h.lasts k hk
  obtain ⟨m, hm, hlm⟩ := h'.lasts l hl
  exact ⟨m, hm, hkl.trans hlm⟩

theorem CaptWorks.ite {jid : Nat} {c : Prop} [Decidable c] {s t u : State} (ht : CaptWorks jid s t)
    (hu : CaptWorks jid s u) : CaptWorks jid s (if c then t else u) := by
  split
  · exact ht
  · exact hu

theorem CaptsKept.works {s t : State} (h : CaptsKept s t) (jid : Nat) : CaptWorks jid s t :=
  ⟨h.devTime, h.act, h.kept, fun k hk => ⟨k, (h.capt? jid).trans hk, .refl k⟩⟩

theorem foldl_captWorks {α : Type} {jid : Nat} {f : State → α → State} (hf : ∀ s a, CaptWorks jid s (f s a)) (l : List α)
    (s : State) : CaptWorks jid s (l.foldl f s) := foldl_relates (.refl jid) .trans hf l s

/-! #### Looking a capture up -/

/-- `s` with every capture and stream changed by `g`. -/
def State.mapCapts (s : State) (g : Capt → Capt) : State :=
  { s with record := { s.record with capts := s.record.capts.map g } }

theorem State.updCapt_eq_mapCapts (s : State) (jid : Nat) (f : Capt → Capt) :
    s.updCapt jid f = s.mapCapts fun k => if k.jid = jid then f k else k := rfl

theorem State.capt?_jid {s : State} {jid : Nat} {k : Capt} (h : s.capt? jid = some k) : k.jid = jid :=
  of_decide_eq_true (List.find?_some (p := fun x : Capt => decide (x.jid = jid)) h)

theorem State.capt?_mapCapts (s : State) {g : Capt → Capt} (hg : ∀ x, (g x).jid = x.jid) (i : Nat) :
    (s.mapCapts g).capt? i = (s.capt? i).map g := by
  have hsame : (fun x : Capt => decide (x.jid = i)) ∘ g = fun x => decide (x.jid = i) :=
    funext fun x => congrArg (fun n => decide (n = i)) (hg x)
  have hfind : (s.record.capts.map g).find? (fun x => decide (x.jid = i)) =
      (s.record.capts.find? (fun x => decide (x.jid = i))).map g := by rw [List.find?_map, hsame]
  exact hfind

/-- An update that keeps the job of the captures it changes keeps that of every one. -/
theorem Capt.jid_updated {jid : Nat} {f : Capt → Capt} (hf : ∀ x, x.jid = jid → (f x).jid = jid) (x : Capt) :
    (if x.jid = jid then f x else x).jid = x.jid := by
  split
  · next hx => rw [hf x hx, hx]
  · rfl

/-- The capture looked up after an update of it is the updated capture. -/
theorem State.capt?_updCapt {s : State} {jid : Nat} {k : Capt} (h : s.capt? jid = some k) {f : Capt → Capt}
    (hf : ∀ x, x.jid = jid → (f x).jid = jid) : (s.updCapt jid f).capt? jid = some (f k) := by
  rw [s.updCapt_eq_mapCapts, s.capt?_mapCapts (Capt.jid_updated hf), h]
  exact congrArg some (if_pos (State.capt?_jid h))

theorem State.capt?_updCapt_ne (s : State) {jid i : Nat} (hi : i ≠ jid) {f : Capt → Capt}
    (hf : ∀ x, x.jid = jid → (f x).jid = jid) : (s.updCapt jid f).capt? i = s.capt? i := by
  rw [s.updCapt_eq_mapCapts, s.capt?_mapCapts (Capt.jid_updated hf)]
  cases h : s.capt? i with
  | none => rfl
  | some k => exact congrArg some (if_neg (State.capt?_jid h ▸ hi))

theorem State.mapCapts_works (s : State) {g : Capt → Capt} (hg : ∀ x : Capt, x.Lasts (g x)) (jid : Nat) :
    CaptWorks jid s (s.mapCapts g) :=
  ⟨rfl, rfl, rfl, fun k hk => ⟨g k, by rw [s.capt?_mapCapts fun x => (hg x).jid, hk]; rfl, hg k⟩⟩

theorem State.updCapt_works (s : State) (jid : Nat) {f : Capt → Capt} (hf : ∀ x : Capt, x.Lasts (f x)) :
    CaptWorks jid s (s.updCapt jid f) := by
  refine s.mapCapts_works (fun x => ?_) jid
  split
  · exact hf x
  · exact .refl x

/-- Replacing the capture that stands by one that it lasts as. -/
theorem State.replaceCapt_works {s : State} {k k' : Capt} (hk : s.capt? k.jid = some k) (h : k.Lasts k') :
    CaptWorks k.jid s (s.updCapt k.jid fun _ => k') := by
  refine ⟨rfl, rfl, rfl, fun l hl => ⟨k', State.capt?_updCapt hk fun _ _ => h.jid, ?_⟩⟩
  obtain rfl : k = l := Option.some.inj (hk.symm.trans hl)
  exact h

/-! #### Words into the store (R139, R140) -/

theorem State.feedFollower_works {s : State} {k : Capt} (hk : s.capt? k.jid = some k) (x : StW) :
    CaptWorks k.jid s (s.feedFollower k x) := by
  unfold State.feedFollower
  split
  · exact .refl _ s
  · refine .ite (.refl _ s) ?_
    exact ((State.replaceCapt_works hk (followWord_lasts k _)).trans
      (.ite ((State.updJob_captsKept _ _ _).works _) (.refl _ _))).trans ((State.produce_captsKept _ _ _).works _)

theorem State.storeWord_works (s : State) (jid g : Nat) (w : SWord) : CaptWorks jid s (s.storeWord jid g w) := by
  unfold State.storeWord
  split
  · exact .refl jid s
  · next k _ =>
    extract_lets +onlyGivenNames ws r stored record marked t stamped counted
    have hstored : CaptWorks jid s stored := s.updCapt_works jid fun x => ⟨rfl, rfl, rfl, rfl, rfl⟩
    have hmarked : CaptWorks jid stored marked := by
      refine .ite (stored.mapCapts_works (fun x => ?_) jid) (.refl jid _)
      split
      · exact ⟨rfl, rfl, rfl, rfl, rfl⟩
      · exact .refl x
    have hcounted : CaptWorks jid marked counted :=
      ((marked.wr64_captsKept _ _ _ _).trans (stamped.wr64_captsKept _ _ _ _)).works jid
    have hwritten := (hstored.trans hmarked).trans hcounted
    refine .ite (hwritten.trans ?_) hwritten
    split
    · next k' hk' =>
      obtain rfl := State.capt?_jid hk'
      exact State.feedFollower_works hk' _
    · exact .refl jid _

theorem State.writeWin_works (s : State) (jid : Nat) (w : Win) : CaptWorks jid s (s.writeWin jid w) := by
  unfold State.writeWin
  split
  · refine .ite (.refl jid s) ?_
    have hstored (l : List StW) := foldl_captWorks (fun s (x : StW) => s.storeWord_works jid x.g x.w) l s
    refine .ite (hstored _) (((hstored _).trans ((foldl_captsKept (fun s x => ?_) _ _).works jid)).trans
      (State.updCapt_works _ jid fun x => ⟨rfl, rfl, rfl, rfl, rfl⟩))
    exact s.agWord_captsKept _ _ w _ _
  · exact .refl jid s

/-! #### Entries (R142, R145, R153) -/

theorem State.closeGap_works (s : State) (jid : Nat) : CaptWorks jid s (s.closeGap jid) := by
  unfold State.closeGap
  split
  · exact .refl jid s
  · split
    · exact .refl jid s
    · refine CaptWorks.trans (s.updCapt_works jid fun x => ?_) ((State.pumpReads_captsKept _ jid).works jid)
      exact (x.addEnt_lasts _).trans ⟨rfl, rfl, rfl, rfl, rfl⟩

theorem State.closeWin_works (s : State) (jid : Nat) (w : Win) (stop : Nat) (trunc stopped : Bool) :
    CaptWorks jid s (s.closeWin jid w stop trunc stopped) := by
  unfold State.closeWin
  split
  · exact .refl jid s
  · extract_lets +onlyGivenNames n cut
    have hcut : CaptWorks jid s cut := .ite (s.updCapt_works jid fun x => ⟨rfl, rfl, rfl, rfl, rfl⟩) (.refl jid s)
    extract_lets +onlyGivenNames st ws total lo hi smps has ts peak sp first gone e late flagged entered
    have hentered : CaptWorks jid cut entered := by
      refine cut.updCapt_works jid fun x => ?_
      extract_lets +onlyGivenNames shared
      have hshared : x.Lasts shared := ⟨rfl, rfl, rfl, rfl, rfl⟩
      exact (hshared.trans (shared.addEnt_lasts e)).trans ⟨rfl, rfl, rfl, rfl, rfl⟩
    refine (hcut.trans hentered).trans (((((entered.count_captsKept _ _ _ _).trans (.ite (State.count_captsKept _ _ _ _ _)
      (.refl _))).trans (.ite (CaptsKept.trans (.ite (foldl_captsKept (fun s x => ?_) _ _) (.refl _))
      (State.agClose_captsKept _ _ _ _ _)) (.refl _))).trans (State.pumpReads_captsKept _ jid)).works jid)
    exact s.agWord_captsKept _ _ _ _ _

theorem State.closeAll_works (s : State) (jid : Nat) (stopped clock : Bool) :
    CaptWorks jid s (s.closeAll jid stopped clock) := by
  unfold State.closeAll
  split
  · exact .refl jid s
  · refine foldl_captWorks (fun s w => ?_) _ s
    exact ((s.writeWin_works jid _).trans (.ite ((State.count_captsKept _ _ _ _ _).works jid) (.refl jid _))).trans
      (State.closeWin_works _ jid _ _ _ _)

/-! ### The end of a capture or a stream (R136, R166, R167) -/

/-- What the data of a capture or a stream keeps of the store, on its input's stack. -/
def Capt.holds (k : Capt) : Demand :=
  { store0 := if k.input / 2 = 0 then k.space else 0, store1 := if k.input / 2 = 0 then 0 else k.space }

/-- A capture or stream as its job leaves it. -/
def Capt.asHeld (k : Capt) : Capt := { k with ended := true, closed := true, wins := [], inbox := [] }

/-- The data of the capture or stream `k` of job `jid` becomes held (R136). -/
def State.holdCapt (s : State) (jid : Nat) (k : Capt) : State :=
  ((s.onHost fun h => { h with kept := h.kept ++ [(jid, k.holds)] }).updJob jid fun j =>
    { j with demand := { j.demand with store0 := 0, store1 := 0 } }).updCapt jid Capt.asHeld

/-- The end of a capture or a stream that runs: its data is held, and is released last where a STREAM_CLOSE said so. -/
theorem State.captEnd_running {s : State} {jid : Nat} {k : Capt} (hk : (s.closeGap jid).capt? jid = some k)
    (hrun : k.ended = false) (f : Job → Job) :
    ∃ u, s.captEnd jid f = (if k.release then u.releaseHeld jid else u) ∧
      CaptsKept ((s.closeGap jid).holdCapt jid k) u := by
  unfold State.captEnd
  extract_lets +onlyGivenNames closed
  split
  · next hnone => exact absurd (hk.symm.trans hnone) nofun
  next k' hk' =>
  obtain rfl : k = k' := Option.some.inj (hk.symm.trans hk')
  rw [if_neg (by rw [hrun]; decide)]
  extract_lets +onlyGivenNames side a reserved freed held told undecimated inactive ended closedJob final
  refine ⟨final, rfl, ?_⟩
  have hholds : ({ store0 := side k.space a, store1 := side k.space (!a) } : Demand) = k.holds := by
    by_cases h : k.input / 2 = 0 <;> simp [side, a, Capt.holds, h]
  have hheld : closed.holdCapt jid k = held := by
    unfold State.holdCapt
    rw [← hholds]
    rfl
  have htold : CaptsKept held told := by
    refine .ite ?_ (.refl _)
    split
    · exact CaptsKept.trans (.ite (.refl _) (State.produce_captsKept _ _ _)) (State.closeProducer_captsKept _ _)
    · exact .refl _
  have hquiet : CaptsKept told inactive :=
    CaptsKept.trans (.ite (told.setDec_captsKept _ _ _ _) (.refl _)) (.ite (undecimated.wr_captsKept _ _ _ _) (.refl _))
  have hended : CaptsKept inactive ended :=
    (inactive.recordRegs_captsKept.trans (State.pumpReads_captsKept _ jid)).trans (State.sourceEnded_captsKept _ jid)
  have hfinal : CaptsKept ended final :=
    CaptsKept.trans (.ite (.refl _) (ended.endJob_captsKept _ _)) (closedJob.endJob_captsKept _ _)
  rw [hheld]
  exact ((htold.trans hquiet).trans hended).trans hfinal

/-- The captures and streams that stay once the held data of job `jid` is released, and with it what names it. -/
def State.unreleased (s : State) (jid : Nat) : List Capt :=
  s.record.capts.filter fun k => !(k.ended && (k.jid = jid || k.backed = some jid))

theorem State.releaseHeld_spec (s : State) (jid : Nat) :
    (s.releaseHeld jid).record.capts = s.unreleased jid ∧ (s.releaseHeld jid).devTime = s.devTime ∧
      (s.releaseHeld jid).act = s.act := by
  unfold State.releaseHeld
  extract_lets +onlyGivenNames gone ids record dropped
  have hkept := (dropped.onHost fun h => { h with kept := h.kept.filter fun x => !ids.contains x.1 }).recordRegs_captsKept
  exact ⟨hkept.capts, hkept.devTime, hkept.act⟩

/-- Once every capture of job `jid` has ended, its release leaves none. -/
theorem State.releaseHeld_gone {s : State} {jid : Nat} (hended : ∀ x ∈ s.record.capts, x.jid = jid → x.ended = true) :
    ∀ x ∈ (s.releaseHeld jid).record.capts, x.jid ≠ jid := by
  intro x hx hjid
  rw [(s.releaseHeld_spec jid).1, State.unreleased, List.mem_filter] at hx
  obtain ⟨hmem, hstays⟩ := hx
  simp [hended x hmem hjid, hjid] at hstays

/-- From `s` to `t` the capture or stream `k` ends: it is released where a STREAM_CLOSE said so, and held otherwise, with
its reservation. -/
structure CaptEnds (k : Capt) (s t : State) : Prop where
  devTime : t.devTime = s.devTime
  act : t.act = s.act
  released : k.release = true → ∀ x ∈ t.record.capts, x.jid ≠ k.jid
  held : k.release = false → ∃ k', t.capt? k.jid = some k' ∧ k'.ended = true ∧ k'.closed = true ∧ k'.wins = [] ∧
    k'.input = k.input ∧ (k.jid, k'.holds) ∈ t.host.kept

/-- The capture or stream that is held in `s` ends where the rest leaves the captures alone. -/
theorem State.holdCapt_ends {s u : State} {k : Capt} (hk : s.capt? k.jid = some k) (hu : CaptsKept (s.holdCapt k.jid k) u) :
    CaptEnds k s (if k.release then u.releaseHeld k.jid else u) := by
  have hended : ∀ x ∈ u.record.capts, x.jid = k.jid → x.ended = true := by
    rw [hu.capts]
    intro x hx hjid
    obtain ⟨y, -, rfl⟩ := List.mem_map.1 hx
    split at hjid
    · next hy => rw [if_pos hy]; rfl
    · next hy => exact absurd hjid hy
  have hcapt : u.capt? k.jid = some k.asHeld :=
    (hu.capt? k.jid).trans (State.capt?_updCapt (k := k) hk fun _ h => h)
  have hkept : (k.jid, k.holds) ∈ u.host.kept := by
    rw [hu.kept]
    exact List.mem_append_right _ (List.mem_singleton.2 rfl)
  cases hrel : k.release with
  | true =>
    rw [if_pos rfl]
    obtain ⟨-, hdev, hact⟩ := u.releaseHeld_spec k.jid
    refine ⟨hdev.trans hu.devTime, hact.trans hu.act, fun _ => ?_, ?_⟩
    · exact State.releaseHeld_gone hended
    · rw [hrel]; nofun
  | false =>
    rw [if_neg (by decide)]
    refine ⟨hu.devTime, hu.act, ?_, fun _ => ⟨k.asHeld, hcapt, rfl, rfl, rfl, rfl, hkept⟩⟩
    rw [hrel]; nofun

theorem CaptEnds.of_works {k k' : Capt} {s u t : State} (h : CaptWorks k.jid s u) (hk : k.Lasts k') (ht : CaptEnds k' u t) :
    CaptEnds k s t := by
  obtain ⟨hdev, hact, hreleased, hheld⟩ := ht
  rw [hk.jid, hk.release, hk.input] at hheld
  rw [hk.jid, hk.release] at hreleased
  exact ⟨hdev.trans h.devTime, hact.trans h.act, hreleased, hheld⟩

/-- A running capture or stream that ends is released or held. -/
theorem State.captEnd_ends {s : State} {k : Capt} (hk : s.capt? k.jid = some k) (hrun : k.ended = false) (f : Job → Job) :
    CaptEnds k s (s.captEnd k.jid f) := by
  obtain ⟨k', hk', hlasts⟩ := (s.closeGap_works k.jid).lasts k hk
  obtain ⟨u, hu, hkept⟩ := State.captEnd_running hk' (hlasts.ended.trans hrun) f
  rw [hu]
  refine .of_works (s.closeGap_works k.jid) hlasts ?_
  rw [← hlasts.jid] at hk' hkept ⊢
  exact State.holdCapt_ends hk' hkept

/-! ### Streams (R166, R167) -/

theorem exec_streamStart_def (sq : Fin 64) (tag : BitVec 16) (s : State) :
    exec (.streamStart sq tag) s = execStreamStart sq tag s := rfl

theorem exec_streamStop_def (sq : Fin 64) (tag : BitVec 16) (s : State) :
    exec (.streamStop sq tag) s = execStreamStop sq tag s := rfl

theorem State.toDev_capt? (s : State) (t i : Nat) : (s.toDev t).capt? i = s.capt? i := by
  rw [State.capt?, State.toDev_record, State.capt?]

theorem State.setDec_frame (s : State) (n mode factor bits : Nat) :
    s.setDec n mode factor bits = { s with
      regs := (s.setDec n mode factor bits).regs, record := (s.setDec n mode factor bits).record } := by
  unfold State.setDec
  dsimp only
  rw [State.writerRegs_frame]
  rfl

/-- `k` becomes its input's writer from time `e` on, with its decimator (R154, R166). -/
def State.streamStarts (s : State) (k : Capt) (e : Nat) : State :=
  let started := s.updCapt k.jid fun k => { k with armed := some e }
  if k.mode = 0 then started.writerRegs k.input else started.setDec k.input k.mode k.factor k.bits

theorem State.streamStarts_frame (s : State) (k : Capt) (e : Nat) :
    s.streamStarts k e = { s with regs := (s.streamStarts k e).regs, record := (s.streamStarts k e).record } := by
  unfold State.streamStarts
  dsimp only
  split
  · rw [State.writerRegs_frame]
    rfl
  · rw [State.setDec_frame]
    rfl

theorem State.streamStarts_captsKept (s : State) (k : Capt) (e : Nat) :
    CaptsKept (s.updCapt k.jid fun k => { k with armed := some e }) (s.streamStarts k e) :=
  .ite (State.writerRegs_captsKept _ _) (State.setDec_captsKept _ _ _ _ _)

section
variable {s : State} {sq : Fin 64} {tag : BitVec 16} {k : Capt} (hs : s.dead = false)
  (hof : s.captOf sq tag.toNat = some k) (hk : s.capt? k.jid = some k) (hrun : k.ended = false)
include hs hof hk hrun

/-- A stream starts at the first word at least 2 µs after its admission (R166). -/
theorem exec_streamStart (hstream : k.isStream = true) (harmed : k.armed = none) :
    ∃ t, exec (.streamStart sq tag) s = .next t ∧
      t = { s.toDev (s.gridFrom k.input k.due) with regs := t.regs, record := t.record } ∧
      t.capt? k.jid = some { k with armed := some (s.gridFrom k.input k.due) } ∧
      ∀ i, i ≠ k.jid → t.capt? i = s.capt? i := by
  let e := s.gridFrom k.input k.due
  let t := (s.toDev e).streamStarts k e
  have hframe : t = { s.toDev e with regs := t.regs, record := t.record } := State.streamStarts_frame _ k e
  have hkept : CaptsKept ((s.toDev e).updCapt k.jid fun k => { k with armed := some e }) t :=
    State.streamStarts_captsKept _ k e
  have hexec : exec (.streamStart sq tag) s = .next t := by
    rw [exec_streamStart_def]
    refine live_eq hs _ ?_ ((congrArg State.pending hframe).trans (s.toDev_pending e))
    simp only [hof, hstream, hrun, harmed, Option.isSome_none, Bool.not_true, Bool.or_self, Bool.false_eq_true, if_false]
    rfl
  have hu : (s.toDev e).capt? k.jid = some k := (s.toDev_capt? e _).trans hk
  refine ⟨t, hexec, hframe, ?_, fun i hi => ?_⟩
  · exact (hkept.capt? _).trans (State.capt?_updCapt hu fun _ h => h)
  · refine (hkept.capt? i).trans ((State.capt?_updCapt_ne _ hi ?_).trans (s.toDev_capt? e i))
    exact fun _ h => h

/-- A running capture or stream ends with its stop time: it is released or held (R167). -/
theorem exec_streamStop {e : Nat} (hstop : k.stopAt = some e) :
    ∃ t, exec (.streamStop sq tag) s = .next t ∧ CaptEnds k (s.toDev e) t := by
  let closed := (s.toDev e).updCapt k.jid fun k => { k with closed := true }
  let t := (closed.closeAll k.jid false false).captEnd k.jid id
  have hexec : exec (.streamStop sq tag) s = .next { t with pending := s.pending } := by
    rw [exec_streamStop_def]
    refine (live_alive hs _).trans ?_
    simp only [hof, hstop, hrun, Bool.false_eq_true, if_false]
    rfl
  have hclosed : CaptWorks k.jid (s.toDev e) closed := State.updCapt_works _ _ fun _ => ⟨rfl, rfl, rfl, rfl, rfl⟩
  have hworks := hclosed.trans (closed.closeAll_works k.jid false false)
  obtain ⟨k', hk', hlasts⟩ := hworks.lasts k ((s.toDev_capt? e _).trans hk)
  have hends : CaptEnds k (s.toDev e) t := by
    refine .of_works hworks hlasts ?_
    rw [← hlasts.jid] at hk'
    have h := State.captEnd_ends hk' (hlasts.ended.trans hrun) id
    rw [hlasts.jid] at h
    exact h
  obtain ⟨hdev, hact, hreleased, hheld⟩ := hends
  exact ⟨_, hexec, hdev, hact, hreleased, hheld⟩

end

/-! ### SYNC (R158) -/

theorem exec_recordSyncGo_def (v : Word) (s : State) :
    exec (.recordSyncGo v) s = live s fun s => s.recordSyncGoWrite v := rfl

theorem exec_syncApply_def (s : State) : exec .syncApply s = execSyncApply s := rfl

theorem bit_eq_testBit (m n : Nat) : bit m n = m.testBit n := by
  simp [bit, Nat.testBit_eq_decide_div_mod_eq]

/-- A one-bit field is set where it reads 1. -/
theorem State.flag_iff {f : Fld} (hf : f.span = 2) (s : State) (i j : Nat) : s.flag f i j = true ↔ s.rd f i j = 1 := by
  have hlt : s.rd f i j < 2 := hf ▸ f.ofWord_lt _
  unfold State.flag
  rw [bne_iff_ne]
  omega

/-- The request of a SYNC that RECORD_SYNC_GO makes: for a word of the lowest named input, or for a line event. -/
def State.syncRequest (s : State) : SyncReq :=
  { mask := s.rd F.RECORD_SYNC_CTRL_CH_MASK, line := s.rd F.RECORD_SYNC_CTRL_LINE
    at' := if s.rd F.RECORD_SYNC_CTRL_SRC = 1 then none else some (s.gridFrom
      (((List.range 4).find? (fun n => (s.rd F.RECORD_SYNC_CTRL_CH_MASK).testBit n)).getD 0) (s.devTime + 4194304)) }

/-- The state in which the request `r` of a SYNC stands. -/
def State.syncStands (s : State) (r : Option SyncReq) : State := { s with record := { s.record with sync := r } }

theorem State.recordSyncGoWrite_go (s : State) {v : Word} (hv : v.getLsbD 0 = true) :
    s.recordSyncGoWrite v = (s.syncStands (some s.syncRequest)).setf F.RECORD_SYNC_STAT_PENDING := by
  have hgo : v.toNat.testBit 0 = true := hv
  unfold State.recordSyncGoWrite State.syncRequest
  simp only [bit_eq_testBit, hgo, Bool.not_true, Bool.false_eq_true, if_false,
    State.flag_iff (f := F.RECORD_SYNC_CTRL_SRC) rfl]
  rfl

/-- RECORD_SYNC_GO requests a SYNC and shows it in PENDING. -/
theorem exec_recordSyncGo {s : State} (hs : s.dead = false) {v : Word} (hv : v.getLsbD 0 = true) :
    ∃ t, exec (.recordSyncGo v) s = .next t ∧ t = { s with regs := t.regs, record := t.record } ∧
      KeepsWords s t [0xA00008] ∧ t.rd F.RECORD_SYNC_STAT_PENDING = 1 ∧
      t.record = { s.record with sync := some s.syncRequest } := by
  rw [exec_recordSyncGo_def]
  let stands := s.syncStands (some s.syncRequest)
  exact ⟨_, live_eq hs _ (s.recordSyncGoWrite_go hv) rfl, rfl, stands.wr_keepsWords F.RECORD_SYNC_STAT_PENDING 1 0 0,
    State.rd_wr_same rfl stands 1 0 0, rfl⟩

/-- A decimator restarts at `t`; one that has words on the way gives no earlier one any more (R134). -/
def RecCh.restart (c : RecCh) (t : Nat) : RecCh :=
  let c := { c with dec := { c.dec with syncAt := some t } }
  { c with first := if c.dec.settle = 0 then c.first else c.penN }

/-- The SYNC at `t` of the inputs in `mask` reaches input `n`. -/
def State.restartDec (mask t : Nat) (s : State) (n : Nat) : State :=
  if bit mask n then s.setRch n ((s.rch n).restart t) else s

theorem State.restartDec_frame (mask t : Nat) (s : State) (n : Nat) :
    s.restartDec mask t n = { s with record := { s.record with chs := (s.restartDec mask t n).record.chs } } := by
  unfold State.restartDec
  split
  · rfl
  · rfl

theorem State.restartDec_rch (mask t : Nat) (s : State) (n : Nat) :
    (s.restartDec mask t n).rch n = if bit mask n then (s.rch n).restart t else s.rch n := by
  unfold State.restartDec
  split
  · exact kget_kset_same ..
  · rfl

theorem State.restartDec_rch_ne (mask t : Nat) (s : State) {n m : Nat} (h : m ≠ n) :
    (s.restartDec mask t n).rch m = s.rch m := by
  unfold State.restartDec
  split
  · exact kget_kset_ne _ _ _ _ h
  · rfl

theorem foldl_restartDec_frame (mask t : Nat) (l : List Nat) (s : State) :
    l.foldl (State.restartDec mask t) s =
      { s with record := { s.record with chs := (l.foldl (State.restartDec mask t) s).record.chs } } :=
  foldl_relates (R := fun s u => u = { s with record := { s.record with chs := u.record.chs } }) (fun _ => rfl)
    (fun h h' => by rw [h', h]) (State.restartDec_frame mask t) l s

theorem foldl_restartDec_rch_notMem (mask t : Nat) {l : List Nat} {n : Nat} (h : n ∉ l) (s : State) :
    (l.foldl (State.restartDec mask t) s).rch n = s.rch n := by
  induction l generalizing s with
  | nil => rfl
  | cons m l ih =>
    have hm : n ≠ m := fun e => h (e ▸ List.mem_cons_self)
    exact (ih (fun hn => h (List.mem_cons_of_mem m hn)) _).trans (s.restartDec_rch_ne mask t hm)

theorem foldl_restartDec_rch (mask t : Nat) {l : List Nat} (hl : l.Nodup) {n : Nat} (hn : n ∈ l) (s : State) :
    (l.foldl (State.restartDec mask t) s).rch n = if bit mask n then (s.rch n).restart t else s.rch n := by
  induction l generalizing s with
  | nil => exact absurd hn List.not_mem_nil
  | cons m l ih =>
    obtain ⟨hm, hl⟩ := List.nodup_cons.1 hl
    rcases List.mem_cons.1 hn with rfl | hn
    · exact (foldl_restartDec_rch_notMem mask t hm _).trans (s.restartDec_rch mask t _)
    · have hne : n ≠ m := fun h => hm (h ▸ hn)
      rw [List.foldl_cons, ih hl hn, s.restartDec_rch_ne mask t hne]

/-- RECORD_SYNC_STAMP and RECORD_SYNC_CNT take the SYNC at `e`, and PENDING falls. -/
def State.syncShown (s : State) (e : Nat) : State :=
  ((s.wr F.RECORD_SYNC_STAT_PENDING 0).wr64 F.RECORD_SYNC_STAMP_LO_T F.RECORD_SYNC_STAMP_HI_T (e % 2 ^ 64)).count
    F.RECORD_SYNC_CNT_COUNT

theorem State.syncShown_frame (s : State) (e : Nat) : s.syncShown e = { s with regs := (s.syncShown e).regs } := by
  unfold State.syncShown State.count State.wr64 State.wr
  rfl

theorem State.syncShown_pending (s : State) (e : Nat) : (s.syncShown e).rd F.RECORD_SYNC_STAT_PENDING = 0 := by
  rw [State.syncShown, State.count, State.rd_wr_addr (by decide), State.wr64, State.rd_wr_addr (by decide),
    State.rd_wr_addr (by decide), State.rd_wr_same rfl]
  rfl

theorem State.syncShown_count (s : State) (e : Nat) :
    (s.syncShown e).rd F.RECORD_SYNC_CNT_COUNT = min (s.rd F.RECORD_SYNC_CNT_COUNT + 1) 0xFFFFFFFF := by
  rw [State.syncShown, State.rd_count rfl, State.wr64, State.rd_wr_addr (by decide), State.rd_wr_addr (by decide),
    State.rd_wr_addr (by decide)]
  rfl

/-- A pair of whole registers reads as the 64-bit value written to it. -/
theorem State.rd64_wr64 {lo hi : Fld} (hlo : lo.ok = true) (hhi : hi.ok = true) (hls : lo.span = 2 ^ 32)
    (hhs : hi.span = 2 ^ 32) {i : Nat} (hne : lo.addr i 0 ≠ hi.addr i 0) (s : State) {v : Nat} (hv : v < 2 ^ 64) :
    (s.wr64 lo hi v i).rd64 lo hi i = v := by
  rw [State.rd64, State.wr64, State.rd_wr_same hhi, State.rd_wr_addr hne, State.rd_wr_same hlo, hls, hhs]
  omega

theorem State.syncShown_stamp (s : State) (e : Nat) :
    (s.syncShown e).rd64 F.RECORD_SYNC_STAMP_LO_T F.RECORD_SYNC_STAMP_HI_T = e % 2 ^ 64 := by
  have hlt : e % 2 ^ 64 < 2 ^ 64 := Nat.mod_lt _ (by decide)
  have hstamp := State.rd64_wr64 (lo := F.RECORD_SYNC_STAMP_LO_T) (hi := F.RECORD_SYNC_STAMP_HI_T) (i := 0) rfl rfl rfl rfl
    (by decide) (s.wr F.RECORD_SYNC_STAT_PENDING 0) hlt
  rw [State.rd64, State.syncShown, State.count, State.rd_wr_addr (by decide), State.rd_wr_addr (by decide)]
  exact hstamp

theorem State.syncShown_rch (s : State) (e n : Nat) : (s.syncShown e).rch n = s.rch n := by
  rw [State.syncShown_frame, State.rch, State.rch]

theorem State.syncStands_rch (s : State) (r : Option SyncReq) (n : Nat) : (s.syncStands r).rch n = s.rch n := rfl

/-- `s` once a SYNC of the inputs in `mask` at `e` has reached them: the decimators are to restart, and no request stands. -/
def State.syncReached (s : State) (mask e : Nat) : State :=
  ((List.range 4).foldl (State.restartDec mask e) s).syncStands none

/-- Of the rest only the inputs' Penumbra changes, and the request goes. -/
theorem State.syncReached_frame (s : State) (mask e : Nat) :
    s.syncReached mask e = { s with record := { s.record with chs := (s.syncReached mask e).record.chs, sync := none } } :=
  congrArg (State.syncStands · none) (foldl_restartDec_frame mask e (List.range 4) s)

/-- Each named decimator is to restart at `e`; the other inputs stay. -/
theorem State.syncReached_rch (s : State) (mask e : Nat) (n : Fin 4) :
    (s.syncReached mask e).rch n = if mask.testBit n then (s.rch n).restart e else s.rch n := by
  rw [State.syncReached, State.syncStands_rch, foldl_restartDec_rch mask e List.nodup_range (List.mem_range.2 n.isLt) s,
    bit_eq_testBit]

/-- A SYNC whose instant is known is applied at it. -/
theorem exec_syncApply {s : State} (hs : s.dead = false) {r : SyncReq} {e : Nat} (hr : s.record.sync = some r)
    (he : r.at' = some e) :
    ∃ t, exec .syncApply s = .next t ∧ t = { s.toDev e with regs := t.regs, record := t.record } ∧
      t.record.sync = none ∧ t.record.capts = s.record.capts ∧
      (∀ n : Fin 4, (t.rch n).dec.syncAt = if r.mask.testBit n.val then some e else (s.rch n).dec.syncAt) ∧
      (∀ n : Fin 4, (t.rch n).pen = (s.rch n).pen ∧ (t.rch n).penN = (s.rch n).penN) ∧
      t.rd F.RECORD_SYNC_STAT_PENDING = 0 ∧
      t.rd64 F.RECORD_SYNC_STAMP_LO_T F.RECORD_SYNC_STAMP_HI_T = e % 2 ^ 64 ∧
      t.rd F.RECORD_SYNC_CNT_COUNT = min ((s.toDev e).rd F.RECORD_SYNC_CNT_COUNT + 1) 0xFFFFFFFF := by
  let u := s.toDev e
  let v := u.syncReached r.mask e
  have hv : v = { u with record := { u.record with chs := v.record.chs, sync := none } } := u.syncReached_frame r.mask e
  have hframe : v.syncShown e = { u with regs := (v.syncShown e).regs, record := (v.syncShown e).record } := by
    refine (v.syncShown_frame e).trans ?_
    rw [hv]
    rfl
  have hexec : exec .syncApply s = .next (v.syncShown e) := by
    rw [exec_syncApply_def]
    refine live_eq hs _ ?_ ((congrArg State.pending hframe).trans (s.toDev_pending e))
    simp only [hr, he]
    rfl
  have hrch (n : Fin 4) : (v.syncShown e).rch n = if r.mask.testBit n then (s.rch n).restart e else s.rch n := by
    have hu : u.rch n = s.rch n := by rw [State.rch, s.toDev_record, State.rch]
    rw [v.syncShown_rch, u.syncReached_rch, hu]
  have hcapts : v.record.capts = s.record.capts := by rw [hv, s.toDev_record]
  have hcount : v.rd F.RECORD_SYNC_CNT_COUNT = u.rd F.RECORD_SYNC_CNT_COUNT := by rw [hv]; rfl
  refine ⟨_, hexec, hframe, ?_, hcapts, fun n => ?_, fun n => ?_, v.syncShown_pending e, v.syncShown_stamp e, ?_⟩
  · exact congrArg (fun x : State => x.record.sync) hv
  · rw [hrch]
    split
    · rfl
    · rfl
  · rw [hrch]
    split
    · exact ⟨rfl, rfl⟩
    · exact ⟨rfl, rfl⟩
  · rw [v.syncShown_count, hcount]

/-- Settles O42: streams by what the store's work leaves of them, SYNC by its request and its application. -/
theorem streamsAndSyncRun : Obligations.StreamsAndSyncRun := by
  intro s hs
  refine ⟨fun sq tag k hof hk hrun hstream => ⟨fun harmed => exec_streamStart hs hof hk hrun hstream harmed, ?_⟩,
    fun v hv => exec_recordSyncGo hs hv, fun r e hr he => exec_syncApply hs hr he⟩
  intro e hstop
  obtain ⟨t, ht, hends⟩ := exec_streamStop hs hof hk hrun hstop
  refine ⟨t, ht, hends.devTime, hends.act.trans (s.toDev_act e), hends.released, fun hrel => ?_⟩
  obtain ⟨k', hk', hended, hclosed, hwins, hinput, hkept⟩ := hends.held hrel
  rw [Capt.holds, hinput] at hkept
  exact ⟨k', hk', hended, hclosed, hwins, hkept⟩

end Sys2Proof.Machine
end

section
/-! PROOFS. The statements of the Afterglow family: the admission of reads and clears, and the clear point beside a ring whose
vector is out of range. -/
namespace Sys2Proof.Machine

/-! ### Admission of reads and clears (R182, R183, R185, R186) -/

theorem exec_afterglowRead_def (s : State) : exec .afterglowRead s = execAfterglowRead s := rfl

theorem exec_afterglowClear_def (s : State) : exec .afterglowClear s = execAfterglowClear s := rfl

theorem State.ag_setAg_same (s : State) (n : Nat) (x : AgCh) : (s.setAg n x).ag n = x := kget_kset_same ..

theorem State.ag_setAg_ne (s : State) {n m : Nat} (x : AgCh) (h : m ≠ n) : (s.setAg n x).ag m = s.ag m :=
  kget_kset_ne _ _ _ _ h

/-- The read that the AFTERGLOW_READ `j` sets: its snapshot instant is no earlier than the next SCLK boundary (R186). -/
def State.readOf (s : State) (j : Job) : AgRead :=
  { jid := j.jid, what := j.bits 9 1 1 0, clear := decide (j.bits 10 1 0 0 = 1), fmt := j.bits 10 1 1 1, first := j.fld 24 4
    count := j.fld 28 4, rowFirst := j.fld 32 2, rowCount := j.fld 34 2, addr := j.fld 40 8, hdr := j.fld 56 8
    ts := max s.boundary (s.fullTime (j.fld 16 8)) }

/-- The state in which the read `r` stands alone. -/
def State.readStands (s : State) (r : AgRead) : State := { s with record := { s.record with agReads := [r] } }

/-- READING shows a read that stands on its job's input. -/
theorem State.agReading_shown {s : State} {j : Job} {r : AgRead} (hjob : s.job? r.jid = some j) :
    ((s.readStands r).agReading (j.bits 8 1 1 0)).rd F.AFTERGLOW_CHn_STAT_READING (j.bits 8 1 1 0) = 1 := by
  have hstands : (s.readStands r).job? r.jid = some j := hjob
  have hreads : (s.readStands r).record.agReads = [r] := rfl
  rw [State.agReading, State.rd_wr_same rfl, hreads]
  simp only [List.any_cons, hstands, decide_true, Bool.true_or]
  rfl

section
variable {s : State} {j : Job} {d : Demand} {rd rh b : Nat} {dur : Option Nat} {chans : List (Nat × Nat)}

/-- AFTERGLOW_READ of an instant to come, admitted while no read stands (R185, R186). -/
theorem exec_afterglowRead_granted (hdec : Decides s j 0x05)
    (hgrant : s.judge j (s.agReadPlan j) = .granted d rd rh b dur chans) (hlater : s.devTime < s.fullTime (j.fld 16 8))
    (hnone : s.record.agReads = []) :
    ∃ t r, exec .afterglowRead s = .next t ∧
      t = { s with regs := t.regs, out := t.out, host := t.host, record := t.record } ∧
      t.record = { s.record with agReads := [r] } ∧ t.job? j.jid = some (admittedAs s j d rd rh b dur) ∧
      r.jid = j.jid ∧ r.what = j.bits 9 1 1 0 ∧ r.ts = max s.boundary (s.fullTime (j.fld 16 8)) ∧
      t.rd F.AFTERGLOW_CHn_STAT_READING (j.bits 8 1 1 0) = 1 := by
  obtain ⟨regs, out, host, hjob, hadm⟩ := State.admission_granted hdec hgrant
  let u : State := { s with regs := regs, out := out, host := host }
  let t := (u.readStands (s.readOf j)).agReading (j.bits 8 1 1 0)
  have hexec : exec .afterglowRead s = .next t := by
    rw [exec_afterglowRead_def]
    refine live_eq hdec.1 _ ((hadm _).trans ?_) rfl
    have hnow : ¬ u.fullTime (j.fld 16 8) ≤ u.devTime := Nat.not_le.2 hlater
    refine (if_neg hnow).trans ?_
    simp only [hnone, List.filter_nil, List.nil_append]
    rfl
  have hshown : t.rd F.AFTERGLOW_CHn_STAT_READING (j.bits 8 1 1 0) = 1 :=
    State.agReading_shown (s := u) (j := admittedAs s j d rd rh b dur) hjob
  exact ⟨t, s.readOf j, hexec, rfl, rfl, hjob, rfl, rfl, rfl, hshown⟩

/-- The clear that an AFTERGLOW_CLEAR without a mask sets: its clear point is at the earliest 2 µs later (R183). -/
def State.clearOf (s : State) (j : Job) : AgClear :=
  { jid := j.jid, what := j.fld 9 1, due := some (s.devTime + 131072000) }

/-- The state in which the clear `c` is pending on input `n`, and shows. -/
def State.clearPends (s : State) (n : Nat) (c : AgClear) : State :=
  (s.setAg n { s.ag n with clear := some c }).setf F.AFTERGLOW_CHn_STAT_CLEAR_PENDING n

theorem State.clearPends_shown (s : State) (n : Nat) (c : AgClear) :
    (s.clearPends n c).rd F.AFTERGLOW_CHn_STAT_CLEAR_PENDING n = 1 :=
  State.rd_wr_same rfl (s.setAg n { s.ag n with clear := some c }) 1 n 0

/-- AFTERGLOW_CLEAR without a mask, admitted (R182, R183). -/
theorem exec_afterglowClear_granted (hdec : Decides s j 0x06)
    (hgrant : s.judge j (s.agClearPlan j) = .granted d rd rh b dur chans) (hload : j.bits 9 1 4 4 = 0) :
    ∃ t, exec .afterglowClear s = .next t ∧
      t = { s with regs := t.regs, out := t.out, host := t.host, record := t.record } ∧
      t.record = { s.record with ag := t.record.ag } ∧
      t.ag (j.bits 8 1 1 0) = { s.ag (j.bits 8 1 1 0) with
        clear := some { jid := j.jid, what := j.fld 9 1, due := some (s.devTime + 131072000) } } ∧
      (∀ n, n ≠ j.bits 8 1 1 0 → t.ag n = s.ag n) ∧ HoldsJob t j.jid d b ∧
      t.rd F.AFTERGLOW_CHn_STAT_CLEAR_PENDING (j.bits 8 1 1 0) = 1 := by
  obtain ⟨regs, out, host, hjob, hadm⟩ := State.admission_granted hdec hgrant
  let n := j.bits 8 1 1 0
  let u : State := { s with regs := regs, out := out, host := host }
  let t := (u.clearPends n (s.clearOf j)).updJob j.jid fun x => { x with anchor := some x.pickup }
  have hexec : exec .afterglowClear s = .next t := by
    rw [exec_afterglowClear_def]
    refine live_eq hdec.1 _ ((hadm _).trans ?_) rfl
    have hload' : ¬ (admittedAs s j d rd rh b dur).bits 9 1 4 4 = 1 := fun h => absurd (hload.symm.trans h) (by decide)
    simp only [hload', if_false]
    rfl
  refine ⟨t, hexec, rfl, rfl, u.ag_setAg_same n _, fun m hm => u.ag_setAg_ne _ hm, ?_, ?_⟩
  · exact holdsJob_anchored (u := u.clearPends n (s.clearOf j)) hjob rfl
  · exact u.clearPends_shown n (s.clearOf j)

end

/-- Settles O30: the read stands, and the clear is pending, in the state that the admission leaves. -/
theorem afterglowReadsAndClearsAreSet : Obligations.AfterglowReadsAndClearsAreSet := by
  intro s j d rd rh b dur chans
  exact ⟨exec_afterglowRead_granted, exec_afterglowClear_granted⟩

/-! ### The clear point, beside a ring whose vector is out of range (R71, R183) -/

/-- The job of an AFTERGLOW_CLEAR, with its records on ring 0. -/
def clearJob : Job := { jid := 1, sq := 0, cq := 0, desc := [] }

/-- The clear of `clearJob`, due at once. -/
def dueClear : AgClear := { jid := 1, what := 0, due := some 0 }

/-- `dueClear` is pending on input 0. Ring 0, which is open, names a vector far beyond the 2,048 of the MSI-X table, so that
its pending bit falls on bit 5 of AFTERGLOW_CH0_STAT, which is CLEAR_PENDING. -/
def strayClearState : State :=
  { record := { ag := [(0, { clear := some dueClear })] }
    host := { jobs := [clearJob], cqs := [(0, { enable := true, vector := 8 * (0xC01004 - msixPba) + 5 })] } }

/-- CLEAR_PENDING of input 0 in the state that an outcome answers. -/
def clearPendingOf : Host.Outcome State Fault Refusal → Nat
  | .next t => t.rd F.AFTERGLOW_CHn_STAT_CLEAR_PENDING 0
  | .fault _ => 0
  | .refused _ => 0

/-- The clear has been made, and the signal of its job's final record sets CLEAR_PENDING again. -/
theorem afterglowClearPoint_strayVector : clearPendingOf (exec (.afterglowClearPoint 0) strayClearState) = 1 := by
  decide +kernel

/-- Refutes O43: the clause on the clear point quantifies over every state, so also over those whose completion ring names a
vector that HOST_CQ_CTRL.VECTOR, 11 bits wide, cannot give it. There the signal of the clear's final record (R72) writes its
pending bit over AFTERGLOW_CH0_STAT, and CLEAR_PENDING reads 1 after the clear. -/
theorem not_afterglowSetUpSumsAndClears : ¬ Obligations.AfterglowSetUpSumsAndClears := by
  intro h
  obtain ⟨-, -, -, hclear, -⟩ := h strayClearState rfl
  obtain ⟨t, ht, -, hpending, -⟩ := hclear 0 dueClear 0 clearJob rfl rfl rfl
  have hstray := afterglowClearPoint_strayVector
  rw [ht] at hstray
  exact absurd (hpending.symm.trans hstray) (by decide)

end Sys2Proof.Machine
end

section
/-! PROOFS. The statements of the vibration family: the rise of a marker that is a direction line. -/
namespace Sys2Proof.Machine

/-! ### A direction line (R197, R239) -/

theorem exec_markerEdge_def (mk : Fin 4) (c : Nat) (slot : Fin 16) (rise : Bool) (s : State) :
    exec (.markerEdge mk c slot rise) s = execMarkerEdge mk c slot rise s := rfl

/-- While a double-ended run drives output `b`'s second marker as its direction line, no window of a slot rises on it. -/
theorem exec_markerEdge_directionLine {s : State} (hs : s.dead = false) {b : Fin 2} {d : Bool}
    (hdir : (s.bcn b).dir = some d) (c : Nat) (slot : Fin 16) :
    exec (.markerEdge ⟨2 * b.val + 1, by omega⟩ c slot true) s = .next s := by
  have hout : (2 * b.val + 1) / 2 = b.val := by omega
  have hmarker : (2 * b.val + 1) % 2 = 1 := by omega
  rw [exec_markerEdge_def]
  refine live_eq hs _ ?_ rfl
  simp only [hout, hmarker, hdir, if_true]
  rw [List.find?_eq_none.2 fun _ _ => by simp]

/-- A program whose one slot drives the second marker. -/
def secondMarkerProg : BProg := { cyc := 512, idle := 0, slots := [⟨0, 0, 2, 0, 0, 4, 0, 0⟩] }

/-- The play of `secondMarkerProg` that FIBRE_TEMP_RUN schedules for job 1 at device time 0 (R247). -/
def directionPlay : Play := { owner := 1, bank := 0, t0 := 131072000, floor := 65536000 }

/-- Output 0 as the admission of a double-ended run leaves it: a play without an end, no window, and the direction line low. -/
def directionState : State :=
  { fibre := { beacons := [(0, { bank0 := some secondMarkerProg, play := some directionPlay, dir := some false })] } }

/-- Refutes O45: its clause on a marker's rise takes no account of the direction line. Where a double-ended temperature run
drives output 0's second marker (R239), the slot's window does not rise there, and the output's windows stay empty. -/
theorem not_beaconPlays : ¬ Obligations.BeaconPlays := by
  intro h
  obtain ⟨-, -, -, hrise, -⟩ := h directionState 0 rfl
  obtain ⟨t, ht, hwins, -⟩ := hrise 1 0 0 directionPlay secondMarkerProg rfl rfl rfl rfl rfl rfl (by decide) (by decide) rfl
    (by decide) (by decide)
  have hstill : exec (.markerEdge 1 0 0 true) directionState = .next directionState :=
    exec_markerEdge_directionLine (b := 0) rfl rfl 0 0
  obtain rfl : directionState = t := Host.Outcome.next.inj (hstill.symm.trans ht)
  exact absurd (congrArg BeaconSt.wins hwins) (by decide)

end Sys2Proof.Machine
end

section
/-! PROOFS. The statements of the timing family: Glint's stamps and gates, and the ends of its measurements. -/
namespace Sys2Proof.Machine

/-! ### The register words that Lantern's work leaves alone -/

/-- From `s` to `t` no register word at or above `lanHi` changes. -/
def KeepsAboveLantern (s t : State) : Prop := ∀ a d, lanHi ≤ a → t.word a d = s.word a d

theorem KeepsAboveLantern.refl (s : State) : KeepsAboveLantern s s := fun _ _ _ => rfl

theorem KeepsAboveLantern.trans {s u t : State} (h : KeepsAboveLantern s u) (h' : KeepsAboveLantern u t) :
    KeepsAboveLantern s t := fun a d ha => (h' a d ha).trans (h a d ha)

theorem KeepsAboveLantern.rd {s t : State} (h : KeepsAboveLantern s t) {f : Fld} {i j : Nat} (ha : lanHi ≤ f.addr i j) :
    t.rd f i j = s.rd f i j := congrArg f.ofWord (h _ _ ha)

/-- A change of Lantern's working state and of the output record keeps every register word. -/
theorem KeepsAboveLantern.of_regs {s t : State} (h : t.regs = s.regs) : KeepsAboveLantern s t := fun a d _ => by
  rw [State.word, h, State.word]

theorem State.wr_keepsAbove (s : State) {f : Fld} {i j : Nat} (h : f.addr i j < lanHi) (v : Nat) :
    KeepsAboveLantern s (s.wr f v i j) := fun _ _ ha => State.word_wr (Nat.ne_of_gt (Nat.lt_of_lt_of_le h ha)) s v _

theorem State.count_keepsAbove (s : State) {f : Fld} {i j : Nat} (h : f.addr i j < lanHi) (n : Nat) :
    KeepsAboveLantern s (s.count f n i j) := s.wr_keepsAbove h _

theorem State.setf_keepsAbove (s : State) {f : Fld} {i j : Nat} (h : f.addr i j < lanHi) :
    KeepsAboveLantern s (s.setf f i j) := s.wr_keepsAbove h 1

theorem State.setUnit_keepsAbove (s : State) (u : Nat) (x : UnitSt) : KeepsAboveLantern s (s.setUnit u x) := .of_regs rfl

theorem State.startUnit_keepsAbove (s : State) (u : Nat) : KeepsAboveLantern s (s.startUnit u) := s.setUnit_keepsAbove u _

theorem State.setUnitAct_keepsAbove (s : State) (a : Regs) :
    KeepsAboveLantern s { s with lan := { s.lan with unitAct := a } } := .of_regs rfl

theorem State.setQueue_keepsAbove (s : State) (q : List LItem) :
    KeepsAboveLantern s { s with lan := { s.lan with queue := q } } := .of_regs rfl

theorem State.setLevel_keepsAbove (s : State) (i : Nat) (rise : Bool) : KeepsAboveLantern s (s.setLevel i rise) :=
  .of_regs rfl

/-- A fold of steps that each keep the words above Lantern keeps them. -/
theorem foldl_keepsAbove {α : Type} {f : State → α → State} (l : List α) (hf : ∀ s, ∀ a ∈ l, KeepsAboveLantern s (f s a))
    (s : State) : KeepsAboveLantern s (l.foldl f s) :=
  List.foldlRecOn (motive := KeepsAboveLantern s) l f (.refl s) fun u hu a ha => hu.trans (hf u a ha)

theorem State.exportMark_keepsAbove (s : State) (u : Nat) (m : Mark) : KeepsAboveLantern s (s.exportMark u m) := by
  unfold State.exportMark
  dsimp only
  split
  · exact .refl s
  · split
    · exact s.count_keepsAbove (by decide) 1
    · exact .of_regs rfl

/-- The counters and the flags of the eight units, which their marks write (R131). -/
def markFlds : List Fld :=
  [F.LANTERN_UNITu_MARK_CNT_COUNT, F.LANTERN_UNITu_LOST_CNT_COUNT, F.LANTERN_UNITu_STAT_LOST,
    F.LANTERN_UNITu_SUPP_CNT_COUNT, F.LANTERN_UNITu_COINC_CNT_COUNT, F.LANTERN_UNITu_STAT_COINC]

theorem markFlds_addr_lt {u : Nat} (hu : u < 8) : ∀ f ∈ markFlds, f.addr u 0 < lanHi := by
  have h : ∀ u < 8, ∀ f ∈ markFlds, f.addr u 0 < lanHi := by decide
  exact h u hu

section
variable {u : Nat} (hu : u < 8)
include hu

theorem State.issueMark_keepsAbove (s : State) (e : LEv) (word : Nat) : KeepsAboveLantern s (s.issueMark u e word) := by
  have haddr := markFlds_addr_lt hu
  simp only [markFlds, List.forall_mem_cons] at haddr
  obtain ⟨hmark, hlost, hflag, -⟩ := haddr
  unfold State.issueMark
  extract_lets x y m
  split
  · exact ((s.setUnit_keepsAbove u _).trans (State.count_keepsAbove _ hmark 1)).trans
      (State.exportMark_keepsAbove _ u m)
  · exact ((s.setUnit_keepsAbove u _).trans (State.count_keepsAbove _ hlost 1)).trans (State.setf_keepsAbove _ hflag)

theorem State.qualify_keepsAbove (s : State) (e : LEv) : KeepsAboveLantern s (s.qualify u e) := by
  have haddr := markFlds_addr_lt hu
  simp only [markFlds, List.forall_mem_cons] at haddr
  obtain ⟨-, -, -, hsupp, hcoinc, hflag, -⟩ := haddr
  unfold State.qualify
  extract_lets a r s'
  have hs' : KeepsAboveLantern s s' := .of_regs rfl
  refine hs'.trans ?_
  split
  · exact s'.count_keepsAbove hsupp 1
  · split
    · exact (s'.count_keepsAbove hcoinc 1).trans (State.setf_keepsAbove _ hflag)
    · exact s'.issueMark_keepsAbove hu e _

theorem State.unitEvents_keepsAbove (s : State) (t : Nat) (evs : List LEv) :
    KeepsAboveLantern s (s.unitEvents u t evs) := by
  induction evs generalizing s with
  | nil => exact .refl s
  | cons e es ih =>
    unfold State.unitEvents
    dsimp only
    refine KeepsAboveLantern.trans ?_ (ih _)
    split
    · exact .refl s
    · split
      · exact (s.setUnit_keepsAbove u _).trans (State.qualify_keepsAbove hu _ e)
      · exact .of_regs rfl

theorem State.unitTick_keepsAbove (s : State) (t : Nat) (evs : List LEv) : KeepsAboveLantern s (s.unitTick u t evs) := by
  unfold State.unitTick
  extract_lets a x tmax stage reset s'
  have hs' : KeepsAboveLantern s s' := .of_regs rfl
  split
  · exact .refl s
  · split
    · exact hs'
    · exact hs'.trans (s'.unitEvents_keepsAbove hu t evs)

end

theorem State.unitCtl_keepsAbove (s : State) (x : LItem) : KeepsAboveLantern s (s.unitCtl x) := by
  cases x with
  | ev e => exact .refl s
  | apply t a us =>
    exact (s.setUnitAct_keepsAbove a).trans (foldl_keepsAbove us (fun s u _ => s.startUnit_keepsAbove u) _)
  | hold t => exact foldl_keepsAbove _ (fun s u _ => s.setUnit_keepsAbove u _) s
  | start t =>
    exact foldl_keepsAbove _ (fun s u _ => (s.setUnit_keepsAbove u _).trans (State.startUnit_keepsAbove _ u)) s

theorem State.runUnits_keepsAbove (s : State) (lim n : Nat) : KeepsAboveLantern s (s.runUnits lim n) := by
  induction n generalizing s with
  | zero => exact .refl s
  | succ n ih =>
    unfold State.runUnits
    split
    · exact .refl s
    · split
      · exact .refl s
      · split
        · exact ((s.setQueue_keepsAbove _).trans (State.unitCtl_keepsAbove _ _)).trans (ih _)
        · refine ((s.setQueue_keepsAbove _).trans (foldl_keepsAbove _ (fun s u hu => ?_) _)).trans (ih _)
          exact s.unitTick_keepsAbove (List.mem_range.1 hu) _ _

theorem State.judgePattern_keepsAbove (s : State) (c t : Nat) : KeepsAboveLantern s (s.judgePattern c t) := by
  unfold State.judgePattern
  dsimp only
  split
  · exact .of_regs rfl
  · split
    · exact .of_regs rfl
    · exact .of_regs rfl

theorem State.settlePatterns_keepsAbove (s : State) (t : Nat) : KeepsAboveLantern s (s.settlePatterns t) := by
  refine foldl_keepsAbove _ (fun s c _ => ?_) s
  split
  · split
    · exact s.judgePattern_keepsAbove c _
    · exact .refl s
  · exact .refl s

theorem State.flushUnits_keepsAbove (s : State) (lim : Nat) : KeepsAboveLantern s (s.flushUnits lim) :=
  (s.settlePatterns_keepsAbove _).trans (State.runUnits_keepsAbove _ _ _)

theorem State.takeEdge_keepsAbove (i : Nat) (rise : Bool) (t : Nat) (s : State) (c : Nat) :
    KeepsAboveLantern s (s.takeEdge i rise t c) := by
  unfold State.takeEdge
  dsimp only
  split
  · exact .refl s
  · split
    · split
      · exact .of_regs rfl
      · exact .refl s
    · split
      · exact .of_regs rfl
      · exact .refl s

/-- A digital edge writes no register word outside Lantern's block. -/
theorem State.lanEdge_keepsAbove (s : State) (i : Nat) (rise : Bool) (t : Nat) :
    KeepsAboveLantern s (s.lanEdge i rise t) := by
  have hlevel : KeepsAboveLantern s ((s.settlePatterns t).setLevel i rise) :=
    (s.settlePatterns_keepsAbove t).trans (State.setLevel_keepsAbove _ i rise)
  rw [State.lanEdge_eq]
  split
  · exact hlevel
  · refine (hlevel.trans (foldl_keepsAbove _ (fun s c _ => ?_) _)).trans (State.flushUnits_keepsAbove _ t)
    exact s.takeEdge_keepsAbove i rise t c

theorem State.lanEdge_pending (s : State) (i : Nat) (rise : Bool) (t : Nat) :
    (s.lanEdge i rise t).pending = s.pending := by rw [State.lanEdge_frame]

theorem State.lanEdge_act (s : State) (i : Nat) (rise : Bool) (t : Nat) : (s.lanEdge i rise t).act = s.act := by
  rw [State.lanEdge_frame]

theorem State.lanEdge_glint (s : State) (i : Nat) (rise : Bool) (t : Nat) : (s.lanEdge i rise t).glint = s.glint := by
  rw [State.lanEdge_frame]

/-! ### The clock runs to an event -/

/-- The passing of time touches no register but HOST_EVQ_LOST, POWER_ALERT and the MSI-X pending bits (R7, R73). -/
theorem State.elapse_rd (s : State) (dt : Nat) {f : Fld} {i j : Nat} (h : isMsix (f.addr i j) = false)
    (hp : f.addr i j ≠ 0x3C00040) (hl : f.addr i j ≠ 0x1000AC) : (s.elapse dt).rd f i j = s.rd f i j := by
  unfold State.elapse
  dsimp only
  split
  · split
    · exact State.raise_rd _ _ _ _ _ _ h hp hl
    · rfl
  · rfl

theorem State.toDev_rd (s : State) (t : Nat) {f : Fld} {i j : Nat} (h : isMsix (f.addr i j) = false)
    (hp : f.addr i j ≠ 0x3C00040) (hl : f.addr i j ≠ 0x1000AC) : (s.toDev t).rd f i j = s.rd f i j := by
  unfold State.toDev
  split
  · exact s.elapse_rd _ h hp hl
  · rfl

theorem State.toDev_emergency (s : State) (t : Nat) :
    (s.toDev t).flag F.POWER_STAT_THERM_EMERG = s.flag F.POWER_STAT_THERM_EMERG := by
  rw [State.flag, s.toDev_rd t (f := F.POWER_STAT_THERM_EMERG) (by decide) (by decide) (by decide), State.flag]

theorem State.toDev_ract (s : State) (t : Nat) (f : Fld) (i j : Nat) : (s.toDev t).ract f i j = s.ract f i j := by
  rw [State.ract, State.toDev_act, State.ract]

theorem State.toDev_gin (s : State) (t n : Nat) : (s.toDev t).gin n = s.gin n := by
  rw [State.gin, State.toDev_glint, State.gin]

theorem State.toDev_glRun (s : State) (t g : Nat) : (s.toDev t).glRun g = s.glRun g := by
  rw [State.glRun, State.toDev_glint, State.glRun]

/-! ### Inputs, runs and the groups' STAT -/

theorem State.gin_setGin_same (s : State) (n : Nat) (x : GlIn) : (s.setGin n x).gin n = x := kget_kset_same ..

theorem State.gin_setGin_ne (s : State) {n m : Nat} (x : GlIn) (h : m ≠ n) : (s.setGin n x).gin m = s.gin m :=
  kget_kset_ne _ _ _ _ h

@[simp] theorem State.setGin_pending (s : State) (n : Nat) (x : GlIn) : (s.setGin n x).pending = s.pending := rfl

@[simp] theorem State.setGin_runs (s : State) (n : Nat) (x : GlIn) : (s.setGin n x).glint.runs = s.glint.runs := rfl

theorem State.setGin_slopePass (s : State) (n : Nat) (x : GlIn) (k : Nat) (rise : Bool) :
    (s.setGin n x).slopePass k rise = s.slopePass k rise := rfl

/-- The only run of Glint is replaced. -/
theorem State.runs_setGlRun_single {s : State} {r q : GlRun} (hr : s.glint.runs = [r]) (hjid : q.jid = r.jid) :
    (s.setGlRun q).glint.runs = [q] := by
  simp [State.setGlRun, hr, hjid]

/-- In a list that names `r` both by its group and by its job, the run that replaces it is found by the group. -/
theorem find_group_replace {r q : GlRun} {g : Nat} (hjid : q.jid = r.jid) (hgroup : q.group = r.group) :
    ∀ {l : List GlRun}, l.find? (fun x => x.group = g) = some r → l.find? (fun x => x.jid = r.jid) = some r →
      (l.map fun x => if x.jid = q.jid then q else x).find? (fun x => x.group = g) = some q
  | [], h, _ => nomatch h
  | x :: l, hg, hj => by
    have hrg : r.group = g := by simpa using List.find?_some hg
    by_cases hx : x.jid = r.jid
    · simp [hjid, hx, hgroup, hrg]
    · have hxg : x.group ≠ g := fun h => by
        obtain rfl : x = r := by simpa [h] using hg
        exact hx rfl
      have hg' : l.find? (fun x => x.group = g) = some r := by simpa [hxg] using hg
      have hj' : l.find? (fun x => x.jid = r.jid) = some r := by simpa [hx] using hj
      simpa [hjid, hx, hxg] using find_group_replace hjid hgroup hg' hj'

/-- A group's run, once replaced, is the group's run. -/
theorem State.glRun_setGlRun {s : State} {r q : GlRun} {g : Nat} (hr : s.glRun g = some r)
    (hjob : s.glint.runs.find? (fun x => x.jid = r.jid) = some r) (hjid : q.jid = r.jid) (hgroup : q.group = r.group) :
    (s.setGlRun q).glRun g = some q := find_group_replace hjid hgroup hr hjob

/-- A run that Glint holds, once replaced, is found by its job. -/
theorem State.find_setGlRun {s : State} {r q : GlRun} (hjob : s.glint.runs.find? (fun x => x.jid = r.jid) = some r)
    (hjid : q.jid = r.jid) : (s.setGlRun q).glint.runs.find? (fun x => x.jid = r.jid) = some q := by
  unfold State.setGlRun
  generalize s.glint.runs = l at hjob
  induction l with
  | nil => exact nomatch hjob
  | cons x l ih =>
    by_cases hx : x.jid = r.jid
    · simp [hx, hjid]
    · simpa [hx, hjid] using ih (by simpa [hx] using hjob)

/-- From `s` to `t` only register words change. -/
def RegsChange (s t : State) : Prop := t = { s with regs := t.regs }

theorem RegsChange.trans {s u t : State} (h : RegsChange s u) (h' : RegsChange u t) : RegsChange s t := by
  rw [RegsChange, h', h]

theorem State.wr_regsChange (s : State) (f : Fld) (v i j : Nat) : RegsChange s (s.wr f v i j) := rfl

/-- A group's STAT is a matter of the register file. -/
theorem State.glStat_frame (s : State) (g : Nat) : s.glStat g = { s with regs := (s.glStat g).regs } := by
  change RegsChange s (s.glStat g)
  unfold State.glStat
  split
  · exact (((s.wr_regsChange ..).trans (State.wr_regsChange ..)).trans (State.wr_regsChange ..)).trans
      (State.wr_regsChange ..)
  · exact (((s.wr_regsChange ..).trans (State.wr_regsChange ..)).trans (State.wr_regsChange ..)).trans
      (State.wr_regsChange ..)

@[simp] theorem State.glStat_glint (s : State) (g : Nat) : (s.glStat g).glint = s.glint := by rw [State.glStat_frame]

/-- WINDOW of a group shows whether its run measures (R277). -/
theorem State.glStat_window {s : State} {g : Nat} {r : GlRun} (hr : s.glRun g = some r) :
    (s.glStat g).rd F.GLINT_Gg_STAT_WINDOW g = b2n r.meas.isSome := by
  have hwindow : b2n r.meas.isSome % F.GLINT_Gg_STAT_WINDOW.span = b2n r.meas.isSome := by
    cases r.meas <;> rfl
  simp only [State.glStat, hr]
  rw [State.rd_wr_bits (f := F.GLINT_Gg_STAT_CLK_HOLD) (g := F.GLINT_Gg_STAT_WINDOW) rfl rfl rfl rfl (.inl (by decide)),
    State.rd_wr_bits (f := F.GLINT_Gg_STAT_CLASS) (g := F.GLINT_Gg_STAT_WINDOW) rfl rfl rfl rfl (.inl (by decide)),
    State.rd_wr_same rfl, hwindow]

/-! ### An edge of an enabled input (R252, R253) -/

theorem exec_glintEdge_def (n : Fin 260) (rise full : Bool) (t : Nat) (s : State) :
    exec (.glintEdge n rise full t) s = execGlintEdge n rise full t s := rfl

/-- The stamp of an edge of input `n` at `t`, moved by the input's DESKEW. -/
def State.stampTime (s : State) (n t : Nat) : Nat := ((t : Int) + sgn 16 (s.ract F.GLINT_INn_TERM_DESKEW n)).toNat

theorem State.stampTime_noDeskew {s : State} {n : Nat} (h : s.ract F.GLINT_INn_TERM_DESKEW n = 0) (t : Nat) :
    s.stampTime n t = t := by simp [State.stampTime, h, sgn]

/-- The edge at `t` of an input whose path is open comes to the interpolators: A, or B while A is busy, or it is lost. -/
def State.interpolate (s : State) (n : Nat) (rise full : Bool) (t : Nat) : State :=
  if (s.gin n).freeA ≤ t then
    (s.setGin n { s.gin n with freeA := t + 327680 }).stampEdge n (s.stampTime n t) rise full
  else if (s.gin n).freeB ≤ t then
    (s.setGin n { s.gin n with freeB := t + 327680 }).stampEdge n (s.stampTime n t) rise full
  else s.loseStamp n (s.stampTime n t) F.GLINT_INn_STAT_INTERP_LOSS

section
variable {s : State} {n t : Nat} {x : GlIn} (hx : s.gin n = x)
include hx

theorem State.interpolate_A (hA : x.freeA ≤ t) (rise full : Bool) :
    s.interpolate n rise full t = (s.setGin n { x with freeA := t + 327680 }).stampEdge n (s.stampTime n t) rise full := by
  rw [State.interpolate, hx, if_pos hA]

theorem State.interpolate_B (hA : t < x.freeA) (hB : x.freeB ≤ t) (rise full : Bool) :
    s.interpolate n rise full t = (s.setGin n { x with freeB := t + 327680 }).stampEdge n (s.stampTime n t) rise full := by
  rw [State.interpolate, hx, if_neg (Nat.not_le.2 hA), if_pos hB]

theorem State.interpolate_busy (hA : t < x.freeA) (hB : t < x.freeB) (rise full : Bool) :
    s.interpolate n rise full t = s.loseStamp n (s.stampTime n t) F.GLINT_INn_STAT_INTERP_LOSS := by
  rw [State.interpolate, hx, if_neg (Nat.not_le.2 hA), if_neg (Nat.not_le.2 hB)]

end

/-- Only class F runs prescale (R263). -/
theorem State.prescale_classI {s : State} (hclass : ∀ r ∈ s.glint.runs, r.clsF = false) (n t : Nat) (rise : Bool) :
    s.prescale n t rise = (true, s) := by
  have hnone : s.glint.runs.find? (fun r => r.clsF && decide (1 < r.presc) && r.masked.contains n &&
      (match r.meas with | some m => m.inWin t | none => false)) = none :=
    List.find?_eq_none.2 fun r hr => by simp [hclass r hr]
  unfold State.prescale
  split
  · rfl
  · next r hr => exact absurd (hnone.symm.trans hr) nofun

/-- An input whose edges a gate source does not name opens and closes no gate. -/
theorem State.gateEdge_noSource {s : State} {n : Nat} (h : ∀ r ∈ s.glint.runs, r.gateSrc ≠ n) (rise : Bool) (t : Nat) :
    s.gateEdge n rise t = s := by
  have hnone : s.glint.runs.filter (fun r => decide (r.gateSrc = n)) = [] :=
    List.filter_eq_nil_iff.2 fun r hr => by simpa using h r hr
  rw [State.gateEdge, hnone]
  rfl

theorem State.pathStamp_noRun {s : State} (h : s.glint.runs = []) (n t : Nat) (rise full : Bool) :
    s.pathStamp n t rise full = s := by simp [State.pathStamp, h]

/-- The state `t` after a stamp of input `n` that no run takes: `u` with the input's path at `x`, the stamp counted, and
Lantern's level set (R252). -/
structure Stamped (n : Nat) (rise : Bool) (x : GlIn) (u t : State) : Prop where
  frame : t = { u with regs := t.regs, out := t.out, lan := t.lan, glint := t.glint }
  glint : t.glint = (u.setGin n x).glint
  level : kget t.lan.levels n false = rise
  count : t.rd F.GLINT_INn_STAMP_CNT_COUNT n = min (u.rd F.GLINT_INn_STAMP_CNT_COUNT n + 1) 0xFFFFFFFF

theorem Stamped.pending {n : Nat} {rise : Bool} {x : GlIn} {u t : State} (h : Stamped n rise x u t) :
    t.pending = u.pending := by rw [h.frame]

theorem Stamped.runs {n : Nat} {rise : Bool} {x : GlIn} {u t : State} (h : Stamped n rise x u t) :
    t.glint.runs = u.glint.runs := by rw [h.glint, State.setGin_runs]

theorem Stamped.gin_same {n : Nat} {rise : Bool} {x : GlIn} {u t : State} (h : Stamped n rise x u t) : t.gin n = x := by
  rw [State.gin, h.glint]
  exact u.gin_setGin_same n x

theorem Stamped.gin_ne {n m : Nat} {rise : Bool} {x : GlIn} {u t : State} (h : Stamped n rise x u t) (hm : m ≠ n) :
    t.gin m = u.gin m := by
  rw [State.gin, h.glint]
  exact u.gin_setGin_ne x hm

theorem State.stampEdge_stamped {u : State} (hruns : u.glint.runs = []) (n : Nat) (x : GlIn) (t : Nat) (rise full : Bool) :
    Stamped n rise x u ((u.setGin n x).stampEdge n t rise full) := by
  let c := (u.setGin n x).count F.GLINT_INn_STAMP_CNT_COUNT 1 n
  have hnone : (c.lanEdge n rise t).glint.runs = [] := by
    rw [State.lanEdge_glint]
    exact hruns
  have hedge : (u.setGin n x).stampEdge n t rise full = c.lanEdge n rise t := by
    change ((c.lanEdge n rise t).pathStamp n t rise full).gateEdge n rise t = _
    rw [State.pathStamp_noRun hnone, State.gateEdge_noSource (by simp [hnone])]
  have habove : lanHi ≤ F.GLINT_INn_STAMP_CNT_COUNT.addr n 0 := by
    simp only [lanHi, F.GLINT_INn_STAMP_CNT_COUNT, Fld.addr]
    omega
  have hframe := c.lanEdge_frame n rise t
  have hglint := c.lanEdge_glint n rise t
  rw [hedge]
  refine ⟨?_, hglint, ?_, ?_⟩
  · rw [hglint]
    exact hframe
  · rw [State.lanEdge_levels]
    exact kget_kset_same ..
  · exact ((c.lanEdge_keepsAbove n rise t).rd habove).trans (State.rd_count rfl _ 1 n 0)

/-- The state `t` after an edge of input `n` that is lost to busy interpolators, where no run takes the input (R253). -/
structure EdgeLost (n : Nat) (u t : State) : Prop where
  frame : t = { u with regs := t.regs }
  flag : t.rd F.GLINT_INn_STAT_INTERP_LOSS n = 1
  count : t.rd F.GLINT_INn_LOSS_CNT_COUNT n = min (u.rd F.GLINT_INn_LOSS_CNT_COUNT n + 1) 0xFFFFFFFF

theorem EdgeLost.pending {n : Nat} {u t : State} (h : EdgeLost n u t) : t.pending = u.pending := by rw [h.frame]

theorem EdgeLost.glint {n : Nat} {u t : State} (h : EdgeLost n u t) : t.glint = u.glint := by rw [h.frame]

theorem EdgeLost.gin {n : Nat} {u t : State} (h : EdgeLost n u t) (m : Nat) : t.gin m = u.gin m := by
  rw [State.gin, h.glint, State.gin]

theorem EdgeLost.lan {n : Nat} {u t : State} (h : EdgeLost n u t) : t.lan = u.lan := by rw [h.frame]

theorem State.loseStamp_lost {u : State} (hruns : u.glint.runs = []) (n t : Nat) :
    EdgeLost n u (u.loseStamp n t F.GLINT_INn_STAT_INTERP_LOSS) := by
  have hapart : F.GLINT_INn_LOSS_CNT_COUNT.addr n 0 ≠ F.GLINT_INn_STAT_INTERP_LOSS.addr n 0 := by
    simp only [F.GLINT_INn_LOSS_CNT_COUNT, F.GLINT_INn_STAT_INTERP_LOSS, Fld.addr]
    omega
  have hlost : u.loseStamp n t F.GLINT_INn_STAT_INTERP_LOSS =
      (u.count F.GLINT_INn_LOSS_CNT_COUNT 1 n).setf F.GLINT_INn_STAT_INTERP_LOSS n := by
    unfold State.loseStamp
    dsimp only
    rw [State.setf_glint, State.count_glint, hruns, List.map_nil, ← hruns]
    rfl
  rw [hlost]
  refine ⟨rfl, State.rd_wr_same rfl _ 1 n 0, ?_⟩
  exact (State.rd_wr_addr hapart _ 1).trans (State.rd_count rfl u 1 n 0)

/-- What an edge of input `n` that no run takes leaves, whether it is stamped or lost. -/
structure EdgeTaken (n : Nat) (u t : State) : Prop where
  frame : t = { u with regs := t.regs, out := t.out, lan := t.lan, glint := t.glint }
  runs : t.glint.runs = u.glint.runs
  others : ∀ m, m ≠ n → t.gin m = u.gin m

theorem Stamped.taken {n : Nat} {rise : Bool} {x : GlIn} {u t : State} (h : Stamped n rise x u t) : EdgeTaken n u t :=
  ⟨h.frame, h.runs, fun _ hm => h.gin_ne hm⟩

theorem EdgeLost.taken {n : Nat} {u t : State} (h : EdgeLost n u t) : EdgeTaken n u t :=
  ⟨by rw [h.frame], by rw [h.glint], fun m _ => h.gin m⟩

section
variable {s : State} (hs : s.dead = false) (hrun : s.running = true) (hcool : s.flag F.POWER_STAT_THERM_EMERG = false)
  (hhold : s.glint.holding = false) {n : Fin 256} {e : Nat} (hen : s.ract F.GLINT_INn_CTRL_ENABLE n = 1)
  (hclass : ∀ r ∈ s.glint.runs, r.clsF = false) (hwait : (s.gin n).wait = false) (hfrom : (s.gin n).from' ≤ e)
include hs hrun hcool hhold hen hclass hwait hfrom

/-- Where no prescaler is at work, an edge on an enabled input comes to its interpolators. -/
theorem exec_glintEdge_input {rise full : Bool} {t : State} (ht : (s.toDev e).interpolate n rise full e = t)
    (hp : t.pending = s.pending) : exec (.glintEdge ⟨n.val, by omega⟩ rise full e) s = .next t := by
  have hbelow : ¬ 256 ≤ n.val := by omega
  have hnow : ¬ e < (s.gin n).from' := by omega
  have hpre : ∀ st, (s.toDev e).prescale n st rise = (true, s.toDev e) := fun st =>
    State.prescale_classI (by rwa [State.toDev_glint]) n st rise
  rw [exec_glintEdge_def]
  refine live_eq hs _ (Eq.trans ?_ ht) hp
  simp only [State.interpolate, State.stampTime, State.toDev_running, hrun, State.toDev_emergency, hcool,
    State.toDev_glint, hhold, hbelow, State.toDev_gin, State.toDev_ract, hen, hwait, hnow, hpre, Bool.not_true,
    Bool.or_self, Bool.false_eq_true, if_false, decide_false, Nat.one_ne_zero]

/-- An edge on an input that no run takes is stamped by interpolator A, by B while A is busy, or lost (R252, R253). -/
theorem exec_glintEdge_noRun (hruns : s.glint.runs = []) (rise full : Bool) :
    ∃ t, exec (.glintEdge ⟨n.val, by omega⟩ rise full e) s = .next t ∧
      (((s.gin n).freeA ≤ e ∧ Stamped n rise { s.gin n with freeA := e + 327680 } (s.toDev e) t) ∨
        (e < (s.gin n).freeA ∧ (s.gin n).freeB ≤ e ∧ Stamped n rise { s.gin n with freeB := e + 327680 } (s.toDev e) t) ∨
        (e < (s.gin n).freeA ∧ e < (s.gin n).freeB ∧ EdgeLost n (s.toDev e) t)) := by
  let u := s.toDev e
  have hu : u.glint.runs = [] := by rw [State.toDev_glint, hruns]
  have hgin : u.gin n = s.gin n := s.toDev_gin e n
  have hexec {t : State} (ht : u.interpolate n rise full e = t) (hp : t.pending = u.pending) :
      exec (.glintEdge ⟨n.val, by omega⟩ rise full e) s = .next t :=
    exec_glintEdge_input hs hrun hcool hhold hen hclass hwait hfrom ht (hp.trans (s.toDev_pending e))
  rcases Nat.lt_or_ge e (s.gin n).freeA with hA | hA
  · rcases Nat.lt_or_ge e (s.gin n).freeB with hB | hB
    · have hlost := State.loseStamp_lost hu n (u.stampTime n e)
      exact ⟨_, hexec (State.interpolate_busy hgin hA hB ..) hlost.pending, .inr (.inr ⟨hA, hB, hlost⟩)⟩
    · have hstamp := State.stampEdge_stamped hu n { s.gin n with freeB := e + 327680 } (u.stampTime n e) rise full
      exact ⟨_, hexec (State.interpolate_B hgin hA hB ..) hstamp.pending, .inr (.inl ⟨hA, hB, hstamp⟩)⟩
  · have hstamp := State.stampEdge_stamped hu n { s.gin n with freeA := e + 327680 } (u.stampTime n e) rise full
    exact ⟨_, hexec (State.interpolate_A hgin hA ..) hstamp.pending, .inl ⟨hA, hstamp⟩⟩

end

/-! ### A stamp joins a class I measurement (R259, R260) -/

/-- An open measurement wants every stamp of its run's inputs from the window's start up to the measurement's reach. -/
theorem GlRun.wants_open {r : GlRun} {m : Meas} {n t : Nat} (htakes : r.takes.contains n = true) (hm : r.meas = some m)
    (hws : m.ws ≤ t) (hlim : t ≤ m.lim) (hopen : m.wend = none) : r.wants n t = true := by
  simp only [GlRun.wants, htakes, hm, Meas.inWin, hws, hlim, hopen, and_self, decide_true, Bool.and_self, Bool.true_or]

/-- A stamp's way to the measurements is Glint's own. -/
theorem State.pathStamp_frame (s : State) (n t : Nat) (rise : Bool) :
    s.pathStamp n t rise false = { s with glint := (s.pathStamp n t rise false).glint } := by
  unfold State.pathStamp
  split <;> rfl

theorem State.pathStamp_pending (s : State) (n t : Nat) (rise : Bool) :
    (s.pathStamp n t rise false).pending = s.pending := by rw [State.pathStamp_frame]

/-- The only run takes the stamp it wants. -/
theorem State.pathStamp_single {s : State} {r : GlRun} {n t : Nat} {rise : Bool} (hr : s.glint.runs = [r])
    (hslope : s.slopePass n rise = true) (hwants : r.wants n t = true) :
    (s.pathStamp n t rise false).glint.runs = [{ r with meas := r.meas.map fun m => m.take r ⟨t, n, rise⟩ }] := by
  simp [State.pathStamp, hr, hslope, hwants, State.setGin]

/-- After a stamp that the only run wants, and that no gate source gives, the run's measurement holds it. -/
theorem State.stampEdge_single {s : State} {r : GlRun} {n t : Nat} {rise : Bool} (hr : s.glint.runs = [r])
    (hslope : s.slopePass n rise = true) (hwants : r.wants n t = true) (hsrc : r.gateSrc ≠ n) :
    (s.stampEdge n t rise false).pending = s.pending ∧
      (s.stampEdge n t rise false).glint.runs = [{ r with meas := r.meas.map fun m => m.take r ⟨t, n, rise⟩ }] := by
  let c := (s.count F.GLINT_INn_STAMP_CNT_COUNT 1 n).lanEdge n rise t
  have hcr : c.glint.runs = [r] := by
    rw [State.lanEdge_glint]
    exact hr
  have hcs : c.slopePass n rise = true := by
    rw [State.slopePass, State.ract, State.lanEdge_act]
    exact hslope
  have hcp : c.pending = s.pending := by
    rw [State.lanEdge_pending]
    rfl
  have hruns := State.pathStamp_single hcr hcs hwants
  have hedge : s.stampEdge n t rise false = c.pathStamp n t rise false := by
    change (c.pathStamp n t rise false).gateEdge n rise t = _
    exact State.gateEdge_noSource (by simpa [hruns] using hsrc) rise t
  rw [hedge]
  exact ⟨(c.pathStamp_pending n t rise).trans hcp, hruns⟩

/-- A stamp within the reach of the open class I measurement that takes its input joins the measurement. -/
theorem exec_glintEdge_joins {s : State} (hs : s.dead = false) (hrun : s.running = true)
    (hcool : s.flag F.POWER_STAT_THERM_EMERG = false) (hhold : s.glint.holding = false) {n : Fin 256} {e : Nat}
    (hen : s.ract F.GLINT_INn_CTRL_ENABLE n = 1) {r : GlRun} {m : Meas} (hr : s.glint.runs = [r]) (hclass : r.clsF = false)
    (hm : r.meas = some m) (htakes : r.takes.contains n.val = true) (hsrc : r.gateSrc ≠ n.val) {rise : Bool}
    (hslope : s.slopePass n rise = true) (hwait : (s.gin n).wait = false) (hfrom : (s.gin n).from' ≤ e)
    (hA : (s.gin n).freeA ≤ e) (hskew : s.ract F.GLINT_INn_TERM_DESKEW n = 0) (hws : m.ws ≤ e) (hlim : e ≤ m.lim)
    (hopen : m.wend = none) :
    ∃ t, exec (.glintEdge ⟨n.val, by omega⟩ rise false e) s = .next t ∧
      t.glint.runs = [{ r with meas := some (m.take r ⟨e, n.val, rise⟩) }] := by
  let u := s.toDev e
  let v := u.setGin n { s.gin n with freeA := e + 327680 }
  have htime : u.stampTime n e = e := State.stampTime_noDeskew (by rw [State.toDev_ract, hskew]) e
  have hvr : v.glint.runs = [r] := by rw [State.setGin_runs, State.toDev_glint, hr]
  have hvs : v.slopePass n rise = true := by rwa [State.setGin_slopePass, State.slopePass, State.toDev_ract]
  obtain ⟨hpending, hruns⟩ := State.stampEdge_single hvr hvs (GlRun.wants_open htakes hm hws hlim hopen) hsrc
  have hstamp : u.interpolate n rise false e = v.stampEdge n e rise false := by
    rw [State.interpolate_A (s.toDev_gin e n) hA, htime]
  refine ⟨_, exec_glintEdge_input hs hrun hcool hhold hen (by simpa [hr] using hclass) hwait hfrom hstamp ?_, ?_⟩
  · rw [hpending, State.setGin_pending, State.toDev_pending]
  · rw [hruns, hm, Option.map_some]

/-! ### The opening edge of a gate (R258) -/

/-- The only run's gate source brings the edge that opens its gate. -/
theorem State.gateEdge_opening {s : State} {r : GlRun} {n : Nat} (hr : s.glint.runs = [r]) (hsrc : r.gateSrc = n)
    (t : Nat) : s.gateEdge n (decide (r.pol = 0)) t = s.gateOpen r t := by
  simp [State.gateEdge, hr, hsrc]

/-- A run with the measurement that an opening of its gate at `t` begins. -/
def GlRun.begun (r : GlRun) (t : Nat) : GlRun :=
  { r with meas := some { tg := t, brk := r.brk, accs := r.stops.map (fun _ => {}) }, gates := r.gates + 1, brk := false }

/-- From `s` to `t` only the inputs' stamping paths change. -/
def PathsChange (s t : State) : Prop := t = { s with glint := { s.glint with ins := t.glint.ins } }

theorem PathsChange.trans {s u t : State} (h : PathsChange s u) (h' : PathsChange u t) : PathsChange s t := by
  rw [PathsChange, h', h]

theorem State.setGin_paths (s : State) (n : Nat) (x : GlIn) : PathsChange s (s.setGin n x) := rfl

/-- An opening that begins a measurement: STAT shows it, and the inputs that the run takes calibrate (R256, R258). -/
theorem State.gateOpen_begins {s : State} {r : GlRun} (harmed : r.armed = true) (hhold : r.hold = false)
    (hmeas : r.meas = none) (hover : r.isOver = false) (t : Nat) :
    PathsChange ((s.setGlRun (r.begun t)).glStat r.group) (s.gateOpen r t) := by
  unfold State.gateOpen
  rw [if_neg (by simp [harmed, hhold]), hmeas]
  dsimp only
  rw [if_neg (by simp [hover])]
  exact foldl_relates (R := PathsChange) (fun _ => rfl) .trans (fun s n => s.setGin_paths n _) _ _

theorem State.gateOpen_over {s : State} {r : GlRun} (hmeas : r.meas = none) (hover : r.isOver = true) (t : Nat) :
    s.gateOpen r t = s := by
  simp [State.gateOpen, hmeas, hover]

theorem State.gateOpen_skips {s : State} {r : GlRun} {m : Meas} (harmed : r.armed = true) (hhold : r.hold = false)
    (hmeas : r.meas = some m) (t : Nat) :
    s.gateOpen r t =
      (s.setGlRun { r with meas := some { m with skips := m.skips + 1 } }).count F.GLINT_GATE_SKIP_CNT_COUNT := by
  simp [State.gateOpen, harmed, hhold, hmeas]

section
variable {s : State} (hs : s.dead = false) (hrun : s.running = true) (hcool : s.flag F.POWER_STAT_THERM_EMERG = false)
  (hhold : s.glint.holding = false) {g : Fin 4} {e : Nat} {r : GlRun} (hr : s.glint.runs = [r])
  (hsrc : r.gateSrc = 256 + g.val)
include hs hrun hcool hhold hr hsrc

/-- An opening edge of a gate input opens the gate of the only run. -/
theorem exec_glintEdge_gate {t : State} (ht : (s.toDev e).gateOpen r e = t) (hp : t.pending = s.pending) :
    exec (.glintEdge ⟨256 + g.val, by omega⟩ (decide (r.pol = 0)) false e) s = .next t := by
  have hgate : 256 ≤ 256 + g.val := by omega
  have hopens := State.gateEdge_opening ((congrArg GlintSt.runs (s.toDev_glint e)).trans hr) hsrc e
  rw [exec_glintEdge_def]
  refine live_eq hs _ (Eq.trans ?_ (hopens.trans ht)) hp
  simp only [State.toDev_running, hrun, State.toDev_emergency, hcool, State.toDev_glint, hhold, hgate, Bool.not_true,
    Bool.or_self, Bool.false_eq_true, if_false, if_true]

variable (harmed : r.armed = true) (hclear : r.hold = false)
include harmed hclear

/-- The opening edge of an armed run's gate begins a measurement, changes nothing once the run takes no further gate, or is
counted as skipped while a measurement is open. -/
theorem exec_glintEdge_opening :
    ∃ t, exec (.glintEdge ⟨256 + g.val, by omega⟩ (decide (r.pol = 0)) false e) s = .next t ∧
      t = { s.toDev e with regs := t.regs, glint := t.glint } ∧
      (r.meas = none → r.isOver = false → t.glint.runs = [r.begun e] ∧ t.rd F.GLINT_Gg_STAT_WINDOW r.group = 1) ∧
      (r.meas = none → r.isOver = true → t = s.toDev e) ∧
      (∀ m, r.meas = some m → t.glint.runs = [{ r with meas := some { m with skips := m.skips + 1 } }] ∧
        t.rd F.GLINT_GATE_SKIP_CNT_COUNT = min ((s.toDev e).rd F.GLINT_GATE_SKIP_CNT_COUNT + 1) 0xFFFFFFFF) := by
  let u := s.toDev e
  have hu : u.glint.runs = [r] := (congrArg GlintSt.runs (s.toDev_glint e)).trans hr
  have hexec {t : State} (ht : u.gateOpen r e = t) (hp : t.pending = u.pending) :=
    exec_glintEdge_gate hs hrun hcool hhold hr hsrc ht (hp.trans (s.toDev_pending e))
  cases hmeas : r.meas with
  | none =>
    cases hover : r.isOver with
    | false =>
      let v := (u.setGlRun (r.begun e)).glStat r.group
      have hpaths : PathsChange v (u.gateOpen r e) := State.gateOpen_begins harmed hclear hmeas hover e
      have hruns : (u.setGlRun (r.begun e)).glint.runs = [r.begun e] := State.runs_setGlRun_single hu rfl
      have hvg : v.glint = (u.setGlRun (r.begun e)).glint := State.glStat_glint _ _
      have hv : v = { u with regs := v.regs, glint := v.glint } := by
        rw [hvg]
        exact State.glStat_frame _ _
      have hvr : v.glint.runs = [r.begun e] := (congrArg GlintSt.runs hvg).trans hruns
      have hfound : (u.setGlRun (r.begun e)).glRun r.group = some (r.begun e) := by
        rw [State.glRun, hruns]
        simp [GlRun.begun]
      have hwindow : v.rd F.GLINT_Gg_STAT_WINDOW r.group = 1 := State.glStat_window hfound
      generalize hw : u.gateOpen r e = w at hpaths
      have hwr : w.glint.runs = v.glint.runs := by rw [hpaths]
      have hframe : w = { u with regs := w.regs, glint := w.glint } := by rw [hpaths, hv]
      have hregs : w.regs = v.regs := by rw [hpaths]
      refine ⟨w, hexec hw (by rw [hframe]), hframe, fun _ _ => ⟨hwr.trans hvr, ?_⟩, nofun, nofun⟩
      rw [State.rd, hregs]
      exact hwindow
    | true => exact ⟨u, hexec (State.gateOpen_over hmeas hover e) rfl, rfl, nofun, fun _ _ => rfl, nofun⟩
  | some m =>
    refine ⟨_, hexec (State.gateOpen_skips harmed hclear hmeas e) rfl, rfl, nofun, nofun, fun m' hm' => ?_⟩
    obtain rfl := Option.some.inj hm'
    exact ⟨State.runs_setGlRun_single hu rfl, State.rd_count rfl _ 1 0 0⟩

end

/-! ### An interpolator's calibration (R256) -/

theorem exec_glintInterpCal {s : State} (hs : s.dead = false) (n : Fin 256) (hhold : s.glint.holding = false)
    (hrun : s.running = true) (hen : s.ract F.GLINT_INn_CTRL_ENABLE n = 1) :
    exec (.glintInterpCal n) s = .next (s.setGin n { s.gin n with
      calAt := s.devTime, scaleAt := (s.devTime / 32768 + 1) * 32768, wait := false
      from' := if (s.gin n).wait then (s.devTime / 32768 + 1) * 32768 else (s.gin n).from' }) := by
  change execGlintInterpCal n s = _
  exact live_eq hs _ (if_neg (by simp [hhold, hrun, hen])) rfl

/-! ### The ends of a measurement (R258-R260, R270) -/

theorem Meas.closeCycle_frame (m : Meas) (r : GlRun) :
    m.closeCycle r = { m with cycles := m.cycles.tail, accs := (m.closeCycle r).accs } := by
  unfold Meas.closeCycle
  cases hc : m.cycles with
  | nil =>
    change m = { m with cycles := [], accs := m.accs }
    rw [← hc]
  | cons ts cs => rfl

/-- Closing cycles takes the oldest from those still open, and changes nothing else but what the stops have gathered. -/
theorem Meas.closeCycles_frame (r : GlRun) (n : Nat) (m : Meas) :
    Meas.closeCycles r n m = { m with cycles := m.cycles.drop n, accs := (Meas.closeCycles r n m).accs } := by
  induction n generalizing m with
  | zero => rfl
  | succ n ih =>
    rw [Meas.closeCycles, ih, Meas.closeCycle_frame]
    simp

/-- A run with its measurement `m` ended. -/
def GlRun.withEnded (r : GlRun) (m : Meas) : GlRun := { r with meas := none, ended := r.ended ++ [m] }

section
variable {s : State} {q : GlRun} {m : Meas} (hm : q.meas = some m)
include hm

/-- A measurement whose window or whose last cycle is open goes on. -/
theorem State.measCheck_open (h : m.wend = none ∨ m.cycles ≠ []) : s.measCheck q = s.setGlRun q := by
  have hopen : (m.wend.isNone || !m.cycles.isEmpty) = true := by simpa using h
  rw [State.measCheck, hm]
  exact if_pos hopen

/-- A measurement whose window and whose last cycle have closed has ended. -/
theorem State.measCheck_ends (hw : m.wend.isSome = true) (hc : m.cycles = []) :
    s.measCheck q = (s.setGlRun (q.withEnded m)).glStat q.group := by
  have hclosed : (m.wend.isNone || !m.cycles.isEmpty) = false := by simpa [hc] using hw
  rw [State.measCheck, hm]
  exact if_neg (by rw [hclosed]; decide)

end

/-- The check of a measurement touches registers and Glint only. -/
theorem State.measCheck_frame (s : State) (q : GlRun) :
    s.measCheck q = { s with regs := (s.measCheck q).regs, glint := (s.measCheck q).glint } := by
  unfold State.measCheck
  split
  · rfl
  · split
    · rfl
    · rw [State.glStat_glint]
      exact State.glStat_frame _ _

theorem State.measCheck_pending (s : State) (q : GlRun) : (s.measCheck q).pending = s.pending := by
  rw [State.measCheck_frame]

section
variable {s : State} {g : Nat} {r q : GlRun} {m : Meas} (hr : s.glRun g = some r)
  (hjob : s.glint.runs.find? (fun x => x.jid = r.jid) = some r) (hjid : q.jid = r.jid) (hgroup : q.group = r.group)
  (hm : q.meas = some m)
include hr hjob hjid hgroup hm

theorem State.measCheck_glRun_open (h : m.wend = none ∨ m.cycles ≠ []) : (s.measCheck q).glRun g = some q := by
  rw [State.measCheck_open hm h]
  exact State.glRun_setGlRun hr hjob hjid hgroup

theorem State.measCheck_glRun_ends (hw : m.wend.isSome = true) (hc : m.cycles = []) :
    (s.measCheck q).glRun g = some (q.withEnded m) := by
  rw [State.measCheck_ends hm hw hc, State.glRun, State.glStat_glint]
  exact State.glRun_setGlRun (q := q.withEnded m) hr hjob hjid hgroup

end

/-- What the end of a window or of a cycle at `e` leaves, where the run is `q` as its measurement is checked. -/
theorem State.measCheck_after {s : State} {g : Nat} {r : GlRun} (hr : s.glRun g = some r)
    (hjob : s.glint.runs.find? (fun x => x.jid = r.jid) = some r) {e : Nat} {q : GlRun} {m : Meas}
    (hjid : q.jid = r.jid) (hgroup : q.group = r.group) (hm : q.meas = some m) :
    (s.toDev e).measCheck q = { s.toDev e with
      regs := ((s.toDev e).measCheck q).regs, glint := ((s.toDev e).measCheck q).glint } ∧
    ((m.wend = none ∨ m.cycles ≠ []) → ((s.toDev e).measCheck q).glRun g = some q) ∧
    (m.wend.isSome = true → m.cycles = [] → ((s.toDev e).measCheck q).glRun g = some (q.withEnded m)) := by
  have hu : (s.toDev e).glRun g = some r := (s.toDev_glRun e g).trans hr
  have hujob : (s.toDev e).glint.runs.find? (fun x => x.jid = r.jid) = some r := by rwa [State.toDev_glint]
  exact ⟨State.measCheck_frame _ q, State.measCheck_glRun_open hu hujob hjid hgroup hm,
    State.measCheck_glRun_ends hu hujob hjid hgroup hm⟩

section
variable {s : State} (hs : s.dead = false) {g : Fin 32} {r : GlRun} (hr : s.glRun g = some r)
  (hjob : s.glint.runs.find? (fun x => x.jid = r.jid) = some r)
include hs hr hjob

/-- A run arms at its instant (R258). -/
theorem exec_glintArm (harmed : r.armed = false) :
    ∃ t, exec (.glintArm g) s = .next t ∧ t = { s.toDev r.armAt with glint := t.glint } ∧
      t.glRun g = some { r with armed := true } := by
  have hu : (s.toDev r.armAt).glRun g = some r := (s.toDev_glRun _ g).trans hr
  refine ⟨(s.toDev r.armAt).setGlRun { r with armed := true }, ?_, rfl, ?_⟩
  · change execGlintArm g s = _
    refine live_eq hs _ ?_ (s.toDev_pending r.armAt)
    simp only [hr, harmed, Bool.false_eq_true, if_false]
  · exact State.glRun_setGlRun hu (by rwa [State.toDev_glint]) rfl rfl

variable {m : Meas} (hm : r.meas = some m)
include hm

/-- A timed window ends GATE_LEN after its opening; the measurement ends with it unless a cycle is open (R259, R260). -/
theorem exec_glintWindowEnd (hlen : r.gateLen ≠ 0) (hopen : m.wend = none) {e : Nat}
    (he : m.tg + r.gateLen * 65536000 = e) :
    ∃ t q, exec (.glintWindowEnd g) s = .next t ∧ t = { s.toDev e with regs := t.regs, glint := t.glint } ∧
      t.glRun g = some q ∧ q.lastClose = some e ∧
      (if m.cycles = [] then q.meas = none ∧ q.ended = r.ended ++ [{ m with wend := some e }]
        else q.meas = some { m with wend := some e } ∧ q.ended = r.ended) := by
  let q : GlRun := { r with meas := some { m with wend := some e }, lastClose := some e }
  obtain ⟨hframe, hcycles, hends⟩ := State.measCheck_after hr hjob (e := e) (q := q) rfl rfl rfl
  have hexec : exec (.glintWindowEnd g) s = .next ((s.toDev e).measCheck q) := by
    change execGlintWindowEnd g s = _
    refine live_eq hs _ ?_ ((State.measCheck_pending _ q).trans (s.toDev_pending e))
    simp only [hr, hm, hlen, hopen, he, tickUs, State.winClose, q, Option.isSome_none, Bool.or_false, decide_false,
      Bool.false_eq_true, if_false]
  by_cases hc : m.cycles = []
  · refine ⟨_, q.withEnded { m with wend := some e }, hexec, hframe, hends rfl hc, rfl, ?_⟩
    rw [if_pos hc]
    exact ⟨rfl, rfl⟩
  · refine ⟨_, q, hexec, hframe, hcycles (.inr hc), rfl, ?_⟩
    rw [if_neg hc]
    exact ⟨rfl, rfl⟩

/-- The oldest open cycle closes at its start plus SPAN; the measurement ends with its last cycle once its window has
closed (R260). -/
theorem exec_classICycleClose {ts : Nat} {cs : List Nat} (hc : m.cycles = ts :: cs) (hreach : ts + r.span ≤ m.lim) :
    ∃ t q, exec (.classICycleClose g) s = .next t ∧
      t = { s.toDev (ts + r.span) with regs := t.regs, glint := t.glint } ∧ t.glRun g = some q ∧
      (if cs = [] ∧ m.wend.isSome then q.meas = none ∧ q.ended = r.ended ++ [m.closeCycle r]
        else q.meas = some (m.closeCycle r) ∧ q.ended = r.ended) ∧ (m.closeCycle r).cycles = cs := by
  let q : GlRun := { r with meas := some (m.closeCycle r) }
  have hrest : (m.closeCycle r).cycles = cs := by rw [Meas.closeCycle_frame, hc, List.tail_cons]
  have hwend : (m.closeCycle r).wend = m.wend := by rw [Meas.closeCycle_frame]
  obtain ⟨hframe, hcycles, hends⟩ := State.measCheck_after hr hjob (e := ts + r.span) (q := q) rfl rfl rfl
  rw [hwend, hrest] at hcycles hends
  have hexec : exec (.classICycleClose g) s = .next ((s.toDev (ts + r.span)).measCheck q) := by
    change execClassICycleClose g s = _
    refine live_eq hs _ ?_ ((State.measCheck_pending _ q).trans (s.toDev_pending _))
    simp only [hr, hm, hc, Nat.not_lt.2 hreach, if_false, q]
  by_cases hlast : cs = [] ∧ m.wend.isSome = true
  · refine ⟨_, q.withEnded (m.closeCycle r), hexec, hframe, hends hlast.2 hlast.1, ?_, hrest⟩
    rw [if_pos hlast]
    exact ⟨rfl, rfl⟩
  · have hgoes : m.wend = none ∨ cs ≠ [] := by
      by_cases hw : m.wend = none
      · exact .inl hw
      · exact .inr fun h => hlast ⟨h, Option.isSome_iff_ne_none.2 hw⟩
    refine ⟨_, q, hexec, hframe, hcycles hgoes, ?_, hrest⟩
    rw [if_neg hlast]
    exact ⟨rfl, rfl⟩

/-- A window without a timed end, or with a cycle past the reach, ends 2^47 ticks after the opening at the latest, and the
measurement with it (R259). -/
theorem exec_timeWrap (hwrap : (m.wend = none ∧ r.gateLen = 0) ∨ ∃ ts ∈ m.cycles, m.lim < ts + r.span) :
    ∃ t q x, exec (.timeWrap g) s = .next t ∧ t = { s.toDev m.lim with regs := t.regs, glint := t.glint } ∧
      t.glRun g = some q ∧ q.meas = none ∧ q.ended = r.ended ++ [x] ∧ x.wrap = true ∧
      x.wend = some (m.wend.getD m.lim) ∧ x.cycles = [] ∧ x.stamps = m.stamps := by
  let w : Meas := { m with wend := some (m.wend.getD m.lim), wrap := true, incl := m.incl || m.wend.isNone }
  let x := Meas.closeCycles r m.cycles.length w
  let q : GlRun := { r with meas := some x, lastClose := some (m.wend.getD m.lim) }
  have hx : x = { w with cycles := w.cycles.drop m.cycles.length, accs := x.accs } := Meas.closeCycles_frame ..
  have hwend : x.wend = some (m.wend.getD m.lim) := by rw [hx]
  have hcycles : x.cycles = [] := by
    rw [hx]
    exact List.drop_length
  obtain ⟨hframe, -, hends⟩ := State.measCheck_after hr hjob (e := m.lim) (q := q) rfl rfl rfl
  have hreaches : (!(m.wend.isNone && decide (r.gateLen = 0)) &&
      !m.cycles.any (fun ts => decide (m.lim < ts + r.span))) = false := by
    rcases hwrap with ⟨hopen, hlen⟩ | ⟨ts, hts, hpast⟩
    · simp [hopen, hlen]
    · have hany : m.cycles.any (fun ts => decide (m.lim < ts + r.span)) = true :=
        List.any_eq_true.2 ⟨ts, hts, decide_eq_true hpast⟩
      rw [hany, Bool.not_true, Bool.and_false]
  have hexec : exec (.timeWrap g) s = .next ((s.toDev m.lim).measCheck q) := by
    change execTimeWrap g s = _
    refine live_eq hs _ ?_ ((State.measCheck_pending _ q).trans (s.toDev_pending _))
    simp only [hr, hm, hreaches, Bool.false_eq_true, if_false, q, x, w]
  have hclosed : x.wend.isSome = true := by
    rw [hwend]
    rfl
  exact ⟨_, q.withEnded x, x, hexec, hframe, hends hclosed hcycles, rfl, rfl, by rw [hx], hwend, hcycles, by rw [hx]⟩

end

/-- A run that still measures or owes a result is not settled (R270). -/
theorem State.glSettle_owes {s : State} {jid : Nat} {r : GlRun} (hr : s.glint.runs.find? (fun x => x.jid = jid) = some r)
    (howes : r.meas.isSome = true ∨ r.ended ≠ []) : s.glSettle jid = s := by
  have hstays : (!r.isOver || r.meas.isSome || !r.ended.isEmpty) = true := by
    rcases howes with h | h
    · rw [h, Bool.or_true, Bool.true_or]
    · rw [List.isEmpty_eq_false_iff.2 h, Bool.not_false, Bool.or_true]
  rw [State.glSettle, hr]
  exact if_pos hstays

/-- LIMIT_US after its arming a run takes no further gate (R270). -/
theorem exec_glintLimit {s : State} (hs : s.dead = false) {g : Fin 32} {r : GlRun} (hr : s.glRun g = some r)
    (hjob : s.glint.runs.find? (fun x => x.jid = r.jid) = some r) (hlimit : 0 < r.limit) (harmed : r.armed = true)
    (howes : r.meas.isSome = true ∨ r.ended ≠ []) {e : Nat} (he : r.armAt + r.limit * 65536000 = e) :
    ∃ t, exec (.glintLimit g) s = .next t ∧ t = { s.toDev e with glint := t.glint } ∧
      t.glRun g = some { r with
        closed := true, limited := true, lastClose := if r.meas.isNone then some e else r.lastClose } := by
  let q : GlRun := { r with
    closed := true, limited := true, lastClose := if r.meas.isNone then some e else r.lastClose }
  have hu : (s.toDev e).glRun g = some r := (s.toDev_glRun e g).trans hr
  have hujob : (s.toDev e).glint.runs.find? (fun x => x.jid = r.jid) = some r := by rwa [State.toDev_glint]
  have hsettle : ((s.toDev e).setGlRun q).glSettle r.jid = (s.toDev e).setGlRun q :=
    State.glSettle_owes (State.find_setGlRun hujob rfl) howes
  refine ⟨(s.toDev e).setGlRun q, ?_, rfl, State.glRun_setGlRun hu hujob rfl rfl⟩
  change execGlintLimit g s = _
  refine live_eq hs _ (Eq.trans ?_ hsettle) (s.toDev_pending e)
  simp only [hr, Nat.ne_of_gt hlimit, harmed, he, tickUs, decide_false, Bool.not_true, Bool.or_self, Bool.false_eq_true,
    if_false, q]

/-! ### The obligation -/

/-- Settles O47: an edge by its way over the interpolators, to Lantern, the measurements and the gates; the ends of a run's
window, cycles and gates by the check of its measurement at the instant each has. -/
theorem glintStampsAndGates : Obligations.GlintStampsAndGates := by
  unfold Obligations.GlintStampsAndGates
  intro s hs
  refine ⟨?edge, ?stamp, ?gate, ?calibration, ?run⟩
  case edge =>
    intro n rise full e hrun hcool hhold hen hruns hwait hfrom u
    have hnone : u.glint.runs = [] := by rw [State.toDev_glint, hruns]
    have hgin (m : Nat) : u.gin m = s.gin m := s.toDev_gin e m
    have hgins {t : State} (h : EdgeTaken n u t) : ∀ m, m ≠ n.val → t.gin m = s.gin m := fun m hm =>
      (h.others m hm).trans (hgin m)
    obtain ⟨t, ht, ⟨hA, h⟩ | ⟨hA, hB, h⟩ | ⟨hA, hB, h⟩⟩ :=
      exec_glintEdge_noRun hs hrun hcool hhold hen (by simp [hruns]) hwait hfrom hruns rise full
    · exact ⟨t, ht, h.frame, h.runs.trans hnone, hgins h.taken, fun _ => ⟨h.gin_same, h.level, h.count⟩,
        by omega, by omega⟩
    · exact ⟨t, ht, h.frame, h.runs.trans hnone, hgins h.taken, by omega,
        fun _ _ => ⟨h.gin_same, h.level, h.count⟩, by omega⟩
    · exact ⟨t, ht, h.taken.frame, h.taken.runs.trans hnone, hgins h.taken, by omega, by omega, fun _ _ =>
        ⟨(h.gin n).trans (hgin n), h.lan.trans (s.toDev_lan e), h.flag, h.count⟩⟩
  case stamp =>
    intro n rise e r m hrun hcool hhold hen hr hclass hm htakes hsrc hslope hwait hfrom hA hskew hws hlim hopen
    exact exec_glintEdge_joins hs hrun hcool hhold hen hr hclass hm htakes hsrc hslope hwait hfrom hA hskew hws hlim hopen
  case gate =>
    intro g e r hrun hcool hhold hr hsrc harmed hclear u
    obtain ⟨t, ht, hframe, hbegins, hover, hskips⟩ :=
      exec_glintEdge_opening hs hrun hcool hhold hr hsrc harmed hclear (e := e)
    exact ⟨t, ht, hframe, fun hm ho => ⟨(hbegins hm ho).1, fun _ => (hbegins hm ho).2⟩, hover, hskips⟩
  case calibration =>
    intro n hhold hrun hen e
    exact ⟨_, exec_glintInterpCal hs n hhold hrun hen, rfl, s.gin_setGin_same n _, fun m hm => s.gin_setGin_ne _ hm, rfl⟩
  case run =>
    intro g r hr hjob
    refine ⟨exec_glintArm hs hr hjob, fun m hm hlen hopen => ?_, fun m ts cs hm hc hreach => ?_, fun m hm hwrap => ?_,
      fun hlimit harmed howes => ?_⟩
    · exact exec_glintWindowEnd hs hr hjob hm hlen hopen rfl
    · exact exec_classICycleClose hs hr hjob hm hc hreach
    · exact exec_timeWrap hs hr hjob hm hwrap
    · exact exec_glintLimit hs hr hjob hlimit harmed howes rfl

end Sys2Proof.Machine
end

section
/-! PROOFS. The statements of the movers family: the admission of MOVE and LEDGER_READ, and the end of a MOVE's element. -/
namespace Sys2Proof.Machine

/-! ### A job's elements join its channel (R337, R338) -/

/-- An update of one job is seen by the lookup of any job, where it keeps the identifiers. -/
theorem State.job?_updJob_map (s : State) (i jid : Nat) {f : Job → Job} (hf : ∀ x, (f x).jid = x.jid) :
    (s.updJob i f).job? jid = (s.job? jid).map fun x => if x.jid = i then f x else x := by
  let g (x : Job) : Job := if x.jid = i then f x else x
  have hjid (x : Job) : (g x).jid = x.jid := (apply_ite Job.jid _ _ _).trans (by rw [hf, ite_self])
  have hsame : (fun x : Job => decide (x.jid = jid)) ∘ g = fun x => decide (x.jid = jid) :=
    funext fun x => congrArg (fun n => decide (n = jid)) (hjid x)
  exact List.find?_map.trans (by rw [hsame]; rfl)

/-- What becomes READY is recorded in the host interface alone. -/
theorem State.tryReady_frame (s : State) (c : Nat) : s.tryReady c = { s with host := (s.tryReady c).host } := by
  unfold State.tryReady
  split
  · rfl
  · split
    · rfl
    · split <;> rfl

/-- An element that becomes READY leaves the list of its job; all else of every job stays. -/
theorem State.job?_markReady {s : State} {jid : Nat} {j : Job} (h : s.job? jid = some j) (c : Nat) (k : Job) (e : Elem) :
    ∃ es, (s.markReady c k e).job? jid = some { j with elems := es } := by
  have hjob : (s.markReady c k e).job? jid = (s.job? jid).map fun x =>
      if x.jid = k.jid then { x with elems := dropFirst c x.elems } else x :=
    State.job?_updJob_map _ k.jid jid fun _ => rfl
  rw [h] at hjob
  by_cases hk : j.jid = k.jid
  · exact ⟨dropFirst c j.elems, hjob.trans (congrArg some (if_pos hk))⟩
  · exact ⟨j.elems, hjob.trans (congrArg some (if_neg hk))⟩

/-- A channel that may become READY takes at most an element from its job. -/
theorem State.job?_tryReady {s : State} {jid : Nat} {j : Job} (h : s.job? jid = some j) (c : Nat) :
    ∃ es, (s.tryReady c).job? jid = some { j with elems := es } := by
  unfold State.tryReady
  split
  · exact ⟨j.elems, h⟩
  · split
    · exact ⟨j.elems, h⟩
    · split
      · exact State.job?_markReady h c _ _
      · exact ⟨j.elems, h⟩

/-- The job looked up after an update of it is the updated job. -/
theorem State.job?_updJob_same {s : State} {jid : Nat} {j : Job} (h : s.job? jid = some j) {f : Job → Job}
    (hf : ∀ x, (f x).jid = x.jid) : (s.updJob jid f).job? jid = some (f j) := by
  obtain rfl : j.jid = jid := by simpa using List.find?_some h
  exact State.job?_updJob h hf

/-- `f` sets the job up and its elements join channel `c`: the job stands in the table as `f` leaves it, but for the elements
that still wait, and nothing changes outside the host interface. -/
theorem State.queued_job {s : State} {jid : Nat} {j : Job} (h : s.job? jid = some j) {f : Job → Job}
    (hf : ∀ x, (f x).jid = x.jid) (c : Nat) (es : List Elem) :
    ∃ t rest, (s.updJob jid f).queueElems jid c es = t ∧ t = { s with host := t.host } ∧
      t.job? jid = some { f j with elems := rest } := by
  have hset : (s.updJob jid f).job? jid = some (f j) := State.job?_updJob_same h hf
  obtain ⟨rest, hjob⟩ := State.job?_tryReady
    (State.job?_updJob_same hset (f := fun x => { x with elems := x.elems ++ es.map fun e => (c, e) }) fun _ => rfl) c
  exact ⟨_, rest, rfl, State.tryReady_frame _ c, hjob⟩

/-! ### The two jobs (R352, R448) -/

theorem exec_move_def (list : Option Bytes) (s : State) : exec (.move list) s = execMove list s := rfl

theorem exec_ledgerRead_def (s : State) : exec .ledgerRead s = execLedgerRead s := rfl

/-- MOVE's set-up of its job: it ends with its last element, and its pickup anchors it unless it follows a stream (R65). -/
def Job.moveSetUp (t : Nat) (x : Job) : Job :=
  { x with autoEnd := true, followT := t, anchor := if x.srcSpace = 2 then none else some x.pickup }

/-- The instant from which a MOVE follows its stream (R351): the present where FOLLOW_TIME is 0. -/
def State.followTime (s : State) (j : Job) : Nat :=
  if j.fld 32 8 = 0 then s.devTime else s.devTime / 2 ^ 64 * 2 ^ 64 + j.fld 32 8

/-- LEDGER_READ's set-up of its job: its DETAIL is `detail`, its pickup anchors it, and it ends with its last element (R448). -/
def Job.ledgerSetUp (detail : Nat) (x : Job) : Job := { x with anchor := some x.pickup, detail := detail, autoEnd := true }

section
variable {s : State} {j : Job} {d : Demand} {rd rh b : Nat} {dur : Option Nat} {chans : List (Nat × Nat)}

/-- A meaning that admits its job, sets it up by `f` and queues its elements leaves it as `f` does, but for its elements. -/
theorem live_admission_queued {kind : Nat} {plan : State → Job → Plan} (hdec : Decides s j kind)
    (hgrant : s.judge j (plan s j) = .granted d rd rh b dur chans) {f : Job → Job} (hf : ∀ x, (f x).jid = x.jid)
    {start : State → Job → State}
    (hstart : ∀ regs out host, ∃ c es,
      start { s with regs := regs, out := out, host := host } (admittedAs s j d rd rh b dur) =
        (State.updJob { s with regs := regs, out := out, host := host } j.jid f).queueElems j.jid c es) :
    ∃ t rest, live s (fun s => s.admission kind (plan s) start) = .next t ∧
      t = { s with regs := t.regs, out := t.out, host := t.host } ∧
      t.job? j.jid = some { f (admittedAs s j d rd rh b dur) with elems := rest } := by
  obtain ⟨regs, out, host, hjob, hadm⟩ := State.admission_granted hdec hgrant
  obtain ⟨c, es, hqueue⟩ := hstart regs out host
  obtain ⟨t, rest, ht, hframe, htjob⟩ := State.queued_job hjob hf c es
  exact ⟨t, rest, live_eq hdec.1 _ ((hadm start).trans (hqueue.trans ht)) (by rw [hframe]), by rw [hframe], htjob⟩

/-- MOVE of host memory or the pool, admitted: it is set up, and its elements join its channel (R352). -/
theorem exec_move_granted (list : Option Bytes) (hdec : Decides s j 0x40)
    (hgrant : s.judge j (s.movePlan list j) = .granted d rd rh b dur chans) (hsrc : j.srcSpace ≠ 2) :
    ∃ t rest, exec (.move list) s = .next t ∧ t = { s with regs := t.regs, out := t.out, host := t.host } ∧
      t.job? j.jid = some { Job.moveSetUp (s.followTime j) (admittedAs s j d rd rh b dur) with elems := rest } := by
  have hspace : (admittedAs s j d rd rh b dur).srcSpace ≠ 2 := hsrc
  rw [exec_move_def, execMove]
  refine live_admission_queued (plan := (·.movePlan list)) hdec hgrant (f := Job.moveSetUp (s.followTime j))
    (fun _ => rfl) fun regs out host => ?_
  simp only [hspace, ne_eq, not_false_eq_true, if_true]
  split
  · exact ⟨_, _, rfl⟩
  · exact ⟨_, _, rfl⟩

/-- LEDGER_READ, admitted: it is set up, and its elements join its channel (R448). -/
theorem exec_ledgerRead_granted (hdec : Decides s j 0x71)
    (hgrant : s.judge j (s.ledgerPlan j) = .granted d rd rh b dur chans) :
    ∃ t rest, exec .ledgerRead s = .next t ∧ t = { s with regs := t.regs, out := t.out, host := t.host } ∧
      t.job? j.jid = some { Job.ledgerSetUp (s.life * 2 ^ 16 + countP (·.2) s.ledger.otp)
        (admittedAs s j d rd rh b dur) with elems := rest } := by
  rw [exec_ledgerRead_def, execLedgerRead]
  exact live_admission_queued (plan := (·.ledgerPlan)) hdec hgrant
    (f := Job.ledgerSetUp (s.life * 2 ^ 16 + countP (·.2) s.ledger.otp)) (fun _ => rfl) fun regs out host => ⟨_, _, rfl⟩

end

/-- Settles O34: each job stands as its set-up leaves it, but for the element that its channel may take at once. -/
theorem moverJobsStart : Obligations.MoverJobsStart := by
  intro s j d rd rh b dur chans list
  refine ⟨fun hdec hgrant hsrc => ?move, fun hdec hgrant => ?ledger⟩
  case move =>
    obtain ⟨t, rest, hexec, hframe, hjob⟩ := exec_move_granted list hdec hgrant hsrc
    exact ⟨t, _, hexec, hframe, hjob, rfl, rfl, rfl, rfl, if_neg hsrc⟩
  case ledger =>
    obtain ⟨t, rest, hexec, hframe, hjob⟩ := exec_ledgerRead_granted hdec hgrant
    exact ⟨t, _, hexec, hframe, hjob, rfl, rfl, rfl, rfl, rfl⟩

/-! ### The end of a MOVE's last element, beside a ring whose vector is out of range (R71, R340) -/

/-- The job of a MOVE from host memory to the pool, with its records on ring 0; its only element is in progress. -/
def lastElementJob : Job :=
  { jid := 1, sq := 0, cq := 0, desc := [0, 0, 0, 0, 0, 0, 0x40, 0, 4], decided := true, admitted := true, autoEnd := true }

/-- Channel 0 moves eight bytes from host memory to the pool. -/
def lastElementChan : Chan := { st := .active, jid := 1, count := 8, cur := some (.move 0 0x2000 0x1000 8) }

/-- The bytes that `lastElementChan` reads from host memory. -/
def lastElementData : Bytes := [1, 2, 3, 4, 5, 6, 7, 8]

/-- The last element of `lastElementJob` is in progress. Ring 0, which is open, names a vector far beyond the 2,048 of the
MSI-X table, so that its pending bit falls on bit 1 of MOVER_M0_ELEM_CNT. -/
def strayMoverState : State :=
  { host := { jobs := [lastElementJob], chans := [(0, lastElementChan)]
              cqs := [(0, { enable := true, vector := 8 * (0x201008 - msixPba) + 1 })] } }

/-- MOVER_M0_ELEM_CNT in the state that an outcome answers. -/
def elemCountOf : Host.Outcome State Fault Refusal → Nat
  | .next t => t.rd F.MOVER_Mm_ELEM_CNT_COUNT 0
  | .fault _ => 0
  | .refused _ => 0

/-- The one element is counted; then the job's final record signals its ring, and the pending bit makes the count 3. -/
theorem moverElementEnd_strayVector :
    elemCountOf (exec (.moverElementEnd 0 0 lastElementData 0 []) strayMoverState) = 3 := by
  decide +kernel

/-- Refutes O53: the clause on a MOVE's element quantifies over every state, so also over those whose completion ring names a
vector that HOST_CQ_CTRL.VECTOR, 11 bits wide, cannot give it. There the element that ends is the job's last, and the signal
of the final record (R72) writes its pending bit over MOVER_M0_ELEM_CNT, which is then not the count of elements. -/
theorem not_moversMoveElements : ¬ Obligations.MoversMoveElements := by
  intro h
  obtain ⟨-, -, -, -, hmove, -⟩ := h
  obtain ⟨t, ht, -, -, hcount⟩ := hmove strayMoverState 0 0 lastElementJob 0 0x2000 0x1000 8 lastElementData rfl
    (by decide) rfl rfl rfl rfl (by decide) (by decide) (by decide) (by decide) rfl
  have hstray := moverElementEnd_strayVector
  rw [ht] at hstray
  exact absurd (hcount.symm.trans hstray) (by decide)

end Sys2Proof.Machine
end
